-- ==== Sys2Proof/Word.lean ====
section
/-! DEFINITION. The word types of the LX64 model and the one container it keeps sparse state in. -/

namespace Sys2Proof

/-- Eight bits, the unit in which work entries, tables and codewords are laid out (R13). -/
abbrev Byte := BitVec 8

/-- A 32-bit register word. -/
abbrev Word := BitVec 32

/-- A 64-bit register, CFLASH word or physical address. -/
abbrev Word64 := BitVec 64

/-- One 64 B beat of the fabric protocol (R21). -/
abbrev Beat := BitVec 512

/-- Sparse data by number: pairs of a key and a value, keys strictly rising, no value equal to what an
unlisted key reads as. The operations that keep this form stand in Machine/Tab.lean. -/
abbrev Tab (α : Type) := List (Nat × α)

end Sys2Proof
end

