-- ==== Sys2Proof/Syntax.lean ====
section
/-! DEFINITION. The commands the block takes: one constructor for each row of spec/opcode_table.json, with the operands
that come from outside the block. An answer of a die, of the fabric or of a decoder is an operand of the command that
delivers it. -/

namespace Sys2Proof

/-- What the dies of a lane answer while the lane starts (R245): whether the reset ended in time, the eight Read ID
bytes, the passing windows of its training, as (centre, width), and whether that exceeded its time limit (R241). -/
structure DieAnswer where
  die : Nat
  ready : Bool
  id : Word64
  windows : List (Nat × Nat)
  expired : Bool
  deriving DecidableEq, Repr

/-- The three supplies whose warnings the block sees (R427). -/
inductive Supply where
  | vcc | vccq | core
  deriving DecidableEq, Repr

/-- The kinds of operation that R241 limits. -/
inductive LimitKind where
  | read | pass | erase | suspend | status | feature | training | reset
  deriving DecidableEq, Repr

/-- What a scrubber finds in the word it reads (R457 to R459). -/
inductive Finding where
  | good | correctable (written : Bool) | uncorrectable
  deriving DecidableEq, Repr

/-- The errors that one read of a sector of CFLASH finds (R413): the bits it corrects, and the numbers of the sector's words, 0 to
511, that it cannot correct. At a reset sector 1,024 stands for the identity row, which Gatehouse reads then. -/
structure ReadErr where
  sector : Nat
  corr : Nat
  bad : List Nat
  deriving DecidableEq, Repr

/-- The commands, events and internal steps of the LX64. `sec` is the sec bit of a register access (R23), `n` a lane,
`p` a pavilion, `j` a junction, `c` a Causeway channel, `t` an interrupt target. -/
inductive Instr where
  -- resets, loading, start
  | powerOnReset (ns : Nat)
  | blockReset (ns : Nat)
  | brownOutReset (ns : Nat)
  | controlStoreLoad (n : Nat) (errs : List ReadErr)
  | lxReady
  | laneStart (n : Nat) (dies : List DieAnswer) (errs : List ReadErr)
  | dieTrain (n d : Nat) (windows : List (Nat × Nat))
  -- the tick and the board
  | tick (t0 t1 t2 t3 : Int)
  | laneSlipEvent (n : Nat)
  | frameBuild (n : Nat)
  | suspendEarliestReached (n d : Nat)
  | suspendHoldExpiry (n d : Nat)
  | ps1Entry (n : Nat)
  | epochAdvance
  | epochWrite (v : Word) (sec : Bool)
  | boardTempWrite (v : Word) (sec : Bool)
  | boardTempStale
  | tickCtrlWrite (v : Word) (sec : Bool)
  | milepostLoRead (sec : Bool)
  | telemetrySample (v : BitVec 16)
  | tollgatePeriod
  | thermalLoop
  | thermalTrip (sensor : Nat)
  | thermalRestart
  | supplyWarning (w : Supply)
  | supplyWarningEnd (w : Supply) (us : Nat)
  | refclkFail (j : Nat)
  | idleSleepChange (t : Nat) (idle sleep : Bool)
  -- the fabric and the register slave port
  | fabricReadReturn (port id seq : Nat) (data : Beat) (st : BitVec 3)
  | fabricWriteAck (port id : Nat) (st : BitVec 3)
  | fabricResponseTimeout (port : Nat) (write : Bool) (id : Nat)
  | registerWrite (addr : Nat) (bmask : BitVec 8) (v : Word64) (sec : Bool)
  | sqDoorbell (p : Nat) (q : Option Nat) (v : Word) (sec : Bool)
  | cqDoorbell (p : Nat) (q : Option Nat) (v : Word) (sec : Bool)
  | pavilionFetch
  | entryCheck (p : Nat)
  | chainTimeout (p : Nat) (q : Option Nat)
  | pvErrRead (p : Nat) (count : Bool) (sec : Bool)
  | poolEntry (n : Nat)
  | completionAccept (cq : Nat) (src : Nat)
  -- admin commands: pavilion p's executor runs its current instruction
  | sqCreate (p : Nat)
  | sqDelete (p : Nat)
  | cqCreate (p : Nat)
  | cqDelete (p : Nat)
  | sqResume (p : Nat)
  | vectorBind (p : Nat)
  | keyCreate (p : Nat)
  | keyLoad (p : Nat)
  | keyExport (p : Nat)
  | keyDestroy (p : Nat)
  | stripeOpen (p : Nat)
  | stripeAdd (p : Nat)
  | stripeClose (p : Nat)
  | stripeCloseTaken (n stripe : Nat)
  | identify (p : Nat)
  | abort (p : Nat)
  | abortRequest (n : Nat)
  -- Kordo instructions: lane n takes up instruction i of work entry e
  | read (n e i : Nat)
  | prog (n e i : Nat)
  | append (n e i : Nat)
  | erase (n e i : Nat)
  | eraseVerify (n e i : Nat)
  | relocate (n e i : Nat)
  | sample (n e i : Nat)
  | fence (n e i : Nat)
  | wait (n e i : Nat)
  | waitTimeout (n e i : Nat)
  | signal (n e i : Nat)
  | featureGet (n e i : Nat)
  | featureSet (n e i : Nat)
  | dieStatus (n e i : Nat)
  | train (n e i : Nat)
  | raw (n e i : Nat)
  | nop (n e i : Nat)
  | waymarkWrite (n : Nat) (v : Word) (sec : Bool)
  -- the sequencer and the PHY of lane n
  | microRoutineStart (n : Nat)
  | phyCycleQueueEntry (n : Nat) (din : List Byte)
  | mwNop (n : Nat)
  | mwEnd (n : Nat)
  | mwJmp (n : Nat)
  | mwJz (n : Nat)
  | mwJnz (n : Nat)
  | mwCall (n : Nat)
  | mwRet (n : Nat)
  | mwLoop (n : Nat)
  | mwMovi (n : Nat)
  | mwMovh (n : Nat)
  | mwMov (n : Nat)
  | mwAdd (n : Nat)
  | mwSub (n : Nat)
  | mwAnd (n : Nat)
  | mwOr (n : Nat)
  | mwXor (n : Nat)
  | mwShl (n : Nat)
  | mwShr (n : Nat)
  | mwAddi (n : Nat)
  | mwTst (n : Nat)
  | mwLdp (n : Nat)
  | mwTmask (n : Nat)
  | tmaskForcedClose (n : Nat)
  | mwCe (n : Nat)
  | mwCeoff (n : Nat)
  | mwCmd (n : Nat)
  | mwConf (n : Nat)
  | mwAdr (n : Nat)
  | mwAdrc (n : Nat)
  | mwAdrr (n : Nat)
  | mwTw (n : Nat)
  | mwDly (n : Nat)
  | mwDin (n : Nat)
  | mwDout (n : Nat)
  | mwPin (n : Nat)
  | mwPout (n : Nat) (params : Word)
  | mwStat (n : Nat) (status : Byte)
  | mwWrb (n : Nat) (expired : Bool)
  | rbNChange (n ce : Nat) (level : Bool)
  | statusPoll (n d : Nat)
  | dieReady (n d : Nat)
  | operationTimeLimit (n d : Nat) (kind : LimitKind)
  | dieTempPoll (n d : Nat) (reading : Int)
  | retrainDeferExpiry (n d : Nat)
  | hardDecodeDone (n cw : Nat) (out : List Byte) (unsat : Nat)
  | softDecodeStart (j d : Nat)
  | softDecodeDone (j d : Nat) (out : List Byte)
  | cwJobFinish (j c : Nat)
  | machineCheck (n : Nat)
  | watchdogExpiry (n : Nat)
  | controlStoreReload (n : Nat) (errs : List ReadErr)
  | laneReset (n : Nat) (v : Word) (sec : Bool)
  -- register writes and reads with a behaviour of their own
  | pvCfgWrite (p : Nat) (v : Word) (sec : Bool)
  | pvReset (p : Nat) (v : Word) (sec : Bool)
  | pvResetDone (p : Nat)
  | pvAdmEnable (p : Nat) (v : Word) (sec : Bool)
  | pvAdmDisable (p : Nat) (v : Word) (sec : Bool)
  | pvAdmResume (p : Nat) (v : Word) (sec : Bool)
  | sysStageWrite (v : Word64) (size8 sec : Bool)
  | sysUrecWrite (v : Word64) (size8 sec : Bool)
  | familyTableWrite (off : Nat) (bmask : BitVec 8) (v : Word64) (sec : Bool)
  | cwLoad (j c : Nat) (v : Word) (sec : Bool)
  | cwDisable (j c : Nat) (v : Word) (sec : Bool)
  | cwDisableClear (j c : Nat) (v : Word) (sec : Bool)
  | cwProgramWrite (j g i : Nat) (bmask : BitVec 8) (v : Word64) (sec : Bool)
  | cwEventWrite (j : Nat) (set : Bool) (v : Word) (sec : Bool)
  | cwMove (j c : Nat)
  | cwLoop (j c : Nat)
  | cwWait (j c : Nat)
  | cwSignal (j c : Nat)
  | cwEnd (j c : Nat)
  | cwDrainComplete (j c : Nat)
  | icClaim (t : Nat) (sec : Bool)
  | icComplete (t : Nat) (v : Word) (sec : Bool)
  | moderationTimeout (src : Nat)
  | icSrcCfgWrite (src : Nat) (bmask : BitVec 8) (v : Word64) (sec : Bool)
  | vlogPop (v : Word) (sec : Bool)
  | keyArm (v : Word) (sec : Bool)
  | keyZeroise (v : Word) (sec : Bool)
  | wrapKeyLoad (v : Word) (sec : Bool)
  | wrapKeyClear (v : Word) (sec : Bool)
  | rngReseed (v : Word) (sec : Bool)
  | rngRestart (v : Word) (sec : Bool)
  | rngHealthFail
  | rngDataRead (sec : Bool)
  | attStart (v : Word) (sec : Bool)
  -- CFLASH
  | cfSequenceStep (off : Nat) (bmask : BitVec 8) (v : Word64) (sec : Bool)
  | cfSequenceTimeout
  | wordProg (data : Word64) (sec : Bool)
  | sectorErase (addr : Word) (sec : Bool)
  | rowProg (data : Word64) (sec : Bool)
  | protProg (data : Word64) (sec : Bool)
  | protErase (addr : Word) (sec : Bool)
  | protLock (data : Word64) (sec : Bool)
  | protUnlock (data : Word64) (sec : Bool)
  | cfCommandEnd (ok : Bool)
  | cfProtClose (v : Word) (sec : Bool)
  | cfWindowRead (off : Nat) (size8 sec : Bool) (corr : Nat) (unc : Bool)
  -- power states, at-risk list, memory protection
  | pmReqPs2 (v : Word) (sec : Bool)
  | pmReqPs3 (v : Word) (sec : Bool)
  | pmReqCancel (v : Word) (sec : Bool)
  | ps2Entry
  | ps2Exit
  | ps3Entry
  | pmWake (v : Word) (sec : Bool)
  | atriskRelease (v : Word) (sec : Bool)
  | atriskLaneRelease (hi : Bool) (v : Word) (sec : Bool)
  | scrubWord (lane : Option Nat) (find : Finding) (mem index synd : Nat) (lapEnd : Bool)
  | mpTestArm (v : Word) (sec : Bool)
  | mpTestGo (v : Word) (sec : Bool)
  | fabricCredit (port : Option Nat) (chan : Nat)
  | resetDeassert (errs : List ReadErr) (rowBad : Bool)
  | vddCoreRestored (errs : List ReadErr) (rowBad : Bool)
  | comparator105cChange (sensor : Nat) (high : Bool)
  | pvSrcTgtWrite (p : Nat) (v : Word) (sec : Bool)
  | rcRegisterRead (addr : Nat) (size8 sec : Bool)
  | drbgInstantiated
  deriving DecidableEq, Repr

end Sys2Proof
end

