-- ==== Sys2Proof/Machine/Tab.lean ====
section
/-! DEFINITION. The operations on sparse tables: reading, writing in canonical form, and the arithmetic of register
fields. -/

namespace Sys2Proof.Machine

open Sys2Proof

/-- What key `i` of a table reads as, where an unlisted key reads as `d`. -/
def tget {α : Type} (d : α) (t : Tab α) (i : Nat) : α :=
  match t with
  | [] => d
  | p :: r => if p.1 = i then p.2 else tget d r i

/-- The table without key `i`. -/
def terase {α : Type} (t : Tab α) (i : Nat) : Tab α :=
  t.filter (fun p => p.1 != i)

/-- Puts a pair in its place before the first greater key. -/
def tins {α : Type} (i : Nat) (x : α) : Tab α → Tab α
  | [] => [(i, x)]
  | p :: r => if i < p.1 then (i, x) :: p :: r else p :: tins i x r

/-- Writes `x` at key `i`, listed whatever it is. -/
def tput {α : Type} (t : Tab α) (i : Nat) (x : α) : Tab α :=
  tins i x (terase t i)

/-- Writes `x` at key `i`, where an unlisted key reads as `d`: a value equal to `d` removes the pair. -/
def tset {α : Type} [DecidableEq α] (d : α) (t : Tab α) (i : Nat) (x : α) : Tab α :=
  if x = d then terase t i else tput t i x

/-- Applies `f` to key `i`. -/
def tupd {α : Type} (d : α) (t : Tab α) (i : Nat) (f : α → α) : Tab α :=
  tput t i (f (tget d t i))

/-- The keys of a table rise strictly. -/
def tsorted {α : Type} : Tab α → Bool
  | [] => true
  | [_] => true
  | p :: q :: r => decide (p.1 < q.1) && tsorted (q :: r)

/-- The canonical form of a word table: rising keys, and no word equal to what an unlisted key reads as. -/
def twf {α : Type} [DecidableEq α] (d : Nat → α) (t : Tab α) : Bool :=
  tsorted t && t.all (fun p => decide (p.2 ≠ d p.1))

/-- Bits hi to lo of a number. -/
def bitsOf (w hi lo : Nat) : Nat := w / 2 ^ lo % 2 ^ (hi + 1 - lo)

/-- Bits hi to lo of a register word. -/
def fld (w : Word) (hi lo : Nat) : Nat := bitsOf w.toNat hi lo

/-- The mask of bits hi to lo of a register word. -/
def fldMask (hi lo : Nat) : Word := BitVec.ofNat 32 ((2 ^ (hi + 1 - lo) - 1) * 2 ^ lo)

/-- A register word with bits hi to lo replaced. -/
def setFld (w : Word) (hi lo v : Nat) : Word :=
  (w &&& ~~~(fldMask hi lo)) ||| (BitVec.ofNat 32 (v * 2 ^ lo) &&& fldMask hi lo)

/-- A number as a bit. -/
def ofBool (b : Bool) : Nat := if b then 1 else 0

/-- A signed number within the signed 32-bit range (R364). -/
def sat32 (x : Int) : Int := max (-2147483648) (min x 2147483647)

/-- The signed reading of a register word. -/
def sword (w : Word) : Int := w.toInt

/-- The signed reading of the low eight bits of a number. -/
def sbyte (n : Nat) : Int := (BitVec.ofNat 8 n).toInt

end Sys2Proof.Machine
end

