-- ==== Sys2Proof/Machine/Codec.lean ====
section
/-! DEFINITION. The byte formats and codes: little-endian fields (R13), CRC-32C (R62), physical addresses (R123), codeword
metadata (R258), the randomiser (R265, R266) and the LDPC code (R471). -/

namespace Sys2Proof.Machine

open Sys2Proof

/-- The number that bytes hold, least significant first (R13). -/
def leNat : List Byte → Nat
  | [] => 0
  | x :: r => x.toNat + 256 * leNat r

/-- n bytes of a number, least significant first (R13). -/
def leBytes : Nat → Nat → List Byte
  | 0, _ => []
  | n + 1, x => BitVec.ofNat 8 x :: leBytes n (x / 256)

/-- n zero bytes. -/
def zeros (n : Nat) : List Byte := List.replicate n 0

/-- Byte i, zero past the end. -/
def byteAt (l : List Byte) (i : Nat) : Nat := (l.getD i 0).toNat

/-- Bytes lo to lo + n − 1 as a number. -/
def fieldAt (l : List Byte) (lo n : Nat) : Nat := leNat ((l.drop lo).take n)

/-- The 64 bytes of a beat, byte 0 in bits 7 to 0 (R13). -/
def beatBytes (x : Beat) : List Byte := leBytes 64 x.toNat

/-- Bytes cut into beats, the last one filled up with zeros. -/
def toBeats (l : List Byte) : List Beat :=
  (List.range ((l.length + 63) / 64)).map (fun i => BitVec.ofNat 512 (leNat ((l.drop (64 * i)).take 64)))

/-- The byte mask of the first n bytes of a beat (R21). -/
def maskFirst (n : Nat) : BitVec 64 := BitVec.ofNat 64 (2 ^ (min n 64) - 1)

/-- One bit of the reflected CRC-32C (polynomial 0x1EDC_6F41, reflected 0x82F6_3B78). -/
def crcBit (c : Nat) : Nat := if c % 2 = 1 then (c / 2) ^^^ 0x82F63B78 else c / 2

/-- One byte of the CRC-32C. -/
def crcByte (c : Nat) (x : Byte) : Nat :=
  let c := c ^^^ x.toNat
  crcBit (crcBit (crcBit (crcBit (crcBit (crcBit (crcBit (crcBit c)))))))

/-- CRC-32C (R62): initial value and final XOR 0xFFFF_FFFF. -/
def crc32c (l : List Byte) : Nat := (l.foldl crcByte 0xFFFFFFFF) ^^^ 0xFFFFFFFF

/-- The fields of a physical address (R123). -/
def paSlot (a : Nat) : Nat := a % 8
/-- PAGE of a physical address (R123). -/
def paPage (a : Nat) : Nat := a / 2 ^ 3 % 2 ^ 14
/-- UNIT of a physical address (R123). -/
def paUnit (a : Nat) : Nat := a / 2 ^ 17 % 2 ^ 16
/-- DIE of a physical address (R123). -/
def paDie (a : Nat) : Nat := a / 2 ^ 33 % 2 ^ 6
/-- LANE of a physical address (R123). -/
def paLane (a : Nat) : Nat := a / 2 ^ 39 % 2 ^ 6
/-- Bits [63:45] of a physical address, which must be zero (R123). -/
def paTop (a : Nat) : Nat := a / 2 ^ 45
/-- A physical address from its fields (R123). -/
def mkPa (lane die unit page slot : Nat) : Nat :=
  slot + page * 2 ^ 3 + unit * 2 ^ 17 + die * 2 ^ 33 + lane * 2 ^ 39

/-- UNIT with its low three bits, the plane, replaced (R125). -/
def onPlane (unit plane : Nat) : Nat := unit / 8 * 8 + plane

/-- CW_BYTES of a parity profile (R257). -/
def cwBytes (parity : Nat) : Nat := 4384 + 64 * parity

/-- The 32 B metadata of a codeword (R258). -/
def metaBytes (htag seq pepoch kslot pband format : Nat) : List Byte :=
  leBytes 8 htag ++ leBytes 4 seq ++ leBytes 4 pepoch ++ leBytes 2 (kslot % 4096 + pband % 8 * 4096)
    ++ leBytes 1 format ++ zeros 13

/-- HTAG of a decoded codeword (R258). -/
def cwHtag (cw : List Byte) : Nat := fieldAt cw 4096 8
/-- PEPOCH of a decoded codeword (R258). -/
def cwPepoch (cw : List Byte) : Nat := fieldAt cw 4108 4
/-- KSLOT of a decoded codeword (R258). -/
def cwKslot (cw : List Byte) : Nat := fieldAt cw 4112 2 % 4096
/-- PBAND of a decoded codeword (R258). -/
def cwPband (cw : List Byte) : Nat := fieldAt cw 4112 2 / 4096 % 8
/-- FORMAT of a decoded codeword (R258). -/
def cwFormat (cw : List Byte) : Nat := byteAt cw 4114

/-- The metadata of a relocated codeword: PBAND and PEPOCH rewritten, the rest kept (R165). -/
def relocMeta (cw : List Byte) (pband pepoch : Nat) : List Byte :=
  (cw.drop 4096).take 12 ++ leBytes 4 pepoch ++ leBytes 2 (cwKslot cw + pband % 8 * 4096)
    ++ (cw.drop 4114).take 14

/-- One step of the randomiser's register (R265): its output bit and its next state. -/
def lfsrStep (s : Nat) : Nat × Nat :=
  let out := s / 2 ^ 22 % 2
  let fb := (out + s / 2 ^ 17) % 2
  (out, (2 * s + fb) % 2 ^ 23)

/-- n steps of the register: the mask bits, first output in bit 0, and the register after them. -/
def lfsrBits : Nat → Nat → Nat × Nat
  | 0, s => (0, s)
  | n + 1, s =>
    let (o, s1) := lfsrStep s
    let (m, s2) := lfsrBits n s1
    (o + 2 * m, s2)

/-- The mask of n bytes from a register state (R265), and the register after it. -/
def lfsrMask : Nat → Nat → List Byte × Nat
  | 0, s => ([], s)
  | n + 1, s =>
    let (m, s1) := lfsrBits 8 s
    let (r, s2) := lfsrMask n s1
    (BitVec.ofNat 8 m :: r, s2)

/-- The seed of a codeword's slot (R266). -/
def lfsrSeed (pa : Nat) : Nat :=
  let s := paPage pa + paSlot pa * 2 ^ 14 + ((paUnit pa ^^^ paDie pa) % 64) * 2 ^ 17
  if s = 0 then 0x7FFFFF else s

/-- Randomising and derandomising a codeword (R265). -/
def randomise (pa : Nat) (l : List Byte) : List Byte :=
  (l.zip (lfsrMask l.length (lfsrSeed pa)).1).map (fun p => p.1 ^^^ p.2)

/-- The page's tail: the last slot's register run on over zero bytes (R266). -/
def pageTail (pa cwLen tail : Nat) : List Byte :=
  (lfsrMask tail (lfsrMask cwLen (lfsrSeed pa)).2).1

/-- Block rows of the LDPC code for a codeword length (R471). -/
def ldpcRows (len : Nat) : Nat := (len - 4128) / 32

/-- Block i of 256 bits of a codeword, bit 256 i + x in bit x (R471). -/
def ldpcBlock (cw : List Byte) (i : Nat) : BitVec 256 := BitVec.ofNat 256 (leNat ((cw.drop (32 * i)).take 32))

/-- The cyclic shift S(a, u): bit x is bit (x + a) mod 256 of u (R471). -/
def ldpcShift (a : Nat) (u : BitVec 256) : BitVec 256 := u.rotateRight (a % 256)

/-- The shift a(j, t) of information block j (R471). -/
def ldpcA (j t : Nat) : Nat := (j * (37 + 8 * t) + 61 * t * t + 5) % 256

/-- s_i: the XOR of the information terms of row i, of m rows (R471). -/
def ldpcInfo (cw : List Byte) (m i : Nat) : BitVec 256 :=
  (List.range 129).foldl (fun acc j =>
    (List.range 4).foldl (fun acc t =>
      if (j + 2 * t) % m = i then acc ^^^ ldpcShift (ldpcA j t) (ldpcBlock cw j) else acc) acc) 0

/-- The parity blocks from row i on: each is its row's information terms XOR the block before (R471). -/
def ldpcParity (cw : List Byte) (m : Nat) : Nat → Nat → BitVec 256 → List (BitVec 256)
  | 0, _, _ => []
  | k + 1, i, prev =>
    let p := ldpcInfo cw m i ^^^ prev
    p :: ldpcParity cw m k (i + 1) p

/-- The encoder: bytes 4,127:0 followed by the parity of a codeword of `len` bytes (R471). -/
def ldpcEncode (info : List Byte) (len : Nat) : List Byte :=
  let m := ldpcRows len
  info ++ (ldpcParity info m m 0 0).flatMap (fun p => leBytes 32 p.toNat)

/-- A codeword is valid when every row check holds (R471), which for the staircase means that its parity is the one the
encoder computes. -/
def ldpcValid (cw : List Byte) : Bool :=
  decide (cw = ldpcEncode (cw.take 4128) cw.length)

/-- The ones of a number, looked for in n bits. -/
def onesIn : Nat → Nat → Nat
  | 0, _ => 0
  | n + 1, x => x % 2 + onesIn n (x / 2)

/-- The number of bits in which two codewords differ (R269). -/
def bitDiff (a b : List Byte) : Nat :=
  ((a.zip b).map (fun p => onesIn 8 (p.1 ^^^ p.2).toNat)).foldl (· + ·) 0

/-- The number of 0 bits, which an erased cell does not read (R267). -/
def zeroBits (l : List Byte) : Nat := (l.map (fun x => 8 - onesIn 8 x.toNat)).foldl (· + ·) 0

/-- A RELOCATE record: the payload, the metadata and 32 zero bytes (R163). -/
def recordBytes (cw : List Byte) : List Byte := cw.take 4128 ++ zeros 32

end Sys2Proof.Machine
end

