-- ==== Sys2Proof/Machine/Crypto.lean ====
section
/-! DEFINITION. The algorithms the spec names by their standards: AES-256 with XTS (R261) and key wrap (R397), SHA-384, the
counter-mode KDF with HMAC-SHA-384 (R399) and ECDSA P-384 (R405, R408). Their constants come from those standards, not
from the spec (log entry 8, PRESUMED). -/

namespace Sys2Proof.Machine

open Sys2Proof

/-- Multiplication by x in the AES field. -/
def gfDouble (a : Nat) : Nat := if a < 128 then 2 * a else (2 * a) ^^^ 0x11B

/-- Multiplication in the AES field, over n bits of the second factor. -/
def gfMul : Nat → Nat → Nat → Nat
  | 0, _, _ => 0
  | n + 1, a, c => (if c % 2 = 1 then a else 0) ^^^ gfMul n (gfDouble a) (c / 2)

/-- The AES substitution box, entry x in byte x of the number. -/
def sboxAll : Nat := 0x16BB54B00F2D99416842E6BF0D89A18CDF2855CEE9871E9B948ED9691198F8E19E1DC186B95735610EF6034866B53E708A8BBD4B1F74DDE8C6B4A61C2E2578BA08AE7A65EAF4566CA94ED58D6D37C8E779E4959162ACD3C25C2406490A3A32E0DB0B5EDE14B8EE4688902A22DC4F816073195D643D7EA7C41744975FEC130CCDD2F3FF1021DAB6BCF5389D928F40A351A89F3C507F02F94585334D43FBAAEFD0CF584C4A39BECB6A5BB1FC20ED00D153842FE329B3D63B52A05A6E1B1A2C830975B227EBE28012079A059618C323C7041531D871F1E5A534CCF73F362693FDB7C072A49CAFA2D4ADF04759FA7DC982CA76ABD7FE2B670130C56F6BF27B777C63

/-- The inverse substitution box, entry x in byte x of the number. -/
def sboxInvAll : Nat := 0x7D0C2155631469E126D677BA7E042B17619953833CBBEBC8B0F52AAE4D3BE0A0EF9CC9939F7AE52D0D4AB519A97F51605FEC8027591012B131C7078833A8DD1FF45ACD78FEC0DB9A2079D2C64B3E56FC1BBE18AA0E62B76F89C5291D711AF1476EDF751CE837F9E28535ADE72274AC9673E6B4F0CECFF297EADC674F4111913A6B8A130103BDAFC1020F3FCA8F1E2CD00645B3B80558E4F70AD3BC8C00ABD890849D8DA75746155EDAB9EDFD5048706C92B6655DCC5CA4D41698688664F6F87225D18B6D49A25B76B224D92866A12E084EC3FA420B954CEE3D23C2A632947B54CBE9DEC444438E3487FF2F9B8239E37CFBD7F3819EA340BF38A53630D56A0952

/-- The substitution of one byte. -/
def sbox (x : Nat) : Nat := sboxAll / 2 ^ (8 * x) % 256

/-- The inverse substitution of one byte. -/
def sboxInv (x : Nat) : Nat := sboxInvAll / 2 ^ (8 * x) % 256

/-- Byte-wise XOR of two byte lists held as numbers. -/
def xorL (a c : List Nat) : List Nat := (a.zip c).map (fun p => p.1 ^^^ p.2)

/-- The next of the sixty key schedule words from the last eight, newest first (index `i`). -/
def aesNextWord (i : Nat) (ws : List (List Nat)) : List Nat :=
  let t := ws.getD 0 []
  let t := if i % 8 = 0 then
      let r := (t.drop 1 ++ t.take 1).map sbox
      xorL r [2 ^ (i / 8 - 1), 0, 0, 0]
    else if i % 8 = 4 then t.map sbox else t
  xorL t (ws.getD 7 [])

/-- The key schedule of AES-256, newest word first. -/
def aesSchedule : Nat → Nat → List (List Nat) → List (List Nat)
  | 0, _, ws => ws
  | n + 1, i, ws => aesSchedule n (i + 1) (aesNextWord i ws :: ws)

/-- The fifteen round keys of a 32-byte key. -/
def aesRoundKeys (key : List Nat) : List (List Nat) :=
  let w0 := (List.range 8).map (fun i => (key.drop (4 * i)).take 4)
  let ws := (aesSchedule 52 8 w0.reverse).reverse
  (List.range 15).map (fun r => ((ws.drop (4 * r)).take 4).flatten)

/-- The row shift of the AES state held column by column; `d` is 1 forward and 3 back. -/
def aesShift (d : Nat) (s : List Nat) : List Nat :=
  (List.range 16).map (fun i => s.getD ((i + 4 * (d * (i % 4))) % 16) 0)

/-- The column mix with the given first row of the matrix. -/
def aesMix (row : List Nat) (s : List Nat) : List Nat :=
  (List.range 16).map (fun i =>
    (List.range 4).foldl (fun acc k =>
      acc ^^^ gfMul 8 (s.getD (i / 4 * 4 + k) 0) (row.getD ((k + 4 - i % 4) % 4) 0)) 0)

/-- AES-256 encryption of a 16-byte block. -/
def aesEnc (key block : List Nat) : List Nat :=
  let rk := aesRoundKeys key
  let s := (List.range 13).foldl (fun s r =>
    xorL (aesMix [2, 3, 1, 1] (aesShift 1 (s.map sbox))) (rk.getD (r + 1) [])) (xorL block (rk.getD 0 []))
  xorL (aesShift 1 (s.map sbox)) (rk.getD 14 [])

/-- AES-256 decryption of a 16-byte block. -/
def aesDec (key block : List Nat) : List Nat :=
  let rk := aesRoundKeys key
  let s := (List.range 13).foldl (fun s r =>
    aesMix [14, 11, 13, 9] (xorL ((aesShift 3 s).map sboxInv) (rk.getD (13 - r) []))) (xorL block (rk.getD 14 []))
  xorL ((aesShift 3 s).map sboxInv) (rk.getD 0 [])

/-- The next XTS tweak: multiplication by the primitive element, least significant byte first. -/
def xtsNext (t : List Nat) : List Nat :=
  let v := leNat (t.map (BitVec.ofNat 8))
  let w := 2 * v % 2 ^ 128
  (leBytes 16 (if v < 2 ^ 127 then w else w ^^^ 0x87)).map BitVec.toNat

/-- The blocks of an XTS data unit under a tweak. -/
def xtsBlocks (f : List Nat → List Nat) : Nat → List Nat → List Nat → List Nat
  | 0, _, _ => []
  | n + 1, t, d => xorL (f (xorL (d.take 16) t)) t ++ xtsBlocks f n (xtsNext t) (d.drop 16)

/-- The XTS transform of a payload under a slot's 512-bit key, data key in its low half, with HTAG as the data unit
number (R261). -/
def xts (enc : Bool) (key : BitVec 512) (htag : Nat) (data : List Byte) : List Byte :=
  let ks := (leBytes 64 key.toNat).map BitVec.toNat
  let dk := ks.take 32
  let t := aesEnc (ks.drop 32) ((leBytes 16 htag).map BitVec.toNat)
  (xtsBlocks (if enc then aesEnc dk else aesDec dk) (data.length / 16) t (data.map BitVec.toNat)).map
    (BitVec.ofNat 8)

/-- Eight bytes of a number, most significant first. -/
def beBytes (n x : Nat) : List Nat := ((leBytes n x).map BitVec.toNat).reverse

/-- The number of bytes, most significant first. -/
def beNat (l : List Nat) : Nat := l.foldl (fun a x => 256 * a + x) 0

/-- One step of AES key wrap (SP 800-38F KW): t counts up from 1, A is the register, R the semiblocks in turn. -/
def kwStep (key : List Nat) (t : Nat) (a : List Nat) (r : List (List Nat)) : List Nat × List (List Nat) :=
  let c := aesEnc key (a ++ r.getD 0 [])
  (xorL (c.take 8) (beBytes 8 t), r.drop 1 ++ [c.drop 8])

/-- The steps of a wrap. -/
def kwRun (key : List Nat) : Nat → Nat → List Nat → List (List Nat) → List Nat × List (List Nat)
  | 0, _, a, r => (a, r)
  | n + 1, t, a, r => let (a, r) := kwStep key t a r; kwRun key n (t + 1) a r

/-- The steps of an unwrap, from the last one back. -/
def kwUnrun (key : List Nat) : Nat → List Nat → List (List Nat) → List Nat × List (List Nat)
  | 0, a, r => (a, r)
  | n + 1, a, r =>
    let last := r.getLastD []
    let c := aesDec key (xorL a (beBytes 8 (n + 1)) ++ last)
    kwUnrun key n (c.take 8) (c.drop 8 :: r.dropLast)

/-- AES key wrap with the default integrity check value (R397). -/
def keyWrap (key : BitVec 256) (plain : List Byte) : List Byte :=
  let k := (leBytes 32 key.toNat).map BitVec.toNat
  let p := plain.map BitVec.toNat
  let r := (List.range (p.length / 8)).map (fun i => (p.drop (8 * i)).take 8)
  let (a, r) := kwRun k (6 * r.length) 1 (List.replicate 8 0xA6) r
  (a ++ r.flatten).map (BitVec.ofNat 8)

/-- AES key unwrap: the plaintext, or none where the integrity check value differs (R398). -/
def keyUnwrap (key : BitVec 256) (blob : List Byte) : Option (List Byte) :=
  let k := (leBytes 32 key.toNat).map BitVec.toNat
  let p := blob.map BitVec.toNat
  let n := p.length / 8 - 1
  let r := (List.range n).map (fun i => (p.drop (8 * (i + 1))).take 8)
  let (a, r) := kwUnrun k (6 * n) (p.take 8) r
  if a = List.replicate 8 0xA6 then some (r.flatten.map (BitVec.ofNat 8)) else none

/-- The round constants 0 to 39 of SHA-384. -/
def shaK0 : List Word64 := [
   0x428A2F98D728AE22, 0x7137449123EF65CD, 0xB5C0FBCFEC4D3B2F, 0xE9B5DBA58189DBBC,
   0x3956C25BF348B538, 0x59F111F1B605D019, 0x923F82A4AF194F9B, 0xAB1C5ED5DA6D8118,
   0xD807AA98A3030242, 0x12835B0145706FBE, 0x243185BE4EE4B28C, 0x550C7DC3D5FFB4E2,
   0x72BE5D74F27B896F, 0x80DEB1FE3B1696B1, 0x9BDC06A725C71235, 0xC19BF174CF692694,
   0xE49B69C19EF14AD2, 0xEFBE4786384F25E3, 0x0FC19DC68B8CD5B5, 0x240CA1CC77AC9C65,
   0x2DE92C6F592B0275, 0x4A7484AA6EA6E483, 0x5CB0A9DCBD41FBD4, 0x76F988DA831153B5,
   0x983E5152EE66DFAB, 0xA831C66D2DB43210, 0xB00327C898FB213F, 0xBF597FC7BEEF0EE4,
   0xC6E00BF33DA88FC2, 0xD5A79147930AA725, 0x06CA6351E003826F, 0x142929670A0E6E70,
   0x27B70A8546D22FFC, 0x2E1B21385C26C926, 0x4D2C6DFC5AC42AED, 0x53380D139D95B3DF,
   0x650A73548BAF63DE, 0x766A0ABB3C77B2A8, 0x81C2C92E47EDAEE6, 0x92722C851482353B]

/-- The round constants 40 to 79 of SHA-384. -/
def shaK1 : List Word64 := [
   0xA2BFE8A14CF10364, 0xA81A664BBC423001, 0xC24B8B70D0F89791, 0xC76C51A30654BE30,
   0xD192E819D6EF5218, 0xD69906245565A910, 0xF40E35855771202A, 0x106AA07032BBD1B8,
   0x19A4C116B8D2D0C8, 0x1E376C085141AB53, 0x2748774CDF8EEB99, 0x34B0BCB5E19B48A8,
   0x391C0CB3C5C95A63, 0x4ED8AA4AE3418ACB, 0x5B9CCA4F7763E373, 0x682E6FF3D6B2B8A3,
   0x748F82EE5DEFB2FC, 0x78A5636F43172F60, 0x84C87814A1F0AB72, 0x8CC702081A6439EC,
   0x90BEFFFA23631E28, 0xA4506CEBDE82BDE9, 0xBEF9A3F7B2C67915, 0xC67178F2E372532B,
   0xCA273ECEEA26619C, 0xD186B8C721C0C207, 0xEADA7DD6CDE0EB1E, 0xF57D4F7FEE6ED178,
   0x06F067AA72176FBA, 0x0A637DC5A2C898A6, 0x113F9804BEF90DAE, 0x1B710B35131C471B,
   0x28DB77F523047D84, 0x32CAAB7B40C72493, 0x3C9EBE0A15C9BEBC, 0x431D67C49C100D4C,
   0x4CC5D4BECB3E42B6, 0x597F299CFC657E2A, 0x5FCB6FAB3AD6FAEC, 0x6C44198C4A475817]

/-- The initial hash value of SHA-384. -/
def shaInit : List Word64 := [
   0xCBBB9D5DC1059ED8, 0x629A292A367CD507, 0x9159015A3070DD17, 0x152FECD8F70E5939,
   0x67332667FFC00B31, 0x8EB44A8768581511, 0xDB0C2E0D64F98FA7, 0x47B5481DBEFA4FA4]

/-- The next message schedule word from the last sixteen, newest first. -/
def shaW (w : List Word64) : Word64 :=
  let x := w.getD 14 0
  let y := w.getD 1 0
  let s0 := x.rotateRight 1 ^^^ x.rotateRight 8 ^^^ (x >>> 7)
  let s1 := y.rotateRight 19 ^^^ y.rotateRight 61 ^^^ (y >>> 6)
  s1 + w.getD 6 0 + s0 + w.getD 15 0

/-- The eighty schedule words, newest first. -/
def shaSchedule : Nat → List Word64 → List Word64
  | 0, w => w
  | n + 1, w => shaSchedule n (shaW w :: w)

/-- One round of the compression. -/
def shaRound (h : List Word64) (kw : Word64 × Word64) : List Word64 :=
  let a := h.getD 0 0
  let b := h.getD 1 0
  let c := h.getD 2 0
  let e := h.getD 4 0
  let s1 := e.rotateRight 14 ^^^ e.rotateRight 18 ^^^ e.rotateRight 41
  let ch := (e &&& h.getD 5 0) ^^^ (~~~e &&& h.getD 6 0)
  let t1 := h.getD 7 0 + s1 + ch + kw.1 + kw.2
  let s0 := a.rotateRight 28 ^^^ a.rotateRight 34 ^^^ a.rotateRight 39
  let mj := (a &&& b) ^^^ (a &&& c) ^^^ (b &&& c)
  [t1 + s0 + mj, a, b, c, h.getD 3 0 + t1, e, h.getD 5 0, h.getD 6 0]

/-- One block of 128 bytes. -/
def shaBlock (h : List Word64) (blk : List Nat) : List Word64 :=
  let w := (List.range 16).map (fun i => BitVec.ofNat 64 (beNat ((blk.drop (8 * i)).take 8)))
  let ws := (shaSchedule 64 w.reverse).reverse
  ((h.zip (((shaK0 ++ shaK1).zip ws).foldl shaRound h)).map (fun p => p.1 + p.2))

/-- The blocks of a padded message. -/
def shaBlocks : Nat → List Word64 → List Nat → List Word64
  | 0, h, _ => h
  | n + 1, h, m => shaBlocks n (shaBlock h (m.take 128)) (m.drop 128)

/-- SHA-384 of bytes, as its 48 bytes. -/
def sha384 (m : List Byte) : List Byte :=
  let len := m.length
  let pad := (240 - (len + 1) % 128) % 128
  let p := m.map BitVec.toNat ++ [0x80] ++ List.replicate (pad % 128) 0 ++ beBytes 16 (8 * len)
  let h := shaBlocks (p.length / 128) shaInit p
  ((h.take 6).flatMap (fun w => beBytes 8 w.toNat)).map (BitVec.ofNat 8)

/-- HMAC-SHA-384 under a key of at most 128 bytes. -/
def hmac384 (key m : List Byte) : List Byte :=
  let k := key ++ zeros (128 - key.length)
  sha384 (k.map (· ^^^ 0x5C) ++ sha384 (k.map (· ^^^ 0x36) ++ m))

/-- WK0: the counter-mode KDF of SP 800-108 over the device root key, label "LX64 WRAP", empty context, first 256 bits
(R399). -/
def deriveWk0 (root : List Byte) : BitVec 256 :=
  let label : List Byte := [0x4C, 0x58, 0x36, 0x34, 0x20, 0x57, 0x52, 0x41, 0x50]
  let m := [0, 0, 0, 1] ++ label ++ [0] ++ [0, 0, 1, 0]
  BitVec.ofNat 256 (leNat ((hmac384 root m).take 32))

/-- The prime of P-384. -/
def p384P : Nat := 2 ^ 384 - 2 ^ 128 - 2 ^ 96 + 2 ^ 32 - 1

/-- The order of P-384's base point. -/
def p384N : Nat := 0xFFFFFFFFFFFFFFFFFFFFFFFFFFFFFFFFFFFFFFFFFFFFFFFFC7634D81F4372DDF581A0DB248B0A77AECEC196ACCC52973

/-- P-384's base point. -/
def p384G : Nat × Nat :=
  (0xAA87CA22BE8B05378EB1C71EF320AD746E1D3B628BA79B9859F741E082542A385502F25DBF55296C3A545E3872760AB7,
   0x3617DE4A96262C6F5D9E98BF9292DC29F8F41DBD289A147CE9DA3113B5F0B8C00A60B1CE1D7E819D7A431D7C90EA0E5F)

/-- Modular power over n bits of the exponent. -/
def powMod (m : Nat) : Nat → Nat → Nat → Nat
  | 0, _, _ => 1 % m
  | n + 1, x, e => (if e % 2 = 1 then x else 1) * powMod m n (x * x % m) (e / 2) % m

/-- The inverse modulo a prime below 2^384. -/
def invMod (m x : Nat) : Nat := powMod m 384 (x % m) (m - 2)

/-- Point addition on P-384; none is the point at infinity. -/
def ecAdd (p q : Option (Nat × Nat)) : Option (Nat × Nat) :=
  match p, q with
  | none, q => q
  | p, none => p
  | some (x1, y1), some (x2, y2) =>
    if x1 = x2 ∧ (y1 + y2) % p384P = 0 then none
    else
      let l := if x1 = x2 then (3 * x1 * x1 + (p384P - 3)) * invMod p384P (2 * y1) % p384P
        else (y2 + p384P - y1) * invMod p384P (x2 + p384P - x1) % p384P
      let x3 := (l * l + 2 * p384P - x1 - x2) % p384P
      some (x3, (l * (x1 + p384P - x3) + (p384P - y1)) % p384P)

/-- Scalar multiplication over n bits. -/
def ecMul : Nat → Nat → Option (Nat × Nat) → Option (Nat × Nat)
  | 0, _, _ => none
  | n + 1, k, p => ecAdd (if k % 2 = 1 then p else none) (ecMul n (k / 2) (ecAdd p p))

/-- ECDSA P-384 verification of a 96-byte signature, r then s, under a key of x then y (R329, R405, R423). -/
def ecdsaVerify (pub digest sig : List Byte) : Bool :=
  let nat48 (l : List Byte) : Nat := beNat ((l.take 48).map BitVec.toNat)
  let r := nat48 sig
  let s := nat48 (sig.drop 48)
  let w := invMod p384N s
  let z := nat48 digest
  let pt := ecAdd (ecMul 384 (z * w % p384N) (some p384G))
    (ecMul 384 (r * w % p384N) (some (nat48 pub, nat48 (pub.drop 48))))
  decide (0 < r ∧ r < p384N ∧ 0 < s ∧ s < p384N) &&
    (match pt with
     | none => false
     | some (x, _) => decide (x % p384N = r))

/-- ECDSA P-384 signing with a nonce (R408), r then s, each little-endian as the report's layout is. -/
def ecdsaSign (key digest : List Byte) (nonce : Nat) : List Byte :=
  let k := nonce % (p384N - 1) + 1
  let d := beNat ((key.take 48).map BitVec.toNat)
  let z := beNat ((digest.take 48).map BitVec.toNat)
  let r := (match ecMul 384 k (some p384G) with
    | none => 0
    | some (x, _) => x % p384N)
  let s := invMod p384N k * (z + r * d) % p384N
  leBytes 48 r ++ leBytes 48 s

end Sys2Proof.Machine
end

