-- ==== Sys2Proof/Config.lean ====
section
/-! DEFINITION. What an implementation fixes and the values the spec leaves open: constants without a body, so that
no proof can lean on a value of them. -/

namespace Sys2Proof

/-- The n-th free value of w bits: a value the spec says is undefined, random or the implementation's own choice
(log entry 3, DESIGN CHOICE). `n` is the plain counter `Block.free`, which every use advances. -/
opaque Config.freeVal (w : Nat) (n : Nat) : BitVec w

/-- What the (72,64) SECDED code of a protected memory says of 64 data bits and 8 check bits: 0 good, 1 correctable,
2 uncorrectable. The spec names the code (R451) and not its matrix (log entry 9, DESIGN CHOICE). -/
opaque Config.secdedClass (data : BitVec 64) (check : BitVec 8) : Nat

/-- The syndrome that MP_ERR_INFO.SYND shows for a word (R451; the code's matrix is not in the spec, log entry 9, DESIGN CHOICE). -/
opaque Config.secdedSynd (data : BitVec 64) (check : BitVec 8) : BitVec 8

/-- The 64 bits that a correctable word reads as (R454; log entry 9, DESIGN CHOICE). -/
opaque Config.secdedData (data : BitVec 64) (check : BitVec 8) : BitVec 64

/-- Which resource a word of a protected memory belongs to: the entry, queue, key slot, channel or table that word
`index` of memory `mem` (of lane `lane`) holds; of MEM 8, word i of channel g of junction j as 256 j + 32 g + i. The spec gives no word layout of its memories (log entry 9, DESIGN CHOICE). -/
opaque Config.memWordOwner (mem lane index : Nat) : Nat

/-- Where a word of a protected memory lies in the resource that it belongs to: of MEM 5, which of the eight 64-bit words of the slot's key;
of MEM 6, which 64-bit word of the family tables (log entry 9, DESIGN CHOICE). -/
opaque Config.memWordPlace (mem lane index : Nat) : Nat

/-- The 4 KiB page IDENTIFY writes beyond the contents R117 lists: its byte layout is not in the spec (log entry 10, DESIGN CHOICE). -/
opaque Config.identifyByte (lanes cns index offset : Nat) (fact : Nat) : BitVec 8

/-- A product of the Tollgate loops that does not fit its 48 bits (R364): the spec does not say which value is then used
(log entry 14, DESIGN CHOICE). -/
opaque Config.wideProduct (p : Int) : Int

end Sys2Proof
end

