-- ==== Sys2Proof/Machine/State.lean ====
section
/-! DEFINITION. The state of the LX64 as plain data, the two reason types of an outcome, and the machine right after
reset. Every counter of ticks is compared with the full 64-bit SYS_MILEPOST (R41, R47). -/

namespace Sys2Proof.Machine

open Sys2Proof

/-- The faults of a step. -/
inductive Fault where
  /-- POWER_ON_RESET and BLOCK_RESET with a low pulse of 20 ns or longer and shorter than 100 ns: "Between these two
  lengths the outcome is not defined" (R18). Safe: the model stops where the block may do anything. -/
  | resetPulseUndefined
  deriving DecidableEq, Repr

/-- The refusals of a step. -/
inductive Refusal where
  /-- Raised by an arm of exec whose command has no meaning yet. Safe: the model stops. -/
  | notModelled (mnemonic : String)
  deriving DecidableEq, Repr

/-- The three builds the LX64 is licensed in (R3). -/
inductive Build where
  | lanes16 | lanes32 | lanes64
  deriving DecidableEq, Repr

/-- CFLASH (R410): words by number; a word of the array, a seal or the protection row that is not listed reads all ones
(erased), one of the identity row reads zero (blank). `badProt`: a protection command was abandoned (R420). -/
structure NonVol where
  arr : Tab Word64
  seals : Tab Word64
  row : Tab Word64
  prot : Tab Word64
  badProt : Bool
  deriving DecidableEq, Repr

/-- The CFLASH controller (R415, R416): the step of the sequence, what it has gathered, and the running command. -/
structure Cf where
  step : Nat
  cmd : Nat
  addr : Nat
  busy : Bool
  data : Word64
  deriving DecidableEq, Repr

/-- Who issued a fabric burst (R332, R333, R407). -/
inductive Owner where
  | fetch (p part : Nat)
  | comp (cq slot : Nat)
  | admin (p part : Nat)
  | general (j g move pass dst ser : Nat) (dfix : Bool)
  | job (n : Nat) (inbound : Bool) (part : Nat)
  | att (part : Nat)
  deriving DecidableEq, Repr

/-- A burst of a fabric master port (R21 to R26): waiting to be put while `id` is none, outstanding after. `ini` is the
initiator of R393, `put` the flits put, `got` the beats of a read returned, `data` the beats carried. `dropped` marks a
burst of a channel disabled or discarded since: what returns for it is discarded (R353). `denied` marks one that Gatehouse denied as its
first flit was to be put (R391). -/
structure Burst where
  port : Nat
  write : Bool
  owner : Owner
  ini : Nat
  prio : Nat
  addr : Nat
  beats : Nat
  sec : Bool
  id : Option Nat
  put : Nat
  got : Nat
  bad : Bool
  timeout : Bool
  dropped : Bool
  denied : Bool
  data : List Beat
  bmask : List (BitVec 64)
  deriving DecidableEq, Repr

/-- An id quarantined after a response timeout (R26), and the beats of its return still to come. -/
structure Quar where
  port : Nat
  write : Bool
  id : Nat
  ini : Nat
  beats : Nat
  deriving DecidableEq, Repr

/-- A read of the CFLASH window that waits out a running operation (R414): its window offset, whether it is of 8 B, and the errors
that it finds. -/
structure WindowRead where
  off : Nat
  size8 : Bool
  corr : Nat
  unc : Bool
  deriving DecidableEq, Repr

/-- An answer of the register slave port (R27): a read return, or a write acknowledge. `held` is a window read whose data is still
to come. -/
structure Answer where
  read : Bool
  data : Word64
  st : BitVec 3
  held : Option WindowRead
  deriving DecidableEq, Repr

/-- The states of an interrupt source (R379). -/
inductive SrcState where
  | idle | accum | pending | active
  deriving DecidableEq, Repr

/-- An interrupt source: its level as last sensed, its state, its moderation count, the count that ends the
moderation as it stood at the entry into ACCUM (R387), and the timer (R380), its claimer, and the responses counted since the claim
(R383). -/
structure Src where
  level : Bool
  st : SrcState
  count : Nat
  limit : Nat
  due : Nat
  owner : Nat
  since : Nat
  deriving DecidableEq, Repr

/-- The states of a key slot (R394). -/
inductive KeyState where
  | empty | live | void
  deriving DecidableEq, Repr

/-- A key slot (R394): the 512-bit key, data key in the low half, its owner, EXPORTABLE, and whether its key still
awaits the overwrite of a zeroise (R402). -/
structure KeySlot where
  st : KeyState
  key : BitVec 512
  owner : Nat
  exportable : Bool
  wipe : Bool
  deriving DecidableEq, Repr

/-- An entry of the violation log (R393). -/
structure Violation where
  write : Bool
  master : Bool
  port : Nat
  ini : Nat
  sec : Bool
  addr : Nat
  tick : Word
  rep : Nat
  deriving DecidableEq, Repr

/-- A report in progress (R407): how many of its write bursts have not returned, and whether one had a bus error. -/
structure Att where
  left : Nat
  bad : Bool
  deriving DecidableEq, Repr

/-- A chain open in a submission queue (R74 to R79). -/
structure Chain where
  cmd : Nat
  cid : Nat
  deadline : Nat
  slot : Nat
  members : Nat
  due : Nat
  deriving DecidableEq, Repr

/-- A completion before it is accepted: the fields of R81 that its maker knows. `cmds` are the commands that its
acceptance makes no longer outstanding (R61, R441), `lane` the lane it comes from, none for a pavilion. -/
structure Compl where
  cmds : List Nat
  lane : Option Nat
  sq : Nat
  cid : Nat
  status : Nat
  detail : Nat
  event : Bool
  retry : Nat
  result : Word64
  maxCorr : Nat
  aux : Word64
  pools : List Nat
  deriving DecidableEq, Repr

/-- A submission queue context (R64, R108). Keys 0 to 4095 are the queues by QID, 4096 + p the admin queue of pavilion p.
`fetch` is the slot the next fetch starts at. `short` is the number of slots the entry there is known to need (R66).
`full` names the lane whose full pool or held completions keep the queue from being fetched (R201, R89); `held` says that
an unrouted entry's completion waits for its ring (R197). -/
structure Sq where
  live : Bool
  deleting : Bool
  stopped : Bool
  owner : Nat
  k : Nat
  base : Nat
  head : Nat
  tail : Nat
  fetch : Nat
  cq : Nat
  key : Nat
  service : Bool
  lane : Nat
  cls : Nat
  chain : Option Chain
  short : Nat
  seen : Nat
  full : Option Nat
  held : Bool
  deriving DecidableEq, Repr

/-- A completion queue context (R83, R84). Keys 0 to 2047 by CQID, 2048 + p the admin one of pavilion p. `tail` counts
entries whose write response has returned, `issue` is the slot of the next write, `acked` the slots returned out of
order, `phase` the phase of the next write, `wait` the completions offered that are neither accepted nor in a holding
area, `inFlight` those written whose responses are out. -/
structure Cq where
  live : Bool
  broken : Bool
  owner : Nat
  k : Nat
  base : Nat
  head : Nat
  tail : Nat
  issue : Nat
  phase : Bool
  acked : List Nat
  vector : Nat
  wait : List Compl
  inFlight : List (Nat × Compl)
  deriving DecidableEq, Repr

/-- A member of a stripe (R116): its unit, its next page and its last page, and whether an APPEND holds its page
between assignment and staging (R153). -/
structure Member where
  lane : Nat
  die : Nat
  unit : Nat
  next : Nat
  last : Nat
  taken : Bool
  deriving DecidableEq, Repr

/-- A stripe (R116, R151): its members and each member lane's count of pages not yet reserved. `closing` holds the lanes
that have not yet taken its close, and `opening` is the model's own number of its opening. -/
structure Stripe where
  isOpen : Bool
  owner : Nat
  members : List Member
  counts : Tab Nat
  closing : List Nat
  closer : Option Nat
  opening : Nat
  deriving DecidableEq, Repr

/-- A fetch of a pavilion (R68): the queue, the first slot, LEN once known, the slots landed so far, and how many bursts are still
out. -/
structure Fetch where
  sq : Nat
  slot : Nat
  len : Nat
  beats : List (Nat × Beat)
  waiting : Nat
  bad : Bool
  deriving DecidableEq, Repr

/-- An outcome that a member of an aborted command has had (R120, R121). -/
structure AbortJob where
  cmd : Nat
  left : List Nat
  aborted : Nat
  late : Nat
  deriving DecidableEq, Repr

/-- The admin executor of a pavilion (R105): the command it runs, its entry's instructions, the index of the current one
and what it waits for. `data` gathers the bytes of a transfer, `left` its bursts, `done` the finished completion. -/
structure Exec where
  cmd : Nat
  instrs : List (List Byte)
  idx : Nat
  started : Bool
  left : Nat
  bad : Bool
  data : List (Nat × Beat)
  wrapKey : Option (BitVec 256)
  abort : Option AbortJob
  status : Nat
  detail : Nat
  aux : Word64
  deriving DecidableEq, Repr

/-- A pavilion: its fetch, its turn in the round robin (R68), its admin executor and the admin entries waiting for it
(each a command and its instructions), and whether it is being reset (R443). -/
structure Pav where
  fetch : Option Fetch
  last : Nat
  adminTurn : Bool
  exec : Option Exec
  queue : List (Nat × List (List Byte))
  errRaised : Bool
  resetting : Bool
  deriving DecidableEq, Repr

/-- A command (R61): its queue, its due tick once it has one (R46, R76; none also for DEADLINE 0xFF_FFFF), its member
entries in chain order, whether it is armed, and whether it has been discarded (R437). -/
structure Cmd where
  sq : Nat
  cid : Nat
  deadline : Nat
  due : Option Nat
  armed : Bool
  entries : List Nat
  discarded : Bool
  offered : Bool
  deriving DecidableEq, Repr

/-- Where an instruction of an entry stands: not yet released (R172), pooled and to be taken up, waiting on a hazard
(R222), being carried out, with its status known and the responses of its writes still out, or finished (R174). -/
inductive Phase where
  | held | pooled | waiting | active | ending | finished
  deriving DecidableEq, Repr

/-- An instruction of a work entry: its bytes, its phase and place in pool order, and the fields of R80 it returns.
`left` counts the passes, pages or dies still to finish; `confirmed` is the confirm of R120, `barred` that a suspension for it was
refused or deferred (R218); `epoch` is
SYS_EPOCH when it was pooled, all ones while VALID is clear, and `band` its die's band then (R474); `place` holds the member an APPEND
was given; `recs` the unit records fetched for it, by 65,536 × die + unit, with PBAND and PEPOCH where VALID (R298); `badUnits` the units
whose earlier-pooled ERASE completed other than OK (R147); `opening` the opening of its stripe that an APPEND was routed in. -/
structure InstrRec where
  bytes : List Byte
  phase : Phase
  order : Nat
  status : Option (Nat × Nat)
  retry : Nat
  maxCorr : Nat
  result : Option Word64
  aux : Word64
  left : Nat
  confirmed : Bool
  barred : Bool
  started : Nat
  epoch : Word
  band : Nat
  place : Option Member
  recs : List (Nat × Option (Nat × Word))
  badUnits : List (Nat × Nat)
  opening : Nat
  deriving DecidableEq, Repr

/-- A work entry that has passed its checks (R91): its command, its lane (none: unrouted, R171), its queue with the queue's pavilion and
key slot, which it keeps where it outlives the queue (R437, R443), and its instructions. `wrrTaken` says that a service turn has taken
it (R209). -/
structure Entry where
  cmd : Nat
  lane : Option Nat
  sq : Nat
  owner : Nat
  key : Nat
  instrs : List InstrRec
  armed : Bool
  pooled : Bool
  done : Bool
  wrrTaken : Bool
  deriving DecidableEq, Repr

/-- What a Causeway job of a lane-bound channel serves (R332). `cw` is a codeword's number, `key` 65,536 × die + unit. Host data
comes in one job a codeword, each into the frame of its codeword (R336). -/
inductive JobUse where
  | hostIn (e i cw : Nat)
  | rawIn (e i : Nat)
  | stageRead (cw : Nat)
  | stageWrite (e i cw : Nat)
  | recordFetch (e i key : Nat)
  | recordWrite (key : Nat)
  | hostOut (e i cw : Nat) (last : Bool)
  | rawOut (e i : Nat)
  deriving DecidableEq, Repr

/-- A job of a lane-bound channel (R336): a contiguous transfer, its beats, and what has come back of it. -/
structure Job where
  use : JobUse
  addr : Nat
  len : Nat
  sec : Bool
  data : List Byte
  started : Bool
  left : Nat
  got : List (Nat × Beat)
  bad : Bool
  deriving DecidableEq, Repr

/-- The steps of a codeword (R260, R268, R307): of one being written, `encode` while it has no frame and `loading` while its data comes
into its frame; of one read from staging, `stagingQueued` while it has none. -/
inductive CwStage where
  | loading | stagingQueued | record | issue | array | transfer | hard | ladder | softSense | softQueued | softDecode | stagingRead
  | encode | stagingWrite | staged | hostWrite | done
  deriving DecidableEq, Repr

/-- A codeword being read or written (R260, R268). `k` is its index in layout order, `raw` its bytes as they stand on
the die, `out` its bytes as decoded or before randomising. `step` is the ladder step, `best` the fewest unsatisfied
checks and the offsets they were read at (R309). `recOk` says that its unit record was VALID, `epoch` is SYS_EPOCH when its first
array read was placed (R474), and `kept` that a source of a RELOCATE has decoded and keeps its frame until it is written (R277). -/
structure Cw where
  lane : Nat
  e : Nat
  i : Nat
  k : Nat
  pa : Nat
  stage : CwStage
  raw : List Byte
  out : List Byte
  soft : List (List Byte)
  corr : Nat
  retry : Nat
  step : Nat
  best : Option (Nat × List Int)
  offs : List Int
  ladder : Nat
  recOk : Bool
  pband : Nat
  pepoch : Word
  rband : Nat
  aband : Option Nat
  looked : Bool
  slot : Nat
  limitHits : Nat
  sense : Nat
  due : Option Nat
  arrival : Nat
  epoch : Word
  status : Option (Nat × Nat)
  kept : Bool
  deriving DecidableEq, Repr

/-- What a placed micro-routine is for. -/
inductive Purpose where
  | readIssue (cws : List Nat)
  | readOut (cws : List Nat)
  | pass (e i unit wl num : Nat)
  | eraseIssue (e i : Nat)
  | verifyIssue (e i page : Nat)
  | verifyOut (e i page : Nat)
  | suspendOp
  | resumeOp
  | poll
  | status (e i : Nat)
  | opStatus
  | featSet (e i : Nat)
  | featGet (e i : Nat)
  | lunReset
  | rawCycle (e i rec : Nat)
  deriving DecidableEq, Repr

/-- A micro-routine to be placed or placed (R205, R318): its entry kind, its die and registers at entry (R314), its due
tick and order (R207), the FSETs that precede it (R304, R306), what it is charged (R210; none: nothing), its
declared length (R320), the cycles that its FSETs have already spent (R326), and the tick of the frame in which it last met a token
stall (R210). -/
structure Routine where
  kind : Nat
  die : Nat
  row : Word
  col : Word
  mask : Nat
  bytes : Word
  ncw : Nat
  m14 : Word
  feats : List (Nat × Word)
  due : Option Nat
  order : Nat
  service : Option Nat
  charge : Option Nat
  below : Bool
  purpose : Purpose
  len : Nat
  spent : Nat
  stalled : Option Nat
  deriving DecidableEq, Repr

/-- An entry of the cycle queue (R313): one pad operation or one timed wait. -/
inductive CycEntry where
  | ce (ce lun : Nat)
  | ceOff
  | cmd (b : Byte) (confirm : Bool)
  | adr (bs : List Byte)
  | wait (cycles : Nat)
  | din (bytes start : Nat)
  | dout (bytes start : Nat)
  | pin (w : Word)
  deriving DecidableEq, Repr

/-- The sequencer while it runs a micro-routine (R312 to R317): the routine, the pc, Z, M0 to M15, the micro-stack, the
cycle queue, the chip enable held, the TMASK left and how long it has lasted, the routine's frames as a data-out fills them, the bytes last sent on the DQ bus and
on CA (R231), and what it has spent of its declared cycles. -/
structure Seq where
  routine : Routine
  pc : Nat
  z : Bool
  m : Tab Word
  stack : List Nat
  queue : List CycEntry
  ce : Option (Nat × Nat)
  tmask : Nat
  tmaskAge : Nat
  dataIn : List Byte
  sent : List Byte
  ca : List Byte
  spent : Nat
  confirmed : Bool
  pageLoad : Bool
  deriving DecidableEq, Repr

/-- The array operations a die runs (R213). -/
inductive OpKind where
  | read | pass (n : Nat) | erase
  deriving DecidableEq, Repr

/-- An array operation on a die: what it is, what it is for, its units, the tick of its confirm or last resume, the
ticks it ran before (R217), and its suspensions so far. -/
structure DieOp where
  kind : OpKind
  purpose : Purpose
  unit : Nat
  page : Nat
  mask : Nat
  since : Nat
  ran : Nat
  susps : Nat
  ready : Bool
  due : Option Nat
  order : Nat
  service : Option Nat
  deriving DecidableEq, Repr

/-- A die of a lane. `op` runs, `susp` is suspended since `suspAt`, `suspending` says that the suspend command has been
issued and `noSusp` that an operation is no longer to be suspended (R241). `temp` is the die's own reading and its tick
(R244); `banded` says that its band has been set from a temperature since the start (R289). `feats` holds the feature values
the lane last wrote (R304, R306), `delays` and `eyes` its trained delays (R246), `retrain` the tick a held-back retraining began
(R249), `waitSusp` the tick of a deferred suspension (R218) and `consec` its consecutive expiries (R243). -/
structure Die where
  op : Option DieOp
  susp : Option DieOp
  suspAt : Nat
  suspending : Bool
  noSusp : Bool
  temp : Option Int
  tempAt : Nat
  banded : Bool
  feats : Tab Word
  delays : Tab Nat
  eyes : Tab Nat
  retrain : Option Nat
  training : Bool
  waitSusp : Option Nat
  consec : Nat
  needReset : Bool
  raw : Bool
  ps2Band : Nat
  deriving DecidableEq, Repr

/-- An entry of the image that a start, a training, a calibration or a temperature read of a lane ran (R245, R246, R244, R318): its die, none
for the reset of a chip enable, the chip enable, the entry kind, M14 (from `arg` to `last` where the entry is run for each step), and at
entry the row address and M11; `result` holds M0 and M1 as END leaves them, for the kinds that return a value (R314). -/
structure Entered where
  die : Option Nat
  ce : Nat
  kind : Nat
  arg : Nat
  last : Nat
  row : Word
  bytes : Word
  result : Word64
  deriving DecidableEq, Repr

/-- A page held in staging or reserved for it (R143, R285): its codewords by number. `gone` says that a pooled ERASE has released it,
and that only the passes that use it keep it (R156). -/
structure StPage where
  die : Nat
  unit : Nat
  page : Nat
  cws : List Nat
  wear : Nat
  staged : Bool
  gone : Bool
  deriving DecidableEq, Repr

/-- An open unit (R143): the page it was opened at, its next page, FINAL, whether it has failed (R148) and the PA of the first page
of the failing pass's wordline, the trim set of each wordline whose first pass was placed (R306), and the wordlines whose first
pass is confirmed (R432). -/
structure OpenUnit where
  die : Nat
  unit : Nat
  first : Nat
  next : Nat
  final : Bool
  failed : Bool
  failAt : Nat
  trims : Tab Nat
  conf : List Nat
  deriving DecidableEq, Repr

/-- A pass made possible (R250) and not yet reported: the unit of its lowest plane, its planes, the wordline, its number, the
instruction it belongs to (R207), its WEAR, whether it has started, and, while it is issued, the codewords in frames and those still to
be read back (R281). -/
structure Pass where
  die : Nat
  unit : Nat
  mask : Nat
  wl : Nat
  num : Nat
  e : Nat
  i : Nat
  wear : Nat
  stage : Nat
  frames : List Nat
  waits : List Nat
  deriving DecidableEq, Repr

/-- A lane. `cs` is the control store with its parity bit (R315), `slot` the image slot it was loaded from, `ent` the entry table, `pool` the entries in pool
order, `arrive` those routed and not yet pooled, `todo` the micro-routines not yet placed, `frame` those placed,
`next` those built for the next frame, `used` the cycles placed with those carried in, `budget` and `nextBudget` the budgets of the two
frames (R52), `carried` the cycles that a slip carried in (R55), `stallFrame` and `nextStall` a token stall met in either, `tickDue` a
tick that waits for the running routine's end (R54), `lateCarry` the cycles unfinished at its boundary, `sca` whether the lane started
with the separate command/address bus (R231), `steps` the entries that the lane's last start ran, and those of its dies' trainings,
calibrations and temperature reads since, the last of each die. `eraseAt` is, by 65,536 × die + unit, the pool order of the unit's last
ERASE (R297). -/
structure Lane where
  cs : Tab (BitVec 33)
  words : Nat
  ent : Tab Word64
  loadPend : Bool
  slot : Nat
  arrive : List Nat
  pool : List Nat
  holding : List (Nat × Compl)
  todo : List Routine
  frame : List Routine
  next : List Routine
  used : Nat
  nextUsed : Nat
  budget : Nat
  nextBudget : Nat
  carried : Nat
  built : Bool
  stallFrame : Bool
  nextStall : Bool
  tickDue : Bool
  lateCarry : Nat
  seq : Option Seq
  save : Tab Word
  saveValid : Bool
  wakeTick : Nat
  idle : Nat
  ps1 : Bool
  waymarks : Tab Word
  wrrCredit : Tab Nat
  wrrClass : Nat
  wrrOrder : List Nat
  opens : List OpenUnit
  pages : List StPage
  passes : List Pass
  inJobs : List Job
  outJobs : List Job
  aborts : List (Nat × Nat)
  closes : List Nat
  events : List (Nat × Bool)
  stride : Nat
  recDies : Nat
  frameSz : Nat
  frames : Nat
  heldFrames : List Nat
  slipRaised : Bool
  sca : Bool
  steps : List Entered
  eraseAt : Tab Nat
  deriving DecidableEq, Repr

/-- A general Causeway channel's running state (R341 to R347): STATE and PC, the live pointers and count, the count that DEF
uses, the loop counter (0 while idle) and the LOOP it counts for, whether a MOVE has loaded its count, the number of the
MOVE in progress, the MOVEs already counted as bad, and whether a LOAD set while the clocks are gated waits for its handover (R346,
R446). -/
structure Chan where
  run : Nat
  pc : Nat
  src : Nat
  dst : Nat
  count : Nat
  defCount : Nat
  left : Nat
  loopAt : Nat
  moving : Bool
  ser : Nat
  bad : List Nat
  loadWait : Bool
  deriving DecidableEq, Repr

/-- A codeword's soft input (R275): the derandomised hard plane, the low and the high bit of the reliability r of each bit as byte
planes, and the magnitudes L0 to L3 that JN_SOFT_LLR gives them. -/
structure SoftIn where
  hard : List Byte
  relLow : List Byte
  relHigh : List Byte
  mags : List Nat
  deriving DecidableEq, Repr

/-- A junction: the codewords at its soft arbiter (R276), what each of its four soft decoders works on and the soft input of it (R275),
and its bucket with 16 fraction bits (R358). -/
structure Junction where
  soft : List Nat
  dec : Tab Nat
  input : Tab SoftIn
  bucket : Nat
  deriving DecidableEq, Repr

/-- Tollgate (R356 to R373): x, v, a of the profile, the integrator, the measurements in use and before it, tacc, thc in 10 mA,
the output in force and the one computed for the next tick boundary, the sample of the running period and how many came,
the charge of each of the last periods (the running one first, 16 fraction bits), and the capacity, floor and safe rate in
force (R366). `due` says that a period boundary's work is still to do, `thermal` that its thermal loop is. -/
structure Toll where
  x : Int
  v : Int
  a : Int
  integ : Int
  meas : Int
  measPrev : Int
  tacc : Int
  thc : Int
  u : Int
  uNext : Option Int
  sample : Option (BitVec 16)
  samples : Nat
  ended : Option (BitVec 16)
  charged : List Nat
  div : Nat
  due : Bool
  thermal : Bool
  bcap : Nat
  bfloor : Nat
  safe : Int
  deriving DecidableEq, Repr

/-- A word planted by the test mode of the memory protection (R461). -/
structure Planted where
  mem : Nat
  lane : Nat
  index : Nat
  data : Word64
  check : BitVec 8
  deriving DecidableEq, Repr

/-- Where a scrubber stands (R457, R460): the next word it reads, by memory and index, and the tick its lap began at. -/
structure ScrubPos where
  mem : Nat
  index : Nat
  start : Nat
  deriving DecidableEq, Repr

/-- Everything of the block but CFLASH and the queue of commands. `regs` holds the register words by address: a word that
is not listed reads as its reset value. Per-lane tables are keyed by lane, dies by 64 × lane + die, general channels by
8 × junction + channel. `free` counts the free values used; it is the model's own.
`maps` holds the die-map words as each lane's last start took them (R229). `rstPin` says that a reset input is low, `porPin` that it
is aon_rst_n, `brownHold` that VDD_CORE holds the block in reset (R431), `warnWhole` that no reset has come since the supply warning in
force began (R430). `tblBad` holds the families whose table or recovery set came from CFLASH with a word
that could not be corrected (R413), `famDirty` those whose table has been written through the window since its recovery set was
loaded (R465). -/
structure Block where
  build : Build
  inReset : Bool
  rstPin : Bool
  porPin : Bool
  brownHold : Bool
  lxReady : Bool
  restoring : Bool
  ticking : Bool
  milepost : BitVec 64
  mileLatch : Word
  newPeriod : Option (BitVec 6)
  boardAt : Option Nat
  sensors : List (Option Int)
  comp105 : List Bool
  regs : Tab Word
  aonImage : Option (Tab Word)
  tbl : Tab Word
  tblBad : List Nat
  famDirty : List Nat
  rset : Tab Word
  rowSnap : Tab Word64
  digests : Tab (BitVec 384)
  wk : Tab (BitVec 256)
  keys : Tab KeySlot
  gens : Nat
  vlog : List Violation
  att : Option Att
  cf : Cf
  credits : Tab Nat
  bursts : List Burst
  quar : List Quar
  rr : Tab Nat
  answers : List Answer
  lastAnswer : Option Answer
  srcs : Tab Src
  idleIn : BitVec 32
  sleepIn : BitVec 32
  wake : BitVec 32
  sqs : Tab Sq
  cqs : Tab Cq
  pavs : Tab Pav
  lastPav : Nat
  stripes : Tab Stripe
  cmds : Tab Cmd
  entries : Tab Entry
  nextId : Nat
  order : Nat
  lanes : Tab Lane
  dies : Tab Die
  maps : Tab Word
  cws : Tab Cw
  chans : Tab Chan
  juncs : Tab Junction
  toll : Toll
  planted : List Planted
  lapLen : Tab Nat
  scrub : Tab ScrubPos
  atRisk : Tab Nat
  warnHeld : List Nat
  warnWhole : Bool
  free : Nat
  deriving DecidableEq, Repr

/-- The machine: CFLASH, the block, and the commands that wait, first in, first out. -/
structure State where
  nv : NonVol
  blk : Block
  pending : List Instr
  deriving DecidableEq, Repr

/-- A blank device (log entry 4, DESIGN CHOICE). -/
def NonVol.blank : NonVol := ⟨[], [], [], [], false⟩

/-- Tollgate at reset: TG_OUT 0x01F4_0000, TG_TH_OUT.THC 0x0320, the capacity, floor and safe rate of the registers' reset
values, everything else zero. -/
def Toll.reset : Toll where
  x := 0
  v := 0
  a := 0
  integ := 0
  meas := 0
  measPrev := 0
  tacc := 0x3200000
  thc := 0x320
  u := 0x1F40000
  uNext := none
  sample := none
  samples := 0
  ended := none
  charged := []
  div := 0
  due := false
  thermal := false
  bcap := 0x2000
  bfloor := 0x100
  safe := 0x1F40000

/-- The block as a power-on reset leaves it while aon_rst_n is still low (R18, R444). -/
def Block.inReset0 (bd : Build) : Block where
  build := bd
  inReset := true
  rstPin := true
  porPin := true
  brownHold := false
  lxReady := false
  restoring := false
  ticking := true
  milepost := 0
  mileLatch := 0
  newPeriod := none
  boardAt := none
  sensors := []
  comp105 := [false, false, false, false]
  regs := []
  aonImage := none
  tbl := []
  tblBad := []
  famDirty := []
  rset := []
  rowSnap := []
  digests := []
  wk := []
  keys := []
  gens := 0
  vlog := []
  att := none
  cf := ⟨0, 0, 0, false, 0⟩
  credits := []
  bursts := []
  quar := []
  rr := []
  answers := []
  lastAnswer := none
  srcs := []
  idleIn := 0
  sleepIn := 0
  wake := 0
  sqs := []
  cqs := []
  pavs := []
  lastPav := 0
  stripes := []
  cmds := []
  entries := []
  nextId := 0
  order := 0
  lanes := []
  dies := []
  maps := []
  cws := []
  chans := []
  juncs := []
  toll := Toll.reset
  planted := []
  lapLen := []
  scrub := []
  atRisk := []
  warnHeld := []
  warnWhole := false
  free := 0

/-- The machine right after reset: the 64-lane build, a blank CFLASH, aon_rst_n just deasserted. Gatehouse has read the identity row
(lifecycle 0, ROW_OK), the family tables of a blank CFLASH read as erased, lx_ready is low, and every lane's control-store load is
still to run (R18, R19, R330, R406; log entries 1 and 4, DESIGN CHOICE). -/
def State.reset : State :=
  ⟨NonVol.blank, { Block.inReset0 .lanes64 with inReset := false, rstPin := false, porPin := false, regs := [(0x10000, 4)] }, []⟩

end Sys2Proof.Machine
end

