-- ==== Sys2Proof/Machine/Regs.lean ====
section
/-! DEFINITION. The register window (R462): where each register word lies, which of its bits each access code covers,
its reset value (R14), and reading and writing it in the block. Fields the block itself keeps (RO, RC) are stored in
the word; fields that are computed at a read are in Machine/Slave.lean. -/

namespace Sys2Proof.Machine

open Sys2Proof

/-- A register word, or `cnt` of them `stride` bytes apart: the bits of access RW, W1C and RC (R14), and the reset
value. Every other bit ignores a write. -/
structure RegDesc where
  off : Nat
  cnt : Nat
  stride : Nat
  rw : Word
  w1c : Word
  rc : Word
  rst : Word
  deriving DecidableEq, Repr

/-- The registers of the SYS, with MP, page (R462). -/
def sysRegs0 : List RegDesc := [
  ⟨0, 1, 4, 0, 0, 0, 0x840⟩, -- SYS_BUILD
  ⟨4, 1, 4, 0, 0, 0, 0⟩, -- SYS_STATUS
  ⟨8, 1, 4, 0xF, 0x100, 0, 0⟩, -- SYS_TBL_SEL
  ⟨0x100, 1, 4, 0xFFFF, 0, 0, 0x40⟩, -- SYS_FAB_CTRL
  ⟨0x108, 1, 4, 0, 0xFF, 0xFFFF00, 0⟩, -- SYS_FAB_ERR
  ⟨0x110, 1, 4, 0xFFFFFFFF, 0, 0, 0⟩, -- SYS_EPOCH
  ⟨0x114, 1, 4, 0, 0, 0, 0⟩, -- SYS_EPOCH_STATUS
  ⟨0x118, 1, 4, 0xFFFF00FF, 0, 0, 0xF50000⟩, -- SYS_BOARD_TEMP
  ⟨0x120, 1, 4, 0, 0x3FD7, 0, 8⟩, -- SYS_INPUT_STATUS
  ⟨0x200, 1, 4, 0xFF003F, 0x200, 0, 0x100004⟩, -- SYS_TICK_CTRL
  ⟨0x208, 1, 4, 0, 0, 0, 0⟩, -- SYS_MILEPOST_LO
  ⟨0x20C, 1, 4, 0, 0, 0, 0⟩, -- SYS_MILEPOST_HI
  ⟨0x300, 1, 4, 0xFFE0FFFF, 0, 0, 0⟩, -- SYS_STAGE
  ⟨0x304, 1, 4, 0xFFFF, 0x80000000, 0, 0⟩, -- SYS_STAGE hi
  ⟨0x400, 1, 4, 0xFFFFFFFF, 0, 0, 0x2D1E0F00⟩, -- SYS_TBAND0
  ⟨0x404, 1, 4, 0xFFFFFFF, 0, 0, 0x25A4B3C⟩, -- SYS_TBAND1
  ⟨0x408, 1, 4, 0x73F, 0, 0, 0x200⟩, -- SYS_TEMP_CFG
  ⟨0x410, 1, 4, 0xFFFFFF, 0, 0, 0x18⟩, -- SYS_ABAND1
  ⟨0x414, 1, 4, 0xFFFFFF, 0, 0, 0xA8⟩, -- SYS_ABAND2
  ⟨0x418, 1, 4, 0xFFFFFF, 0, 0, 0x2D0⟩, -- SYS_ABAND3
  ⟨0x41C, 1, 4, 0xFFFFFF, 0, 0, 0x870⟩, -- SYS_ABAND4
  ⟨0x420, 1, 4, 0xFFFFFF, 0, 0, 0x2238⟩, -- SYS_ABAND5
  ⟨0x424, 1, 4, 0xFFFFFF, 0, 0, 0xAB18⟩, -- SYS_ABAND6
  ⟨0x428, 1, 4, 0xFFFFFF, 0, 0, 0x20148⟩, -- SYS_ABAND7
  ⟨0x430, 1, 4, 0xFFE0FFFF, 0, 0, 0⟩, -- SYS_UREC
  ⟨0x434, 1, 4, 0xFFFF, 0x80000000, 0, 0⟩, -- SYS_UREC hi
  ⟨0x440, 1, 4, 0xFFFFFFFF, 0, 0, 0x22382238⟩, -- SYS_REFRESH0
  ⟨0x444, 1, 4, 0xFFFFFFFF, 0, 0, 0x88E111C⟩, -- SYS_REFRESH1
  ⟨0x448, 1, 4, 0xFFFFFFFF, 0, 0, 0x2240447⟩, -- SYS_REFRESH2
  ⟨0x44C, 1, 4, 0xFFFFFFFF, 0, 0, 0x890112⟩, -- SYS_REFRESH3
  ⟨0x450, 1, 4, 0, 0, 0, 0⟩, -- SYS_REFRESH_STAT
  ⟨0x454, 1, 4, 0, 0, 0, 0⟩, -- SYS_REFRESH_BAND
  ⟨0x800, 1, 4, 0, 7, 0, 0⟩, -- MP_EVT
  ⟨0x804, 1, 4, 7, 0, 0, 0⟩, -- MP_EVT_EN
  ⟨0x808, 1, 4, 0xFFFFFFFF, 0, 0, 0xFFFF4100⟩, -- MP_SCRUB_CFG
  ⟨0x80C, 1, 4, 0, 0, 0xFFFFFFFF, 0⟩, -- MP_STAT
  ⟨0x810, 1, 4, 0, 0x800, 0, 0⟩, -- MP_ERR_INFO
  ⟨0x814, 1, 4, 0, 0, 0, 0⟩, -- MP_ERR_ADDR
  ⟨0x818, 1, 4, 0, 0, 0, 0⟩, -- MP_LAP_BLOCK
  ⟨0x81C, 1, 4, 0x3F, 0, 0, 0⟩] -- MP_LAP_SEL

/-- The registers of the SYS, with MP, page, continued (R462). -/
def sysRegs1 : List RegDesc := [
  ⟨0x820, 1, 4, 0, 0, 0, 0⟩, -- MP_LAP_LANE
  ⟨0x828, 1, 4, 1, 0, 0, 0⟩, -- MP_TEST_CTRL
  ⟨0x82C, 1, 4, 0xFFFFF3FF, 0, 0, 0⟩, -- MP_TEST_SEL
  ⟨0x830, 1, 4, 0xFFFFFFFF, 0, 0, 0⟩, -- MP_TEST_DATA
  ⟨0x834, 1, 4, 0xFFFFFFFF, 0, 0, 0⟩, -- MP_TEST_DATA hi
  ⟨0x838, 1, 4, 0xFF, 0, 0, 0⟩] -- MP_TEST_CHECK

/-- The registers of the SYS, with MP, page. -/
def sysRegs : List RegDesc := sysRegs0 ++ sysRegs1

/-- The registers of the GH block (R462). -/
def ghRegs : List RegDesc := [
  ⟨0, 1, 4, 0, 0, 0, 0⟩, -- GH_STATUS
  ⟨0x100, 32, 4, 0xFFFFFFFF, 0, 0, 0xFFFFFFFF⟩, -- GH_PAGE_WORLD
  ⟨0x200, 1, 4, 3, 0, 0, 0⟩, -- GH_RGN_CTRL
  ⟨0x300, 1, 4, 0, 0, 0, 0⟩, -- GH_VLOG_INFO
  ⟨0x308, 1, 4, 0, 0, 0, 0⟩, -- GH_VLOG_ADDR
  ⟨0x30C, 1, 4, 0, 0, 0, 0⟩, -- GH_VLOG_ADDR hi
  ⟨0x310, 1, 4, 0, 0, 0, 0⟩, -- GH_VLOG_TICK
  ⟨0x314, 1, 4, 0, 0, 0xFFFF0000, 0⟩, -- GH_VLOG_CTRL
  ⟨0x318, 1, 4, 0, 0, 0xFFFFFFFF, 0⟩, -- GH_VLOG_TOTAL
  ⟨0x400, 1, 4, 1, 0, 0, 0⟩, -- GH_KEY_CTRL
  ⟨0x404, 1, 4, 0, 0, 0, 0⟩, -- GH_KEY_STAT
  ⟨0x408, 1, 4, 0xFFF, 0, 0, 0⟩, -- GH_KEY_SEL
  ⟨0x40C, 1, 4, 0, 0, 0, 1⟩, -- GH_KEY_INFO
  ⟨0x410, 1, 4, 0xFFFFFFFF, 0, 0, 0⟩, -- GH_PV_WRAP
  ⟨0x414, 1, 4, 3, 0, 0, 0x101⟩, -- GH_WK_SEL
  ⟨0x420, 8, 4, 0, 0, 0, 0⟩, -- GH_WK_DATA
  ⟨0x500, 1, 4, 0, 0, 0, 0⟩, -- GH_RNG_CTRL
  ⟨0x504, 1, 4, 0, 4, 0, 0⟩, -- GH_RNG_STAT
  ⟨0x508, 1, 4, 0, 0, 0xFFFFFFFF, 0⟩, -- GH_RNG_DATA
  ⟨0x600, 1, 4, 0, 0x3C, 0, 0⟩, -- GH_ATT_CTRL
  ⟨0x608, 1, 4, 0xFFFFFFFF, 0, 0, 0⟩, -- GH_ATT_ADDR
  ⟨0x60C, 1, 4, 0xFFFF, 0, 0, 0⟩, -- GH_ATT_ADDR hi
  ⟨0x620, 8, 4, 0xFFFFFFFF, 0, 0, 0⟩, -- GH_ATT_NONCE
  ⟨0x700, 4, 4, 0, 0, 0, 0⟩, -- GH_IMG_STAT
  ⟨0x1000, 64, 16, 0xFFFFF007, 0, 0, 0⟩, -- GH_RGN_LO
  ⟨0x1004, 64, 16, 0xFFFF, 0, 0, 0⟩, -- GH_RGN_LO hi
  ⟨0x1008, 64, 16, 0xFFFFF000, 0, 0, 0⟩, -- GH_RGN_HI
  ⟨0x100C, 64, 16, 0xFFFF, 0, 0, 0⟩] -- GH_RGN_HI hi

/-- The registers of the CF block (R462). -/
def cfRegs : List RegDesc := [
  ⟨0, 1, 4, 0, 0, 0, 0⟩, -- CF_KEY
  ⟨4, 1, 4, 0, 0, 0, 0⟩, -- CF_CMD
  ⟨8, 1, 4, 0x3FFFFF, 0, 0, 0⟩, -- CF_ADDR
  ⟨0x10, 1, 4, 0, 0, 0, 0⟩, -- CF_DATA
  ⟨0x14, 1, 4, 0, 0, 0, 0⟩, -- CF_DATA hi
  ⟨0x18, 1, 4, 0, 0, 0, 0⟩, -- CF_STATUS
  ⟨0x1C, 1, 4, 0, 0, 0, 0⟩, -- CF_ERR
  ⟨0x20, 1, 4, 0, 3, 0, 0⟩, -- CF_EVT
  ⟨0x24, 1, 4, 3, 0, 0, 0⟩, -- CF_EVT_EN
  ⟨0x28, 1, 4, 0x17F, 0, 0, 0⟩, -- CF_WIN
  ⟨0x30, 1, 4, 0xFF, 0, 0, 0⟩, -- CF_ECC_CFG
  ⟨0x34, 1, 4, 0, 0x300, 0xFF, 0⟩, -- CF_ECC_STAT
  ⟨0x40, 1, 4, 0x3FF, 0, 0, 0⟩, -- CF_SEAL_SEL
  ⟨0x48, 1, 4, 0, 0, 0, 0⟩, -- CF_SEAL
  ⟨0x4C, 1, 4, 0, 0, 0, 0⟩, -- CF_SEAL hi
  ⟨0x50, 1, 4, 0, 2, 0, 0⟩] -- CF_PROT_STATUS

/-- The registers of the TG block (R462). -/
def tgRegs : List RegDesc := [
  ⟨0, 1, 4, 0x3F03, 4, 0, 0x802⟩, -- TG_CTRL
  ⟨4, 1, 4, 0, 0, 0, 0⟩, -- TG_STATUS
  ⟨8, 1, 4, 0, 0x3F, 0, 0⟩, -- TG_EVT
  ⟨0xC, 1, 4, 0x3F, 0, 0, 0⟩, -- TG_EVT_EN
  ⟨0x10, 1, 4, 0xFFFFFFFF, 0, 0, 0x20004000⟩, -- TG_KPI
  ⟨0x14, 1, 4, 0xFFFF, 0, 0, 0⟩, -- TG_KD
  ⟨0x18, 1, 4, 0x1F1F1F, 0, 0, 0x30401⟩, -- TG_SHIFT
  ⟨0x20, 1, 4, 0xFFFFFFFF, 0, 0, 0⟩, -- TG_IMIN
  ⟨0x24, 1, 4, 0xFFFFFFFF, 0, 0, 0xFA00000⟩, -- TG_IMAX
  ⟨0x28, 1, 4, 0xFFFFFFFF, 0, 0, 0xFA00000⟩, -- TG_OUT_MAX
  ⟨0x2C, 1, 4, 0xFFFFFFFF, 0, 0, 0x1F40000⟩, -- TG_SAFE
  ⟨0x30, 1, 4, 0xFFFFFFFF, 0, 0, 0x1F40000⟩, -- TG_MAN_OUT
  ⟨0x40, 1, 4, 0xFFFF, 0, 0, 0x320⟩, -- TG_ICEIL
  ⟨0x44, 1, 4, 0xFFFFFF, 0, 0, 0x100064⟩, -- TG_FE
  ⟨0x48, 1, 4, 0xFFFFFF, 0, 0, 0x400032⟩, -- TG_MODEL
  ⟨0x50, 1, 4, 0xFFFFFFFF, 0, 0, 0x28000⟩, -- TG_PROF_RATE
  ⟨0x54, 1, 4, 0xFFFFFFFF, 0, 0, 0x28F⟩, -- TG_PROF_ACC
  ⟨0x58, 1, 4, 0xFFFFFFFF, 0, 0, 7⟩, -- TG_PROF_JERK
  ⟨0x60, 1, 4, 0x3FFFF, 0, 0, 0x2205A⟩, -- TG_TH_CFG
  ⟨0x64, 1, 4, 0xFFFFFFFF, 0, 0, 0⟩, -- TG_TH_K
  ⟨0x68, 1, 4, 0x1F1F, 0, 0, 0⟩, -- TG_TH_SHIFT
  ⟨0x70, 1, 4, 0xFFFFFF, 0, 0, 0x2000⟩, -- TG_BCAP
  ⟨0x74, 1, 4, 0xFFFFFF, 0, 0, 0x100⟩, -- TG_BFLOOR
  ⟨0x80, 1, 4, 0, 0, 0, 0⟩, -- TG_MEAS
  ⟨0x84, 1, 4, 0, 0, 0, 0x1F40000⟩, -- TG_OUT
  ⟨0x88, 1, 4, 0, 0, 0, 0⟩, -- TG_INTEG
  ⟨0x8C, 1, 4, 0, 0, 0, 0x800320⟩, -- TG_TH_OUT
  ⟨0x90, 1, 4, 0, 0, 0xFFFFFFFF, 0⟩, -- TG_STAT
  ⟨0xA0, 8, 4, 0, 0, 0, 0⟩, -- TG_BLEVEL
  ⟨0xC0, 1, 4, 0, 0, 0xFFFF00, 0x800000⟩] -- TG_THERM

/-- The registers of the PM page (R462). -/
def pmRegs : List RegDesc := [
  ⟨0, 1, 4, 3, 0, 0, 0⟩, -- PM_CTRL
  ⟨4, 1, 4, 0, 0, 0, 0⟩, -- PM_STATUS
  ⟨8, 1, 4, 0, 0, 0, 0⟩, -- PM_WAKE
  ⟨0xC, 1, 4, 0, 0, 0, 0xFA03C03⟩, -- PM_EXIT_LAT
  ⟨0x10, 1, 4, 0, 0xF, 0, 0⟩, -- PM_EVT
  ⟨0x14, 1, 4, 0xF, 0, 0, 0⟩, -- PM_EVT_EN
  ⟨0x20, 1, 4, 0xFF, 0, 0, 0x4A⟩, -- PM_SUPPLY_CFG
  ⟨0x24, 1, 4, 0, 0x1F00, 0xFFFF0000, 0⟩, -- PM_SUPPLY_STAT
  ⟨0x28, 1, 4, 0, 0, 0, 0⟩, -- PM_SUPPLY_LAST
  ⟨0x30, 1, 4, 0, 0xF, 0, 1⟩, -- PM_RESET_CAUSE
  ⟨0x34, 1, 4, 0, 0, 0, 0⟩, -- PM_FAULT
  ⟨0x38, 1, 4, 0, 0, 0, 0⟩, -- PM_PVRST
  ⟨0x40, 1, 4, 0, 0, 0, 0⟩, -- PM_ATRISK_CTRL
  ⟨0x44, 1, 4, 0, 0xFFFFFFFF, 0, 0⟩, -- PM_ATRISK_HOLD_LO
  ⟨0x48, 1, 4, 0, 0xFFFFFFFF, 0, 0⟩, -- PM_ATRISK_HOLD_HI
  ⟨0x4C, 1, 4, 0x3F, 0, 0, 0⟩, -- PM_ATRISK_SEL
  ⟨0x50, 1, 4, 0, 0, 0, 0⟩, -- PM_ATRISK_PROG_LO
  ⟨0x54, 1, 4, 0, 0, 0, 0⟩, -- PM_ATRISK_PROG_HI
  ⟨0x58, 1, 4, 0, 0, 0, 0⟩, -- PM_ATRISK_ERASE_LO
  ⟨0x5C, 1, 4, 0, 0, 0, 0⟩] -- PM_ATRISK_ERASE_HI

/-- The registers of the IC device registers and sources (R462). -/
def icRegs : List RegDesc := [
  ⟨0, 1, 4, 0, 0x902, 0, 0⟩, -- IC_DEV_STAT
  ⟨8, 1, 4, 0, 0xFFFFFFFF, 0, 0⟩, -- IC_LANE_ERR_LO
  ⟨0xC, 1, 4, 0, 0xFFFFFFFF, 0, 0⟩, -- IC_LANE_ERR_HI
  ⟨0x10, 1, 4, 0, 0xFFFFFFFF, 0, 0⟩, -- IC_LANE_SLIP_LO
  ⟨0x14, 1, 4, 0, 0xFFFFFFFF, 0, 0⟩, -- IC_LANE_SLIP_HI
  ⟨0x18, 1, 4, 1, 0, 0, 0⟩, -- IC_SWI
  ⟨0x1C, 1, 4, 0, 0, 0, 0⟩, -- IC_CW_STAT
  ⟨0x1008, 15, 8, 0x11F, 0, 0, 0x10000⟩, -- IC_SRC_CFG 1-15
  ⟨0x100C, 63, 8, 0, 0, 0, 1⟩, -- IC_SRC_CFG hi 1-63
  ⟨0x1080, 48, 8, 0x100, 0, 0, 0x10100⟩, -- IC_SRC_CFG 16-63
  ⟨0x1200, 960, 8, 0xFF011F, 0, 0, 0x10100⟩, -- IC_SRC_CFG 64-1023
  ⟨0x1204, 960, 8, 0xFFFF, 0, 0, 1⟩, -- IC_SRC_CFG hi 64-1023
  ⟨0x4008, 1023, 8, 0, 0, 0, 0⟩, -- IC_SRC_STAT
  ⟨0x400C, 1023, 8, 0, 0, 0, 0⟩] -- IC_SRC_STAT hi

/-- The registers of the IC target page (R462). -/
def tgtRegs : List RegDesc := [
  ⟨0, 1, 4, 0, 0, 0x3FF, 0⟩, -- IC_CLAIM
  ⟨4, 1, 4, 0, 0, 0, 0⟩, -- IC_COMPLETE
  ⟨8, 1, 4, 0, 0x10, 0, 0⟩] -- IC_TGT_STAT

/-- The registers of the junction page (R462). -/
def jnRegs : List RegDesc := [
  ⟨0x100, 1, 4, 1, 0, 0, 0⟩, -- JN_VCCQ
  ⟨0x200, 1, 4, 0x7F, 0, 0, 0x28⟩, -- JN_SOFT_CFG
  ⟨0x204, 1, 4, 0x3F3F3F3F, 0, 0, 0x140C0703⟩, -- JN_SOFT_LLR
  ⟨0x208, 1, 4, 0, 0, 0x3F0000, 0⟩, -- JN_SOFT_STAT
  ⟨0x20C, 1, 4, 0, 0, 0xFFFFFFFF, 0⟩, -- JN_SOFT_CNT
  ⟨0x1000, 1, 4, 0, 0, 0, 0⟩, -- CW_ENG_STAT
  ⟨0x1004, 1, 4, 0, 0xFFFF, 0, 0⟩, -- CW_EVENT
  ⟨0x1008, 1, 4, 0, 0, 0, 0⟩, -- CW_EVENT_SET
  ⟨0x100C, 1, 4, 0xFF00, 0xFF, 0, 0⟩, -- CW_SIG
  ⟨0x2000, 512, 4, 0xFFFFFFFF, 0, 0, 0⟩] -- CW program area

/-- The registers of the Causeway channel (from 0x1100 + 0x40 × c of a junction page) (R462). -/
def chRegs : List RegDesc := [
  ⟨0, 1, 4, 7, 0, 0, 2⟩, -- CW_CH_CFG
  ⟨4, 1, 4, 2, 0xC, 0, 0⟩, -- CW_CH_CTRL
  ⟨8, 1, 4, 0, 0x10000, 0xFF000000, 0⟩, -- CW_CH_STATUS
  ⟨0xC, 1, 4, 0, 0x7000080, 0xFF0000, 0⟩, -- CW_CH_ERR
  ⟨0x10, 1, 4, 0xFFFFFFFF, 0, 0, 0⟩, -- CW_CH_SRC
  ⟨0x14, 1, 4, 0xFFFF, 0, 0, 0⟩, -- CW_CH_SRC hi
  ⟨0x18, 1, 4, 0xFFFFFFFF, 0, 0, 0⟩, -- CW_CH_DST
  ⟨0x1C, 1, 4, 0xFFFF, 0, 0, 0⟩, -- CW_CH_DST hi
  ⟨0x20, 1, 4, 0xFFFFFF, 0, 0, 0⟩, -- CW_CH_COUNT
  ⟨0x24, 1, 4, 0, 0, 0, 0⟩, -- CW_CH_LIVE_COUNT
  ⟨0x28, 1, 4, 0, 0, 0, 0⟩, -- CW_CH_ERR_ADDR
  ⟨0x2C, 1, 4, 0, 0, 0, 0⟩, -- CW_CH_ERR_ADDR hi
  ⟨0x30, 1, 4, 0, 0, 0, 0⟩, -- CW_CH_LIVE_SRC
  ⟨0x34, 1, 4, 0, 0, 0, 0⟩, -- CW_CH_LIVE_SRC hi
  ⟨0x38, 1, 4, 0, 0, 0, 0⟩, -- CW_CH_LIVE_DST
  ⟨0x3C, 1, 4, 0, 0, 0, 0⟩] -- CW_CH_LIVE_DST hi

/-- The registers of the lane page (R462). -/
def lnRegs0 : List RegDesc := [
  ⟨0x80, 1, 4, 0, 0, 0xFFFF0000, 0⟩, -- LN_SLIP
  ⟨0x84, 1, 4, 0, 0, 0xFFFFFFFF, 0⟩, -- LN_SLIP_TOTAL
  ⟨0x88, 1, 4, 0, 0, 0, 0x17C0⟩, -- LN_TICK_BUDGET
  ⟨0x90, 1, 4, 0, 0, 0xFFFFFFFF, 0⟩, -- LN_LATE
  ⟨0x94, 1, 4, 0, 0, 0xFFFFFF, 0⟩, -- LN_LATE_MAX
  ⟨0xA0, 1, 4, 0xFFFF, 0, 0, 0x40⟩, -- LN_PM_CFG
  ⟨0xA4, 1, 4, 0, 0, 0xFFFF0000, 0⟩, -- LN_PM_STAT
  ⟨0xA8, 1, 4, 0, 0, 0, 0⟩, -- LN_CTRL
  ⟨0xAC, 1, 4, 0, 0, 0, 0⟩, -- LN_FAULT
  ⟨0xC0, 1, 4, 0x7F00, 0, 0x7F0000, 0x1000⟩, -- LN_HOLD
  ⟨0xD0, 1, 4, 0, 0, 0xFF00, 0⟩, -- LN_OPEN_UNITS
  ⟨0xE0, 1, 4, 0xFF, 0, 0, 0⟩, -- LN_WAYMARK_SEL
  ⟨0xE4, 1, 4, 0xFFFFFFFF, 0, 0, 0⟩, -- LN_WAYMARK
  ⟨0xE8, 1, 4, 0, 0, 0xFF0000, 0⟩, -- LN_WAIT_STATUS
  ⟨0x100, 8, 4, 0x7FFF, 0, 0, 0x801⟩, -- LN_SVC_CFG
  ⟨0x140, 1, 4, 0xFF007F, 0, 0, 0x200048⟩, -- LN_SCHED_CFG
  ⟨0x144, 1, 4, 0xFFFF03, 0, 0, 0x80103⟩, -- LN_SUSP_CFG
  ⟨0x148, 1, 4, 0, 0, 0x1FF0000, 0⟩, -- LN_POOL
  ⟨0x14C, 1, 4, 0, 0, 0, 0⟩, -- LN_POOL_UNARMED
  ⟨0x150, 1, 4, 0, 0, 0xFFFFFFFF, 0⟩, -- LN_SUSP_STAT
  ⟨0x154, 1, 4, 0, 0, 0xFFFFFFFF, 0⟩, -- LN_SCHED_STAT
  ⟨0x158, 1, 4, 0, 0, 0, 0⟩, -- LN_DIE_SUSP_LO
  ⟨0x15C, 1, 4, 0, 0, 0, 0⟩, -- LN_DIE_SUSP_HI
  ⟨0x200, 1, 4, 0x1FFF3F, 0, 0, 0x20⟩, -- LN_PHY_CFG
  ⟨0x204, 1, 4, 0, 0, 0, 0xA00⟩, -- LN_PHY_STATUS
  ⟨0x208, 1, 4, 0xF, 0, 0xFF0000, 4⟩, -- LN_TIMEOUT
  ⟨0x20C, 1, 4, 0, 0, 0, 0⟩, -- LN_DIE_ERR
  ⟨0x220, 1, 4, 0xFF03, 0, 0, 0x4003⟩, -- LN_TRAIN_CFG
  ⟨0x224, 1, 4, 0, 0, 0xFFFF, 0xFF0000⟩, -- LN_TRAIN_STAT
  ⟨0x228, 1, 4, 0x1F3F, 0, 0, 0⟩, -- LN_TRAIN_SEL
  ⟨0x22C, 1, 4, 0, 0, 0, 0⟩, -- LN_TRAIN_DATA
  ⟨0x240, 1, 4, 0x71F1F, 0, 0, 0x20410⟩, -- LN_BUF_CFG
  ⟨0x244, 1, 4, 0, 0, 0, 0⟩, -- LN_BUF_STAT
  ⟨0x248, 1, 4, 0, 0, 0xFFFFFFFF, 0⟩, -- LN_BUF_CNT
  ⟨0x24C, 1, 4, 0, 0, 0, 0⟩, -- LN_STAGE_INFO
  ⟨0x250, 1, 4, 0, 0, 0xFFFFFFFF, 0⟩, -- LN_STAGE_STAT
  ⟨0x254, 1, 4, 0x3F, 0, 0, 0x14⟩, -- LN_DEC_CFG
  ⟨0x258, 1, 4, 0, 0, 0xFFFFFFFF, 0⟩, -- LN_DEC_STAT
  ⟨0x25C, 1, 4, 0, 0, 0xFFFFFFFF, 0⟩, -- LN_DEC_SOFT
  ⟨0x260, 1, 4, 0, 0, 0xFFFFFFFF, 0⟩] -- LN_PRED_STAT

/-- The registers of the lane page, continued (R462). -/
def lnRegs1 : List RegDesc := [
  ⟨0x264, 1, 4, 0, 0, 0xFFFF00, 0⟩, -- LN_PRED_INFO
  ⟨0x268, 1, 4, 0, 0, 0xFFFFFFFF, 0⟩, -- LN_RETRY_STAT
  ⟨0x300, 1, 4, 0xFF07, 0, 0, 0x1000⟩, -- LN_SEQ_CFG
  ⟨0x304, 1, 4, 0, 0, 0, 0⟩, -- LN_SEQ_STATUS
  ⟨0x308, 1, 4, 0, 0, 0, 0⟩, -- LN_SEQ_VER
  ⟨0x30C, 1, 4, 0, 0, 0, 0⟩, -- LN_MCHK
  ⟨0x310, 1, 4, 0, 0, 0xFFFFFFFF, 0⟩, -- LN_SEQ_STAT
  ⟨0x314, 1, 4, 0x1F, 0, 0, 0⟩, -- LN_TRAP_SEL
  ⟨0x318, 1, 4, 0, 0, 0, 0⟩, -- LN_TRAP_DATA
  ⟨0x400, 64, 4, 0x1F3F, 0, 0, 0⟩] -- LN_DIE_MAP

/-- The registers of the lane page. -/
def lnRegs : List RegDesc := lnRegs0 ++ lnRegs1

/-- The registers of the pavilion page (R462). -/
def pvRegs : List RegDesc := [
  ⟨0xC100, 1, 4, 0, 0, 0, 0⟩, -- PV_DB_ERR
  ⟨0xC104, 1, 4, 0, 0, 0xFFFF, 0⟩, -- PV_DB_ERR_CNT
  ⟨0xC108, 1, 4, 0, 0, 0xFF000000, 0⟩, -- PV_SQ_ERR
  ⟨0xC110, 1, 4, 0, 0, 0, 0⟩, -- PV_SQ_ERR_WORD_LO
  ⟨0xC114, 1, 4, 0, 0, 0, 0⟩, -- PV_SQ_ERR_WORD_HI
  ⟨0xC120, 1, 4, 0xFFFF, 0, 0, 0x100⟩, -- PV_FETCH_CTRL
  ⟨0xC200, 1, 4, 0xFFFFFFFF, 0, 0, 0⟩, -- PV_ADM_SQ_BASE
  ⟨0xC204, 1, 4, 0xFFFFFFFF, 0, 0, 0⟩, -- PV_ADM_SQ_BASE hi
  ⟨0xC208, 1, 4, 0xFFFFFFFF, 0, 0, 0⟩, -- PV_ADM_CQ_BASE
  ⟨0xC20C, 1, 4, 0xFFFFFFFF, 0, 0, 0⟩, -- PV_ADM_CQ_BASE hi
  ⟨0xC210, 1, 4, 0x1F1F01, 2, 0, 0x40400⟩, -- PV_ADM_CTRL
  ⟨0xC214, 1, 4, 0, 0, 0, 0⟩, -- PV_ADM_RESUME
  ⟨0xC218, 1, 4, 0, 0, 0, 0⟩, -- PV_STRIPE_LOW
  ⟨0xD000, 1, 4, 7, 0x20, 0, 8⟩, -- PV_CFG
  ⟨0xD004, 1, 4, 0xFFFFFFFF, 0, 0, 0⟩, -- PV_TARGETS
  ⟨0xD008, 1, 4, 0x1F1F1F, 0, 0, 0⟩, -- PV_SRC_TGT
  ⟨0xD010, 1, 4, 0xFFFFFFFF, 0, 0, 0⟩, -- PV_SQ_RANGE
  ⟨0xD014, 1, 4, 0xFFFFFFFF, 0, 0, 0⟩, -- PV_CQ_RANGE
  ⟨0xD018, 1, 4, 0xFFFFFFFF, 0, 0, 0⟩, -- PV_KEY_RANGE
  ⟨0xD01C, 1, 4, 0xFFFFFFFF, 0, 0, 0⟩, -- PV_VEC_RANGE
  ⟨0xD020, 1, 4, 0xFFFFFFFF, 0, 0, 0⟩] -- PV_STRIPE_RANGE
/-- The word at page offset `o`. -/
def RegDesc.covers (o : Nat) (r : RegDesc) : Bool :=
  decide (r.off ≤ o) && decide ((o - r.off) % r.stride = 0) && decide ((o - r.off) / r.stride < r.cnt)

/-- Lane n's page (R462). -/
def laneReg (n off : Nat) : Nat := 0x100000 + 0x1000 * n + off

/-- Junction j's page. -/
def juncReg (j off : Nat) : Nat := 0x80000 + 0x8000 * j + off

/-- Causeway channel c of junction j. -/
def chanReg (j c off : Nat) : Nat := juncReg j (0x1100 + 0x40 * c + off)

/-- Pavilion p's page. -/
def pavReg (p off : Nat) : Nat := 0x200000 + 0x10000 * p + off

/-- Interrupt target t's page. -/
def tgtReg (t off : Nat) : Nat := 0x50000 + 0x1000 * t + off

/-- The description of the register word at a window offset, none where the window is unimplemented there. -/
def regDesc (a : Nat) : Option RegDesc :=
  if a < 0x1000 then sysRegs.find? (RegDesc.covers a)
  else if a < 0x10000 then none
  else if a < 0x20000 then ghRegs.find? (RegDesc.covers (a - 0x10000))
  else if a < 0x28000 then cfRegs.find? (RegDesc.covers (a - 0x20000))
  else if a < 0x30000 then none
  else if a < 0x38000 then tgRegs.find? (RegDesc.covers (a - 0x30000))
  else if a < 0x40000 then pmRegs.find? (RegDesc.covers (a - 0x38000))
  else if a < 0x50000 then icRegs.find? (RegDesc.covers (a - 0x40000))
  else if a < 0x70000 then tgtRegs.find? (RegDesc.covers ((a - 0x50000) % 0x1000))
  else if a < 0x80000 then none
  else if a < 0xC0000 then
    let o := (a - 0x80000) % 0x8000
    if 0x1100 ≤ o ∧ o < 0x1700 then
      let c := (o - 0x1100) / 0x40
      match chRegs.find? (RegDesc.covers ((o - 0x1100) % 0x40)) with
      | none => none
      | some r =>
        if c < 16 then
          -- lane-bound: SRC, DST, COUNT and LOAD are RO, SEC, DISABLE and PROG_BUSY read zero (R336); PRIO resets to 2
          some (if r.off = 0 then { r with rw := 3 }
            else if r.off = 4 then { r with rw := 0, w1c := 4 }
            else if 0x10 ≤ r.off then { r with rw := 0 } else r)
        else some (if r.off = 0 then { r with rst := 1 } else r)
    else jnRegs.find? (RegDesc.covers o)
  else if a < 0x100000 then none
  else if a < 0x140000 then lnRegs.find? (RegDesc.covers ((a - 0x100000) % 0x1000))
  else if a < 0x200000 then none
  else if a < 0x300000 then pvRegs.find? (RegDesc.covers ((a - 0x200000) % 0x10000))
  else none

/-- The reset value of a register word (R14; a word outside the registers reads zero, R27). -/
def resetWord (a : Nat) : Word :=
  match regDesc a with
  | some r => r.rst
  | none => 0

/-- The stored word of a register. -/
def rget (b : Block) (a : Nat) : Word := tget (resetWord a) b.regs a

/-- Stores a register word. -/
def rput (b : Block) (a : Nat) (w : Word) : Block :=
  { b with regs := tset (resetWord a) b.regs a w }

/-- A field of a register. -/
def rfld (b : Block) (a hi lo : Nat) : Nat := fld (rget b a) hi lo

/-- A bit of a register. -/
def rbit (b : Block) (a i : Nat) : Bool := (rget b a).getLsbD i

/-- Stores a field of a register. -/
def rputF (b : Block) (a hi lo v : Nat) : Block := rput b a (setFld (rget b a) hi lo v)

/-- Sets a bit of a register. -/
def rset1 (b : Block) (a i : Nat) : Block := rput b a (rget b a ||| BitVec.ofNat 32 (2 ^ i))

/-- Clears a bit of a register. -/
def rclr1 (b : Block) (a i : Nat) : Block := rput b a (rget b a &&& ~~~(BitVec.ofNat 32 (2 ^ i)))

/-- Sets or clears a bit of a register. -/
def rputB (b : Block) (a i : Nat) (v : Bool) : Block := if v then rset1 b a i else rclr1 b a i

/-- Adds to a counter field, which saturates (R467). -/
def rinc (b : Block) (a hi lo : Nat) (k : Nat) : Block :=
  rputF b a hi lo (min (rfld b a hi lo + k) (2 ^ (hi + 1 - lo) - 1))

/-- Raises a field to a value. -/
def rmax (b : Block) (a hi lo v : Nat) : Block := rputF b a hi lo (max (rfld b a hi lo) v)

/-- A 64-bit register as its two stored words. -/
def rget64 (b : Block) (a : Nat) : Word64 := rget b (a + 4) ++ rget b a

/-- Stores a 64-bit register. -/
def rput64 (b : Block) (a : Nat) (w : Word64) : Block :=
  rput (rput b a (w.extractLsb' 0 32)) (a + 4) (w.extractLsb' 32 32)

/-- The write of a register word under the access codes of R14, byte by byte of its mask: RW bits are set, W1C bits are
cleared where a 1 is written, the rest keep their value. -/
def writeBits (r : RegDesc) (byteMask : Word) (old v : Word) : Word :=
  let rw := r.rw &&& byteMask
  let kept := (old &&& ~~~rw) ||| (v &&& rw)
  kept &&& ~~~(r.w1c &&& byteMask &&& v)

/-- The clear that follows the read of a word with RC fields (R14): they return to their reset value (log entry 7, DEDUCED). -/
def rcClear (b : Block) (a : Nat) : Block :=
  match regDesc a with
  | none => b
  | some r => rput b a ((rget b a &&& ~~~r.rc) ||| (r.rst &&& r.rc))

/-- A write of a word of the window that has no behaviour of its own. -/
def plainWrite (b : Block) (a : Nat) (byteMask v : Word) : Block :=
  match regDesc a with
  | none => b
  | some r => rput b a (writeBits r byteMask (rget b a) v)

/-- The lanes of the build (R3). -/
def Build.lanes : Build → Nat
  | .lanes16 => 16
  | .lanes32 => 32
  | .lanes64 => 64

/-- The junctions of the build (R3). -/
def Build.juncs : Build → Nat
  | .lanes16 => 2
  | .lanes32 => 4
  | .lanes64 => 8

/-- The most tenant submission queues of the build (R3). -/
def Build.sqMax (bd : Build) : Nat := 64 * bd.lanes

/-- The most completion queues of the build (R3). -/
def Build.cqMax (bd : Build) : Nat := 32 * bd.lanes

/-- The tick, as the number every timer counts in (R41). -/
def now (b : Block) : Nat := b.milepost.toNat

/-- A free value of w bits, and the block with its counter advanced (log entry 3, DESIGN CHOICE). -/
def freeOf (w : Nat) (b : Block) : BitVec w × Block :=
  (Config.freeVal w b.free, { b with free := b.free + 1 })

/-- The world of a register page: true is secure (R389). Pages 16 to 31 are always secure. -/
def pageSecure (b : Block) (a : Nat) : Bool :=
  let pg := a / 0x1000
  if 16 ≤ pg ∧ pg < 32 then true else rbit b (0x10100 + 4 * (pg / 32)) (pg % 32)

/-- PV_CFG.WORLD of a pavilion: the sec attribute of its traffic (R23, R96). -/
def pavSec (b : Block) (p : Nat) : Bool := rbit b (pavReg p 0xD000) 1

end Sys2Proof.Machine
end

