-- ==== Sys2Proof/Machine/Ops.lean ====
section
/-! DEFINITION. The named operations over the block's tables: what an unlisted lane, die, queue or slot holds, reading and
updating them, and lifting an effect on the block to the machine. -/

namespace Sys2Proof.Machine

open Sys2Proof

/-- A number as a word. -/
def toWord (x : Nat) : Word := BitVec.ofNat 32 x

/-- A control-store word of END with correct parity (R315, R330): 0x0100_0000 has one 1, so its parity bit is 0. -/
def endWord : BitVec 33 := 0x001000000

/-- A lane as a reset leaves it: nothing loaded, no work, its load still to run (R330, R444). -/
def Lane.init : Lane where
  cs := []
  words := 0
  ent := []
  loadPend := true
  slot := 0
  arrive := []
  pool := []
  holding := []
  todo := []
  frame := []
  next := []
  used := 0
  nextUsed := 0
  budget := 0
  nextBudget := 0
  carried := 0
  built := false
  stallFrame := false
  nextStall := false
  tickDue := false
  lateCarry := 0
  seq := none
  save := []
  saveValid := false
  wakeTick := 0
  idle := 0
  ps1 := false
  waymarks := []
  wrrCredit := []
  wrrClass := 0
  wrrOrder := []
  opens := []
  pages := []
  passes := []
  inJobs := []
  outJobs := []
  aborts := []
  closes := []
  events := []
  stride := 0
  recDies := 0
  frameSz := 0
  frames := 0
  heldFrames := []
  slipRaised := false
  sca := false
  steps := []
  eraseAt := []

/-- A die as a lane's reset leaves it; its band is SYS_TEMP_CFG.INIT_BAND until its temperature is known (R289). -/
def Die.init : Die where
  op := none
  susp := none
  suspAt := 0
  suspending := false
  noSusp := false
  temp := none
  tempAt := 0
  banded := false
  feats := []
  delays := []
  eyes := []
  retrain := none
  training := false
  waitSusp := none
  consec := 0
  needReset := false
  raw := false
  ps2Band := 0

/-- No queue. -/
def Sq.none : Sq where
  live := false
  deleting := false
  stopped := false
  owner := 0
  k := 4
  base := 0
  head := 0
  tail := 0
  fetch := 0
  cq := 0
  key := 0
  service := false
  lane := 0
  cls := 0
  chain := Option.none
  short := 0
  seen := 0
  full := Option.none
  held := false

/-- No completion queue. -/
def Cq.none : Cq where
  live := false
  broken := false
  owner := 0
  k := 4
  base := 0
  head := 0
  tail := 0
  issue := 0
  phase := true
  acked := []
  vector := 0
  wait := []
  inFlight := []

/-- A pavilion with nothing in progress. Where the round robins of R68 begin is not stated: with the tenant queues, from the lowest QID
above 0, and with pavilion 1 (log entry 93, DESIGN CHOICE). -/
def Pav.init : Pav := ⟨none, 0, false, none, [], false, false⟩

/-- A stripe that is not open. -/
def Stripe.none : Stripe := ⟨false, 0, [], [], [], Option.none, 0⟩

/-- An EMPTY key slot. -/
def KeySlot.none : KeySlot := ⟨.empty, 0, 0, false, false⟩

/-- An interrupt source at rest. -/
def Src.init : Src := ⟨false, .idle, 0, 0, 0, 0, 0⟩

/-- A command that does not exist. -/
def Cmd.none : Cmd := ⟨0, 0, 0, Option.none, false, [], true, true⟩

/-- An entry that does not exist. -/
def Entry.none : Entry := ⟨0, Option.none, 0, 0, 0, [], false, false, true, false⟩

/-- An instruction that does not exist. -/
def InstrRec.none : InstrRec :=
  ⟨[], .finished, 0, Option.none, 0, 0, Option.none, 0, 0, false, false, 0, 0, 0, Option.none, [], [], 0⟩

/-- A codeword that does not exist. -/
def Cw.none : Cw where
  kept := false
  lane := 0
  e := 0
  i := 0
  k := 0
  pa := 0
  stage := .done
  raw := []
  out := []
  soft := []
  corr := 0
  retry := 0
  step := 0
  best := Option.none
  offs := []
  ladder := 0
  recOk := false
  pband := 0
  pepoch := 0xFFFFFFFF
  rband := 0
  aband := Option.none
  looked := false
  slot := 0
  limitHits := 0
  sense := 0
  due := Option.none
  arrival := 0
  epoch := 0
  status := Option.none

/-- A general channel at rest. -/
def Chan.init : Chan := ⟨0, 0, 0, 0, 0, 0, 0, 0, false, 0, [], false⟩

/-- A junction at rest, its bucket empty. -/
def Junction.init : Junction := ⟨[], [], [], 0⟩

/-- Lane n. -/
def lane (b : Block) (n : Nat) : Lane := tget Lane.init b.lanes n
/-- Updates lane n. -/
def updLane (b : Block) (n : Nat) (f : Lane → Lane) : Block := { b with lanes := tupd Lane.init b.lanes n f }
/-- Die d of lane n. -/
def die (b : Block) (n d : Nat) : Die := tget Die.init b.dies (64 * n + d)
/-- Updates die d of lane n. -/
def updDie (b : Block) (n d : Nat) (f : Die → Die) : Block := { b with dies := tupd Die.init b.dies (64 * n + d) f }
/-- Submission queue q. -/
def sq (b : Block) (q : Nat) : Sq := tget Sq.none b.sqs q
/-- Updates submission queue q. -/
def updSq (b : Block) (q : Nat) (f : Sq → Sq) : Block := { b with sqs := tupd Sq.none b.sqs q f }
/-- Completion queue c. -/
def cq (b : Block) (c : Nat) : Cq := tget Cq.none b.cqs c
/-- Updates completion queue c. -/
def updCq (b : Block) (c : Nat) (f : Cq → Cq) : Block := { b with cqs := tupd Cq.none b.cqs c f }
/-- Pavilion p. -/
def pav (b : Block) (p : Nat) : Pav := tget Pav.init b.pavs p
/-- Updates pavilion p. -/
def updPav (b : Block) (p : Nat) (f : Pav → Pav) : Block := { b with pavs := tupd Pav.init b.pavs p f }
/-- Stripe s. -/
def stripe (b : Block) (s : Nat) : Stripe := tget Stripe.none b.stripes s
/-- Updates stripe s. -/
def updStripe (b : Block) (s : Nat) (f : Stripe → Stripe) : Block :=
  { b with stripes := tupd Stripe.none b.stripes s f }
/-- Key slot k. -/
def keySlot (b : Block) (k : Nat) : KeySlot := tget KeySlot.none b.keys k
/-- Updates key slot k. -/
def updKey (b : Block) (k : Nat) (f : KeySlot → KeySlot) : Block :=
  { b with keys := tset KeySlot.none b.keys k (f (keySlot b k)) }
/-- Interrupt source n. -/
def src (b : Block) (n : Nat) : Src := tget Src.init b.srcs n
/-- Command c. -/
def cmd (b : Block) (c : Nat) : Cmd := tget Cmd.none b.cmds c
/-- Updates command c. -/
def updCmd (b : Block) (c : Nat) (f : Cmd → Cmd) : Block := { b with cmds := tupd Cmd.none b.cmds c f }
/-- Work entry e. -/
def entry (b : Block) (e : Nat) : Entry := tget Entry.none b.entries e
/-- Updates work entry e. -/
def updEntry (b : Block) (e : Nat) (f : Entry → Entry) : Block :=
  { b with entries := tupd Entry.none b.entries e f }
/-- Instruction i of entry e. -/
def instr (b : Block) (e i : Nat) : InstrRec := (entry b e).instrs.getD i InstrRec.none
/-- Updates instruction i of entry e. -/
def updInstr (b : Block) (e i : Nat) (f : InstrRec → InstrRec) : Block :=
  updEntry b e (fun x => { x with instrs := x.instrs.set i (f (x.instrs.getD i InstrRec.none)) })
/-- Codeword c. -/
def cw (b : Block) (c : Nat) : Cw := tget Cw.none b.cws c
/-- Updates codeword c. -/
def updCw (b : Block) (c : Nat) (f : Cw → Cw) : Block := { b with cws := tupd Cw.none b.cws c f }
/-- General channel g of junction j. -/
def chan (b : Block) (j g : Nat) : Chan := tget Chan.init b.chans (8 * j + g)
/-- Updates general channel g of junction j. -/
def updChan (b : Block) (j g : Nat) (f : Chan → Chan) : Block :=
  { b with chans := tupd Chan.init b.chans (8 * j + g) f }
/-- Junction j. -/
def junc (b : Block) (j : Nat) : Junction := tget Junction.init b.juncs j
/-- Updates junction j. -/
def updJunc (b : Block) (j : Nat) (f : Junction → Junction) : Block :=
  { b with juncs := tupd Junction.init b.juncs j f }

/-- A fresh number for a command, an entry or a codeword: the model's own names for them. -/
def newId (b : Block) : Nat × Block := (b.nextId, { b with nextId := b.nextId + 1 })

/-- Applies an effect for each of a list. -/
def each {α : Type} (l : List α) (f : Block → α → Block) (b : Block) : Block := l.foldl f b

/-- The lanes of the build, by number. -/
def laneNums (b : Block) : List Nat := List.range b.build.lanes

/-- The junctions of the build, by number. -/
def juncNums (b : Block) : List Nat := List.range b.build.juncs

/-- A lane's control-register shorthand: LN_PHY_CFG.HOLD is set (R229). -/
def laneHold (b : Block) (n : Nat) : Bool := rbit b (laneReg n 0x200) 5

/-- LN_PHY_STATUS.STARTED. -/
def laneStarted (b : Block) (n : Nat) : Bool := rbit b (laneReg n 0x204) 4

/-- A lane's start has failed: CFG_ERR, or a failed load (R229, R321, R330). -/
def startFailed (b : Block) (n : Nat) : Bool :=
  decide (rfld b (laneReg n 0x204) 27 24 ≠ 0) || decide (rfld b (laneReg n 0x304) 11 8 ≠ 0)

/-- LN_FAULT.HALTED: the lane has halted (R438). -/
def laneHalted (b : Block) (n : Nat) : Bool := rbit b (laneReg n 0xAC) 3

/-- The lane runs native microcode (R8). -/
def laneNative (b : Block) (n : Nat) : Bool := rbit b (laneReg n 0x304) 1

/-- The lane takes its events as micro-traps: native microcode in the 64-lane build (R53, R54). -/
def laneTraps (b : Block) (n : Nat) : Bool :=
  laneNative b n && decide (b.build = .lanes64)

/-- A supply warning holds (R427). -/
def warned (b : Block) : Bool := decide (rfld b 0x38024 2 0 ≠ 0)

/-- The block is shut down by a thermal trip (R374). -/
def tripped (b : Block) : Bool := rbit b 0x300C0 0

/-- A block fault has halted the block (R439). -/
def faulted (b : Block) : Bool := decide (rfld b 0x38034 1 0 ≠ 0)

/-- PM_STATUS.STATE. -/
def powerState (b : Block) : Nat := rfld b 0x38004 1 0

/-- The lanes and pavilions run: the block is out of reset with lx_ready high, in PS0, and neither shut down nor halted
(R19, R374, R439, R446). -/
def running (b : Block) : Bool :=
  !b.inReset && b.lxReady && !tripped b && !faulted b && decide (powerState b = 0)

/-- A lane runs. -/
def laneRuns (b : Block) (n : Nat) : Bool := running b && !laneHalted b n

/-- Ticks for a time in nanoseconds, rounded up, at the period in force (R49, R217). -/
def ticksOfNs (b : Block) (ns : Nat) : Nat :=
  let t := rfld b 0x200 5 0 * 1000
  (ns + t - 1) / t

/-- Lifts an effect on the block to the machine: CFLASH and the queue are untouched. -/
def State.onBlock (s : State) (f : Block → Block) : State := { s with blk := f s.blk }

end Sys2Proof.Machine
end

