-- ==== Sys2Proof/Machine/Ecc.lean ====
section
/-! DEFINITION. What the check codes of the block's memories find and what is recorded of it (R451 to R455), and the words of the Causeway
program areas (MEM 8) as a channel reads them. -/

namespace Sys2Proof.Machine

open Sys2Proof

/-- MEM 1 to 3 are a lane's, 4 to 8 the block's (R457). -/
def laneMem (mem : Nat) : Bool := decide (1 ≤ mem ∧ mem ≤ 3)

/-- MP_ERR_INFO and MP_ERR_ADDR latch the first uncorrectable error since VALID was cleared. -/
def latchMemErr (mem n index synd : Nat) (scrub : Bool) (b : Block) : Block :=
  if rbit b 0x810 11 then b
  else
    rput (rput b 0x810 (BitVec.ofNat 32 (mem + (if laneMem mem then 16 * n else 0) + 1024 * ofBool scrub + 2048 + 4096 * (synd % 256))))
      0x814 (BitVec.ofNat 32 (index % 2 ^ 20))

/-- A corrected read (R454): MP_EVT.CORR sets when the count reaches MP_SCRUB_CFG.CORR_THRESH. -/
def noteCorrected (b : Block) : Block :=
  let was := rfld b 0x80C 15 0
  let b := rinc b 0x80C 15 0 1
  let t := rfld b 0x808 15 10
  if was < t ∧ t ≤ rfld b 0x80C 15 0 then rset1 b 0x800 1 else b

/-- An uncorrectable error in live state is recorded (R451, R455). -/
def noteUncorrectable (mem n index synd : Nat) (scrub : Bool) (b : Block) : Block :=
  latchMemErr mem n index synd scrub (rset1 (rinc b 0x80C 31 28 1) 0x800 0)

/-- A word holds what the test mode planted, no longer. -/
def unplant (mem n index : Nat) (b : Block) : Block :=
  { b with planted := b.planted.filter (fun x => !decide (x.mem = mem ∧ x.lane = n ∧ x.index = index)) }

/-- What a reader finds in a planted word, and its syndrome. -/
def plantedFinding (x : Planted) (written : Bool) : Finding × Nat :=
  let c := Config.secdedClass x.data x.check
  (if c = 0 then .good else if c = 1 then .correctable written else .uncorrectable, (Config.secdedSynd x.data x.check).toNat)

/-- The number by which Config.memWordOwner knows word i of the program area of general channel g of junction j. -/
def progNo (j g i : Nat) : Nat := 256 * j + 32 * g + i

/-- The test mode's word that stands in a word of a program area. -/
def plantedProg (b : Block) (j g i : Nat) : Option Planted :=
  b.planted.find? (fun x => decide (x.mem = 8 ∧ Config.memWordOwner 8 0 x.index = progNo j g i))

/-- A write of a word of a program area replaces what the test mode planted there (R461). -/
def replaceProg (j g i : Nat) (b : Block) : Block :=
  { b with planted := b.planted.filter (fun x => !decide (x.mem = 8 ∧ Config.memWordOwner 8 0 x.index = progNo j g i)) }

/-- A channel reads a word of its program (R454, R455): a corrected read counts, an uncorrectable word is recorded and stays. The answer is
whether the word reaches the channel. -/
def readProg (j g i : Nat) (b : Block) : Bool × Block :=
  match plantedProg b j g i with
  | none => (true, b)
  | some x =>
    match plantedFinding x false with
    | (.good, _) => (true, b)
    | (.correctable _, _) => (true, noteCorrected b)
    | (.uncorrectable, y) => (false, noteUncorrectable 8 0 x.index y false b)

/-- The memory that a scrubber starts a lap with (R457): a lane's (0 to 63) MEM 1, the block's (64) MEM 4. -/
def scrubFirst (k : Nat) : Nat := if k = 64 then 4 else 1

/-- Where scrubber k stands. -/
def scrubPos (b : Block) (k : Nat) : ScrubPos := tget ⟨scrubFirst k, 0, 0⟩ b.scrub k

/-- Scrubber k begins a lap (R457, R460). -/
def startLap (k : Nat) (b : Block) : Block := { b with scrub := tput b.scrub k ⟨scrubFirst k, 0, now b⟩ }

/-- A write of a key slot replaces what the test mode planted in its words (R400, R454). -/
def unplantKey (k : Nat) (b : Block) : Block :=
  { b with planted := b.planted.filter (fun x => !decide (x.mem = 5 ∧ Config.memWordOwner 5 0 x.index = k)) }

/-- What the test mode planted in the words of key slot k. -/
def plantedKeys (b : Block) (k : Nat) : List Planted :=
  b.planted.filter (fun x => decide (x.mem = 5 ∧ Config.memWordOwner 5 0 x.index = k))

end Sys2Proof.Machine
end

