-- ==== Sys2Proof/Machine/Flags.lean ====
section
/-! DEFINITION. The interrupt router's levels, states and wake lines (R377 to R388), and the settling of all of them at the
end of each command. -/

namespace Sys2Proof.Machine

open Sys2Proof

/-- A member of a stripe has a page left (R101, R152). -/
def Member.hasPage (m : Member) : Bool := decide (m.next ≤ m.last)

/-- The open stripes of pavilion p, by number, in which no member has a page left (R101; log entry 21, DEDUCED). -/
def spentStripes (b : Block) (p : Nat) : List Nat :=
  (b.stripes.filter (fun x => x.2.isOpen && decide (x.2.owner = p) && !(x.2.members.any Member.hasPage))).map (·.1)

/-- The Causeway device event of junction j (R343, R345, R350). -/
def causewayEvent (b : Block) (j : Nat) : Bool :=
  let sig := rget b (juncReg j 0x100C)
  decide (fld sig 7 0 &&& fld sig 15 8 ≠ 0) ||
    (List.range 8).any (fun g =>
      let e := rget b (chanReg j (16 + g) 0xC)
      e.getLsbD 7 || decide (fld e 26 24 ≠ 0))

/-- A register and its enable word share a set bit among the low n. -/
def evtHigh (b : Block) (evt en n : Nat) : Bool :=
  decide (fld (rget b evt &&& rget b en) n 0 ≠ 0)

/-- The level of interrupt source n, before ENABLE (R377, R101, R87). -/
def srcLevel (b : Block) (n : Nat) : Bool :=
  if n = 0 then false
  else if n = 1 then rbit b 0x40000 1
  else if n = 2 then rbit b 0x30008 4
  else if n = 3 then decide (rfld b 0x38024 12 8 ≠ 0)
  else if n = 4 then evtHigh b 0x800 0x804 2
  else if n = 5 then decide (rget b 0x40008 ≠ 0) || decide (rget b 0x4000C ≠ 0)
  else if n = 6 then decide (rget b 0x40010 ≠ 0) || decide (rget b 0x40014 ≠ 0)
  else if n = 7 then decide (rfld b 0x108 7 0 ≠ 0)
  else if n = 8 then rbit b 0x40000 8
  else if n = 9 then evtHigh b 0x30008 0x3000C 5
  else if n = 10 then (juncNums b).any (causewayEvent b)
  else if n = 11 then rbit b 0x40000 11
  else if n = 12 then !b.vlog.isEmpty
  else if n = 13 then evtHigh b 0x20020 0x20024 1
  else if n = 14 then evtHigh b 0x38010 0x38014 3
  else if n = 15 then rbit b 0x40018 0
  else if n < 64 then
    let p := (n - 16) / 3
    if (n - 16) % 3 = 0 then
      let c := cq b (2048 + p)
      c.live && decide (c.tail ≠ c.head)
    else if (n - 16) % 3 = 1 then (pav b p).errRaised
    else !(spentStripes b p).isEmpty
  else b.cqs.any (fun x => x.2.live && decide (x.2.vector = n) && decide (x.2.tail ≠ x.2.head))

/-- The address of IC_SRC_CFGn. -/
def srcCfg (n : Nat) : Nat := 0x41000 + 8 * n

/-- The target of source n: PV_SRC_TGT for sources 16 to 63, IC_SRC_CFG otherwise (R101, R387). -/
def srcTarget (b : Block) (n : Nat) : Nat :=
  if 16 ≤ n ∧ n < 64 then
    let k := (n - 16) % 3
    rfld b (pavReg ((n - 16) / 3) 0xD008) (8 * k + 4) (8 * k)
  else rfld b (srcCfg n) 4 0

/-- IC_SRC_CFG.ENABLE. -/
def srcEnabled (b : Block) (n : Nat) : Bool := rbit b (srcCfg n) 8

/-- The moderation count of source n; 0 is taken as 1, fixed sources have 1 (R380). -/
def srcMcount (b : Block) (n : Nat) : Nat := if n < 64 then 1 else max 1 (rfld b (srcCfg n) 23 16)

/-- The moderation time of source n in ticks; 0 is taken as 1. -/
def srcMtime (b : Block) (n : Nat) : Nat := if n < 64 then 1 else max 1 (rfld b (srcCfg n + 4) 15 0)

/-- Target t counts as idle: idle_in without sleep_in (R31, R379). -/
def targetIdle (b : Block) (t : Nat) : Bool := b.idleIn.getLsbD t && !b.sleepIn.getLsbD t

/-- A source senses its level (R378, R379): the transitions of the state table that a level, a count or an idle target
makes. -/
def senseSrc (b : Block) (n : Nat) (s : Src) : Src :=
  let lvl := srcLevel b n && srcEnabled b n
  let idle := targetIdle b (srcTarget b n)
  match s.st with
  | .idle =>
    if lvl then
      if srcMcount b n = 1 ∨ idle then { s with level := true, st := .pending, count := 1 }
      else { s with level := true, st := .accum, count := 1, limit := srcMcount b n, due := now b + srcMtime b n }
    else { s with level := false }
  | .accum =>
    if !lvl then { s with level := false, st := .idle, count := 0 }
    else if idle ∨ s.limit ≤ s.count then { s with level := true, st := .pending }
    else { s with level := true }
  | .pending => if lvl then { s with level := true } else { s with level := false, st := .idle, count := 0 }
  | .active => { s with level := lvl }

/-- The sources whose level can be high: the fixed ones, the bound vectors, and those not at rest. -/
def livelySrcs (b : Block) : List Nat :=
  List.range' 1 63 ++ (b.cqs.map (fun x => x.2.vector)).filter (fun v => decide (64 ≤ v))
    ++ (b.srcs.map (·.1)).filter (fun n => decide (64 ≤ n))

/-- Every source senses its level. -/
def senseAll (b : Block) : Tab Src :=
  (livelySrcs b).foldl (fun t n => tset Src.init t n (senseSrc b n (tget Src.init t n))) b.srcs

/-- A source is PENDING for target t (R379). -/
def pendingFor (b : Block) (srcs : Tab Src) (t : Nat) : List Nat :=
  (srcs.filter (fun x => decide (x.2.st = .pending) && decide (srcTarget b x.1 = t))).map (·.1)

/-- irq[t] is high while a source is PENDING for t (R379, R30). -/
def irq (b : Block) (t : Nat) : Bool := !(pendingFor b b.srcs t).isEmpty

/-- The wake lines: wake_req[t] rises while sleep_in[t] is asserted and a source is PENDING for t (R386). -/
def wakeNext (b : Block) (srcs : Tab Src) : BitVec 32 :=
  (List.range 32).foldl (fun w t =>
    if b.sleepIn.getLsbD t ∧ (pendingFor b srcs t).isEmpty = false then w ||| BitVec.ofNat 32 (2 ^ t) else w) b.wake

/-- The router takes the levels that a command has left (R378, R385): only the sources and the wake lines change. In reset
nothing is sensed. -/
def settle (b : Block) : Block :=
  if b.inReset then b
  else
    let srcs := senseAll b
    { b with srcs := srcs, wake := wakeNext b srcs }

/-- Lifts an effect on the block to the machine and lets the interrupt router settle. -/
def State.act (s : State) (f : Block → Block) : Host.Outcome State Fault Refusal :=
  .next { s with blk := settle (f s.blk) }

/-- A completion's write response has returned for vector n (R380, R383): it counts while the source accumulates, and
since the claim while it is active. -/
def countResponse (b : Block) (n : Nat) : Block :=
  if n = 0 then b
  else
    let s := src b n
    match s.st with
    | .accum => { b with srcs := tset Src.init b.srcs n { s with count := s.count + 1 } }
    | .active => { b with srcs := tset Src.init b.srcs n { s with since := s.since + 1 } }
    | _ => b

/-- IC_CLAIM by target t (R381): the lowest source PENDING for it becomes ACTIVE; wake_req[t] falls when none is left
(R32). The answer is the claimed source. -/
def claim (b : Block) (t : Nat) : Block × Nat :=
  match (pendingFor b b.srcs t) with
  | [] => (b, 0)
  | n :: rest =>
    let s := src b n
    let b := { b with srcs := tset Src.init b.srcs n { s with st := .active, owner := t, since := 0 } }
    (if rest.isEmpty then { b with wake := b.wake &&& ~~~(BitVec.ofNat 32 (2 ^ t)) } else b, n)

/-- IC_COMPLETE of source n by target t (R383): with its level low it is at rest, with its level high it enters ACCUM with
the responses counted since the claim, or is presented at once. -/
def complete (b : Block) (t n : Nat) : Block :=
  let s := src b n
  if s.st = .active ∧ s.owner = t then
    let lvl := srcLevel b n && srcEnabled b n
    let s' : Src :=
      if !lvl then { s with level := false, st := .idle, count := 0, since := 0 }
      else if srcMcount b n ≤ s.since ∨ srcMcount b n = 1 ∨ targetIdle b (srcTarget b n) then
        { s with level := true, st := .pending, count := s.since, since := 0 }
      else { s with level := true, st := .accum, count := s.since, limit := srcMcount b n, due := now b + srcMtime b n, since := 0 }
    { b with srcs := tset Src.init b.srcs n s' }
  else rset1 b (tgtReg t 8) 4

/-- A moderation timer expires (R379, R380): an ACCUM source whose time has come becomes PENDING. -/
def moderate (b : Block) (n : Nat) : Block :=
  let s := src b n
  if s.st = .accum ∧ s.due ≤ now b then
    { b with srcs := tset Src.init b.srcs n { s with st := .pending } }
  else b

/-- Raises the lane-error device event for lane n (R377). -/
def raiseLaneErr (b : Block) (n : Nat) : Block := rset1 b (0x40008 + 4 * (n / 32)) (n % 32)

/-- Raises the lane-slip device event for lane n (R57, R377). -/
def raiseLaneSlip (b : Block) (n : Nat) : Block := rset1 b (0x40010 + 4 * (n / 32)) (n % 32)

end Sys2Proof.Machine
end

