-- ==== Sys2Proof/Machine/Gate.lean ====
section
/-! DEFINITION. Gatehouse: the world of a register access and of a fabric request (R389, R391), the violation log (R393),
key slots (R394 to R402), wrapped blobs (R397, R398), and the DRBG's outputs (R403). -/

namespace Sys2Proof.Machine

open Sys2Proof

/-- The pages and windows of absent lanes and junctions (R6). -/
def absent (b : Block) (a : Nat) : Bool :=
  if 0x80000 ≤ a ∧ a < 0xC0000 then decide (b.build.juncs ≤ (a - 0x80000) / 0x8000)
  else if 0x100000 ≤ a ∧ a < 0x140000 then decide (b.build.lanes ≤ (a - 0x100000) / 0x1000)
  else false

/-- A page the window implements (R462, R466). -/
def pageImplemented (a : Nat) : Bool :=
  decide (a < 0x1000) || (decide (0x10000 ≤ a) && decide (a < 0x70000)) ||
    (decide (0x80000 ≤ a) && decide (a < 0xC0000)) || (decide (0x100000 ≤ a) && decide (a < 0x140000)) ||
    (decide (0x200000 ≤ a) && decide (a < 0x304000)) || (decide (0x310000 ≤ a) && decide (a < 0x31A000))

/-- Records a violation (R393): it merges into the newest entry of the same requester, direction and 4 KiB page, makes a
new entry, or is lost; every one counts in GH_VLOG_TOTAL. -/
def logViolation (b : Block) (v : Violation) : Block :=
  let same (x : Violation) : Bool :=
    decide (x.master = v.master ∧ x.port = v.port ∧ x.ini = v.ini ∧ x.write = v.write ∧
      x.addr / 4096 = v.addr / 4096)
  let b := rinc b 0x10318 31 0 1
  match b.vlog.getLast? with
  | some x =>
    if same x then { b with vlog := b.vlog.dropLast ++ [{ x with rep := min (x.rep + 1) 65535 }] }
    else if b.vlog.length < 16 then { b with vlog := b.vlog ++ [v] }
    else rinc b 0x10314 31 16 1
  | none => { b with vlog := [v] }

/-- The low 32 bits of SYS_MILEPOST. -/
def tick32 (b : Block) : Word := b.milepost.extractLsb' 0 32

/-- What becomes of a register access (R389, R390, R6, R462): `ok` it is admitted, otherwise it reads zero and its write
is ignored; a denied access to an implemented page that is not absent is a violation. -/
def slaveGate (b : Block) (a : Nat) (write sec : Bool) : Bool × Block :=
  if sec ∨ !pageSecure b a then (true, b)
  else if absent b a ∨ !pageImplemented a then (false, b)
  else (false, logViolation b ⟨write, false, 0, 63, sec, a, tick32 b, 1⟩)

/-- A fabric request is admitted (R391). -/
def regionAdmits (b : Block) (addr : Nat) (write sec : Bool) : Bool :=
  if sec then true
  else
    let covers (i : Nat) : Bool :=
      let lo := rget64 b (0x11000 + 16 * i)
      let hi := rget64 b (0x11008 + 16 * i)
      lo.getLsbD 0 && decide (lo.toNat / 4096 ≤ addr / 4096) && decide (addr / 4096 ≤ hi.toNat / 4096)
    match (List.range 64).find? covers with
    | some i => rbit b (0x11000 + 16 * i) (if write then 2 else 1)
    | none => rbit b 0x10200 (if write then 1 else 0)

/-- The queues bound to a key slot (R395). -/
def boundQueues (b : Block) (k : Nat) : List Nat :=
  (b.sqs.filter (fun x => x.2.live && decide (x.1 < 4096) && decide (x.2.key = k))).map (·.1)

/-- Slot k holds a key that may be used: slot 0 always, another while LIVE (R394). -/
def keyLive (b : Block) (k : Nat) : Bool := decide (k = 0) || decide ((keySlot b k).st = .live)

/-- Instructions of entries whose queue names slot k that hold it: pooled READ, PROG and APPEND not yet finished (R395). -/
def slotHeld (b : Block) (k : Nat) : Bool :=
  b.entries.any (fun x => decide (x.2.key = k) && x.2.instrs.any (fun i =>
    decide (i.phase ≠ .held) && decide (i.phase ≠ .finished) &&
      (byteAt i.bytes 0 == 0x01 || byteAt i.bytes 0 == 0x08 || byteAt i.bytes 0 == 0x09)))

/-- The overwrite of a slot's key, together with its check bits, with zeros (R400). -/
def wipeSlot (b : Block) (k : Nat) : Block := updKey (unplantKey k b) k (fun s => { s with key := 0, wipe := false })

/-- A slot is EMPTY, its key and check bits overwritten (R394, R400). -/
def emptySlot (b : Block) (k : Nat) : Block := updKey (unplantKey k b) k (fun _ => KeySlot.none)

/-- A bound slot is VOID, its key and check bits overwritten (R402, R456). -/
def voidSlot (b : Block) (k : Nat) : Block := updKey (wipeSlot b k) k (fun s => { s with st := .void })

/-- A slot is zeroised (R402): an unbound LIVE slot becomes EMPTY at once, a bound one VOID, its key overwritten at once
or, while an instruction holds it, when the last of them finishes. -/
def zeroiseSlot (b : Block) (k : Nat) : Block :=
  if (keySlot b k).st ≠ .live then b
  else if (boundQueues b k).isEmpty then emptySlot b k
  else if slotHeld b k then updKey b k (fun s => { s with st := .void, wipe := true })
  else voidSlot b k

/-- A slot's key has an error that cannot be corrected (R456): its key is overwritten at once, an unbound slot becomes EMPTY, a bound one
VOID. -/
def loseSlot (b : Block) (k : Nat) : Block :=
  if (keySlot b k).st = .empty then b
  else if (boundQueues b k).isEmpty then emptySlot b k
  else voidSlot b k

/-- A key slot is read for its key (R454 to R456, R260): corrected words count, and with a word that cannot be corrected
the slot is lost. The answer is whether there is a key: none in a slot lost to such an error while the instruction held it. -/
def readKey (b : Block) (k : Nat) : Bool × Block :=
  if k = 0 then (true, b)
  else if decide ((keySlot b k).st = .void) && !(keySlot b k).wipe then (false, b)
  else
    let kind (x : Planted) : Finding := (plantedFinding x false).1
    let b := each ((plantedKeys b k).filter (fun x => decide (kind x = .correctable false))) (fun b _ => noteCorrected b) b
    match (plantedKeys b k).find? (fun x => decide (kind x = .uncorrectable)) with
    | some x => (false, loseSlot (noteUncorrectable 5 0 x.index (plantedFinding x false).2 false (unplant 5 0 x.index b)) k)
    | none => (true, b)

/-- GH_KEY_STAT.ZEROISING: an overwrite remains (R402). -/
def zeroising (b : Block) : Bool := b.keys.any (fun x => x.2.wipe)

/-- The overwrites that waited for an instruction are made once none holds the slot (R402). -/
def wipeReleased (b : Block) : Block :=
  each ((b.keys.filter (fun x => x.2.wipe)).map (·.1)) (fun b k => if slotHeld b k then b else wipeSlot b k) b

/-- A VOID slot becomes EMPTY when the last queue bound to it is deleted (R402). -/
def freeVoid (b : Block) (k : Nat) : Block :=
  if (keySlot b k).st = .void ∧ (boundQueues b k).isEmpty then emptySlot b k else b

/-- Bytes of an identity row (R423): a blank word reads zero. -/
def rowBytes (row : Tab Word64) (addr n : Nat) : List Byte :=
  ((List.range ((addr % 8 + n + 7) / 8)).flatMap (fun i => leBytes 8 (tget 0 row (addr / 8 + i)).toNat)).drop (addr % 8) |>.take n

/-- Wrap key k (R399): WK0 is derived from the device root key of the identity row as Gatehouse read it at its last reset. -/
def wrapKey (b : Block) (k : Nat) : BitVec 256 := if k = 0 then deriveWk0 (rowBytes b.rowSnap 0x700 48) else tget 0 b.wk k

/-- The wrap key that pavilion p selects, none while it is not loaded (R399). -/
def wrapKeyOf (b : Block) (p : Nat) : Option (BitVec 256) :=
  let k := rfld b 0x10410 (2 * p + 1) (2 * p)
  if k = 0 ∨ rbit b 0x10414 (8 + k) then some (wrapKey b k) else none

/-- The 72 B plaintext of a wrapped-key blob (R397). -/
def blobPlain (s : KeySlot) : List Byte :=
  [0x4C, 0x58, 0x4B, 0x57, 0x01, if s.exportable then 1 else 0, 0, 0] ++ leBytes 64 s.key.toNat

/-- What a blob holds after its unwrap (R398): the key and its EXPORTABLE bit, none where the layout is broken or the two
key halves are equal. -/
def blobKey (plain : List Byte) : Option (BitVec 512 × Bool) :=
  let body := plain.drop 8
  if plain.take 5 = [0x4C, 0x58, 0x4B, 0x57, 0x01] ∧ byteAt plain 5 < 2 ∧ byteAt plain 6 = 0 ∧ byteAt plain 7 = 0 ∧
      body.take 32 ≠ (body.drop 32).take 32 then
    some (BitVec.ofNat 512 (leNat (body.take 64)), decide (byteAt plain 5 = 1))
  else none

/-- The DRBG is instantiated and has not failed (R403, R404). -/
def rngReady (b : Block) : Bool := rbit b 0x10504 0 && !rbit b 0x10504 1

/-- A generate request of w bits (R403): free values; the DRBG reseeds after every 4,096 requests. -/
def drbg (w : Nat) (b : Block) : BitVec w × Block :=
  let (v, b) := freeOf w b
  (v, { b with gens := if b.gens + 1 = 4096 then 0 else b.gens + 1 })

/-- A fresh AES-256-XTS key: 512 bits, drawn again where the two halves are equal (R396). The second draw is taken
unequal, since the draws go on until they differ (log entry 22, DEDUCED). -/
def drawKey (b : Block) : BitVec 512 × Block :=
  let (k, b) := drbg 512 b
  if k.extractLsb' 0 256 = k.extractLsb' 256 256 then
    let (k, b) := drbg 512 b
    (if k.extractLsb' 0 256 = k.extractLsb' 256 256 then k ^^^ 1 else k, b)
  else (k, b)

/-- The lifecycle acts as RETIRED (R406). -/
def retired (b : Block) : Bool := decide (rfld b 0x10000 1 0 = 3) || decide (rfld b 0x10000 1 0 = 0)

end Sys2Proof.Machine
end

