-- ==== Sys2Proof/Machine/Fabric.lean ====
section
/-! DEFINITION. The fabric ports (R20 to R26): credits, ids, putting flits, and the register slave port's answers. -/

namespace Sys2Proof.Machine

open Sys2Proof

/-- The credit count of a channel: 0 RA and 2 WR of master port j at 4 j + channel, 1 RR and 3 WK of the slave port at
32 + channel (R20). -/
def creditKey (port : Option Nat) (chanNo : Nat) : Nat :=
  match port with
  | some j => 4 * j + chanNo
  | none => 32 + chanNo

/-- The unspent credits of a channel. -/
def credit (b : Block) (k : Nat) : Nat := tget 0 b.credits k

/-- An id of a port and direction that names an outstanding burst or is quarantined (R24, R26). -/
def idBusy (b : Block) (port : Nat) (write : Bool) (id : Nat) : Bool :=
  b.bursts.any (fun x => decide (x.port = port ∧ x.write = write ∧ x.id = some id)) ||
    b.quar.any (fun x => decide (x.port = port ∧ x.write = write ∧ x.id = id))

/-- The ids of a port and direction in use, quarantined ones included (CW_ENG_STAT). -/
def idsInUse (b : Block) (port : Nat) (write : Bool) : Nat :=
  (b.bursts.filter (fun x => decide (x.port = port ∧ x.write = write) && x.id.isSome)).length +
    (b.quar.filter (fun x => decide (x.port = port ∧ x.write = write))).length

/-- The id given to the next burst: the block's own choice among the free ones (R24; log entry 13, DESIGN CHOICE). -/
def pickId (b : Block) (port : Nat) (write : Bool) : Option Nat × Block :=
  let (v, b) := freeOf 8 b
  if !idBusy b port write v.toNat then (some v.toNat, b)
  else ((List.range 256).find? (fun i => !idBusy b port write i), b)

/-- Bursts that an initiator has outstanding or has lost to quarantine, of one direction of a port (R334). -/
def poolUsed (b : Block) (x : Burst) : Nat :=
  (b.bursts.filter (fun y => decide (y.port = x.port ∧ y.write = x.write ∧ y.ini = x.ini) && y.id.isSome)).length +
    (b.quar.filter (fun y => decide (y.port = x.port ∧ y.write = x.write ∧ y.ini = x.ini))).length

/-- Traffic of a pavilion or of Gatehouse, which shares one pool of a port (R333, R334, R407). -/
def pavTraffic (ini : Nat) : Bool := decide (24 ≤ ini)

/-- The pavilion traffic of a port and direction outstanding (R334). -/
def pavPoolUsed (b : Block) (x : Burst) : Nat :=
  (b.bursts.filter (fun y => decide (y.port = x.port ∧ y.write = x.write) && pavTraffic y.ini && y.id.isSome)).length +
    (b.quar.filter (fun y => decide (y.port = x.port ∧ y.write = x.write) && pavTraffic y.ini)).length

/-- The initiator's pool has a free id (R334): 8 bursts of each direction for a channel, 16 for the pavilion traffic. -/
def poolFree (b : Block) (x : Burst) : Bool :=
  if pavTraffic x.ini then decide (pavPoolUsed b x < 16) else decide (poolUsed b x < 8)

/-- A burst waits for its first or a further flit (R21). A read burst of a general channel that has returned waits in the
channel's buffer, without an id, until its beats are written. -/
def Burst.wants (x : Burst) : Bool :=
  !x.denied && ((x.id.isNone && decide (x.put = 0)) || (x.write && decide (x.put < x.beats)))

/-- A write burst whose first flit has been put and not its last (R21). -/
def Burst.midway (x : Burst) : Bool := x.write && decide (0 < x.put) && decide (x.put < x.beats)

/-- The level of the arbitration that a burst is of (R348, R333): its channel's priority, or the pavilion traffic's own. -/
def Burst.level (x : Burst) : Nat := if pavTraffic x.ini then 4 else x.prio

/-- How a waiting burst stands in the arbitration of its slot (R348, R333): a burst midway first, then pavilion traffic,
then by priority, and within a level round robin from the initiator `last` that the level served last. -/
def Burst.rank (last : Nat → Nat) (x : Burst) : Nat :=
  if x.midway then 0 else 1 + (4 - x.level) * 64 + (x.ini + 64 - last x.level - 1) % 64

/-- Where the round robin of a level stands for a port and direction. -/
def rrKey (port : Nat) (write : Bool) (level : Nat) : Nat := 8 * (2 * port + ofBool write) + level

/-- A burst may put its first flit (R334, R345, R374): its pool has an id; while the block is shut down, Causeway and the fetches begin
none; and a general channel in ERROR issues nothing. -/
def mayBegin (b : Block) (x : Burst) : Bool :=
  poolFree b x && (match x.owner with
    | .comp .. | .admin .. | .att _ => true
    | .fetch .. | .job .. => !tripped b
    | .general j g .. => !tripped b && decide ((chan b j g).run ≠ 4))

/-- The waiting burst that a port puts a flit of next. -/
def nextBurst (b : Block) (port : Nat) (write : Bool) : Option Nat :=
  let last (level : Nat) : Nat := tget 63 b.rr (rrKey port write level)
  let cand := (b.bursts.zipIdx).filter (fun p =>
    decide (p.1.port = port ∧ p.1.write = write) && p.1.wants && (p.1.id.isSome || mayBegin b p.1))
  (cand.foldl (fun best p =>
    match best with
    | none => some p
    | some q => if p.1.rank last < q.1.rank last then some p else some q) none).map (·.2)

/-- A request that Gatehouse denies is a violation (R392, R393). -/
def logDenied (b : Block) (x : Burst) : Block := logViolation b ⟨x.write, true, x.port, x.ini, x.sec, x.addr, tick32 b, 1⟩

/-- Puts one flit of a port's next burst where a credit allows (R20, R24): a read ask, or a flit of a write burst. A burst is judged as
its first flit is put (R391): one denied then puts nothing. -/
def putFlit (b : Block) (port : Nat) (write : Bool) : Block :=
  let k := 4 * port + (if write then 2 else 0)
  if credit b k = 0 then b
  else
    match nextBurst b port write with
    | none => b
    | some i =>
      match b.bursts[i]? with
      | none => b
      | some x =>
        if x.id.isNone && !regionAdmits b x.addr x.write x.sec then
          logDenied { b with bursts := b.bursts.set i { x with denied := true } } x
        else
          let (id, b) := match x.id with
            | some n => (some n, b)
            | none => pickId b port write
          match id with
          | none => b
          | some n =>
            { b with
              credits := tset 0 b.credits k (credit b k - 1)
              bursts := b.bursts.set i { x with id := some n, put := x.put + 1 }
              rr := if x.midway then b.rr else tput b.rr (rrKey port write x.level) x.ini }

/-- Puts up to n flits of a port's direction. -/
def putFlits : Nat → Nat → Bool → Block → Block
  | 0, _, _, b => b
  | n + 1, port, write, b => putFlits n port write (putFlit b port write)

/-- Everything a port can put with the credits it has; nothing while lx_ready is low (R19). -/
def pump (port : Nat) (write : Bool) (b : Block) : Block :=
  if b.lxReady then putFlits (credit b (4 * port + (if write then 2 else 0)) + b.bursts.length) port write b else b

/-- A read burst to be issued. -/
def mkRead (port ini prio : Nat) (owner : Owner) (addr beats : Nat) (sec : Bool) : Burst :=
  ⟨port, false, owner, ini, prio, addr, beats, sec, none, 0, 0, false, false, false, false, [], []⟩

/-- A write burst to be issued. -/
def mkWrite (port ini prio : Nat) (owner : Owner) (addr : Nat) (data : List Beat) (bmask : List (BitVec 64))
    (sec : Bool) : Burst :=
  ⟨port, true, owner, ini, prio, addr, data.length, sec, none, 0, 0, false, false, false, false, data, bmask⟩

/-- Hands a burst to its port (R391, R392): it waits for the port's slot, where it is judged again, or, denied now, it is logged and
nothing is sent; the answer says whether it was admitted (log entry 99, DEDUCED). -/
def issue (b : Block) (x : Burst) : Bool × Block :=
  if regionAdmits b x.addr x.write x.sec then
    (true, pump x.port x.write { b with bursts := b.bursts ++ [x] })
  else (false, logDenied b x)

/-- Where the bursts of a contiguous transfer start and how many beats each has: 1 to 4 beats, cut at 4 KiB (R21). -/
def cutBursts : Nat → Nat → Nat → List (Nat × Nat)
  | 0, _, _ => []
  | fuel + 1, addr, beats =>
    if beats = 0 then []
    else
      let room := (4096 - addr % 4096) / 64
      let n := max 1 (min (min 4 beats) room)
      (addr, n) :: cutBursts fuel (addr + 64 * n) (beats - n)

/-- The outstanding burst of a port, direction and id. -/
def findBurst (b : Block) (port : Nat) (write : Bool) (id : Nat) : Option (Nat × Burst) :=
  ((b.bursts.zipIdx).find? (fun p => decide (p.1.port = port ∧ p.1.write = write ∧ p.1.id = some id))).map
    (fun p => (p.2, p.1))

/-- A bus error or timeout of a port: SYS_FAB_ERR.PORT_MASK records it (R25, R26). -/
def busError (b : Block) (port : Nat) : Block := rset1 b 0x108 port

/-- A late response for a quarantined id (R26): it is discarded, and with its last beat counted and the id released. -/
def lateResponse (b : Block) (port : Nat) (write : Bool) (id : Nat) : Block :=
  let mine (x : Quar) : Bool := decide (x.port = port ∧ x.write = write ∧ x.id = id)
  match b.quar.find? mine with
  | none => b
  | some x =>
    if 1 < x.beats then { b with quar := b.quar.map (fun y => if mine y then { y with beats := y.beats - 1 } else y) }
    else rinc { b with quar := b.quar.filter (fun y => !mine y) } 0x108 23 16 1

/-- The ids of a port and direction quarantined at once (R26): a write burst still putting its flits when its time is up counts as one. -/
def quarantined (b : Block) (port : Nat) (write : Bool) : Nat :=
  (b.quar.filter (fun x => decide (x.port = port ∧ x.write = write))).length +
    (b.bursts.filter (fun x => decide (x.port = port ∧ x.write = write) && x.timeout && x.id.isSome)).length

/-- The answer the slave port gives: it waits for a credit on RR or WK (R20, R27) and for its data (R414), in order. -/
def putAnswers : Nat → Block → Block
  | 0, b => b
  | n + 1, b =>
    match b.answers with
    | [] => b
    | x :: r =>
      let k := creditKey none (if x.read then 1 else 3)
      if credit b k = 0 ∨ x.held.isSome then b
      else putAnswers n { b with
        answers := r, lastAnswer := some x, credits := tset 0 b.credits k (credit b k - 1) }

/-- Queues an answer and puts what the credits allow. -/
def answer (b : Block) (x : Answer) : Block :=
  let b := { b with answers := b.answers ++ [x] }
  putAnswers b.answers.length b

end Sys2Proof.Machine
end

