-- ==== Sys2Proof/Machine/Port.lean ====
section
/-! DEFINITION. An access at the register slave port (R19, R27, R389): whether it is taken, what it is answered, and the
effect it has when it is admitted. -/

namespace Sys2Proof.Machine

open Sys2Proof

/-- The codes of st (R25). -/
def stDone : BitVec 3 := 0
/-- REFUSED (R25). -/
def stRefused : BitVec 3 := 2

/-- The byte mask fits the address (R27): 0x0F or 0xF0 for 4 B matching address bit 2, 0xFF for 8 B. -/
def maskFits (a : Nat) (mask : BitVec 8) : Bool :=
  (mask == 0x0F && decide (a % 8 = 0)) || (mask == 0xF0 && decide (a % 8 = 4)) ||
    (mask == 0xFF && decide (a % 8 = 0))

/-- The pages that answer while lx_ready is low: SYS and PM (R19). -/
def earlyPage (a : Nat) : Bool := decide (a < 0x1000) || (decide (0x38000 ≤ a) && decide (a < 0x39000))

/-- The port takes an access: out of reset, and fewer than 4 outstanding (R27). -/
def portOpen (b : Block) : Bool := !b.inReset && decide (b.answers.length < 4)

/-- An access to an existing page that Gatehouse admits, and the block with a violation logged where it does not (R6, R19,
R389, R462). -/
def admitted (b : Block) (a : Nat) (write sec : Bool) : Bool × Block :=
  if !b.lxReady && !earlyPage a then (false, b)
  else
    let (ok, b) := slaveGate b a write sec
    (ok && pageImplemented a && !absent b a, b)

/-- A write access: a wrong byte mask is REFUSED without effect; otherwise `h` is its effect where it is admitted, and the
answer is DONE. -/
def portWrite (s : State) (a : Nat) (mask : BitVec 8) (sec : Bool) (h : State → State) : State :=
  if !portOpen s.blk then s
  else if (s.blk.lxReady || earlyPage a) && !maskFits a mask then
    { s with blk := answer s.blk ⟨false, 0, stRefused, none⟩ }
  else
    let (ok, b) := admitted s.blk a true sec
    let s := { s with blk := b }
    let s := if ok then h s else s
    { s with blk := answer s.blk ⟨false, 0, stDone, none⟩ }

/-- A read access whose answer `h` gives, with its effect, where it is admitted; anything else reads as zero. A size that does not
fit the address is REFUSED. -/
def portReadA (s : State) (a : Nat) (size8 sec : Bool) (h : State → Answer × State) : State :=
  if !portOpen s.blk then s
  else if (s.blk.lxReady || earlyPage a) && size8 && !decide (a % 8 = 0) then
    { s with blk := answer s.blk ⟨true, 0, stRefused, none⟩ }
  else
    let (ok, b) := admitted s.blk a false sec
    let s := { s with blk := b }
    let (x, s) := if ok then h s else (⟨true, 0, stDone, none⟩, s)
    { s with blk := answer s.blk x }

/-- A read access whose data `h` gives at once. -/
def portRead (s : State) (a : Nat) (size8 sec : Bool) (h : State → Word64 × State) : State :=
  portReadA s a size8 sec (fun s => (⟨true, (h s).1, stDone, none⟩, (h s).2))

/-- A write access of one 4 B register, its effect on the block alone. -/
def regWrite4 (s : State) (a : Nat) (sec : Bool) (h : Block → Block) : State :=
  portWrite s a (if a % 8 = 0 then 0x0F else 0xF0) sec (fun s => { s with blk := h s.blk })

/-- What a 4 B read puts on the port's 64 data lines: the word in the half that the address names (R27). -/
def laneOfWord (a : Nat) (w : Word) : Word64 :=
  if a % 8 = 0 then (0 : Word) ++ w else w ++ (0 : Word)

/-- The word that a write flit carries for the word address `a`: the half that the address names. -/
def wordOf (a : Nat) (v : Word64) : Word := if a % 8 = 0 then v.extractLsb' 0 32 else v.extractLsb' 32 32

/-- Settles the interrupt router at the end of a command that may also have changed CFLASH. -/
def State.settled (s : State) : Host.Outcome State Fault Refusal := .next { s with blk := settle s.blk }

end Sys2Proof.Machine
end

