-- ==== Sys2Proof/Machine/Rings.lean ====
section
/-! DEFINITION. Submission and completion rings (R63 to R90): indices, doorbells, offering a completion, the holding areas,
the completion-writer arbiter, write responses, and the broken state. -/

namespace Sys2Proof.Machine

open Sys2Proof

/-- The fabric port of pavilion p's traffic (R333). -/
def pavPort (b : Block) (p : Nat) : Nat := p % b.build.juncs

/-- Slots of a submission ring posted and not released (R64). -/
def Sq.posted (q : Sq) : Nat := (q.tail + 2 ^ q.k - q.head) % 2 ^ q.k

/-- Slots of a submission ring posted and not yet fetched. -/
def Sq.unfetched (q : Sq) : Nat := (q.tail + 2 ^ q.k - q.fetch) % 2 ^ q.k

/-- The next slot of a completion ring. -/
def Cq.after (c : Cq) (slot : Nat) : Nat := (slot + 1) % 2 ^ c.k

/-- A completion ring has no room for the writer (R83): slots accepted whose responses are still out count as used, since the writer
may not write one twice (log entry 89, DEDUCED). -/
def Cq.full (c : Cq) : Bool := decide (c.after c.issue = c.head)

/-- The arbiter accepts nothing for a completion ring: it is full or broken (R88, R90). -/
def Cq.blocked (c : Cq) : Bool := c.broken || c.full

/-- PV_SQ_ERR and its word latch a stop or a break, and the pavilion raises its error source (R90, R91, R69). -/
def latchSqErr (b : Block) (p qid : Nat) (admin isCq fetch : Bool) (detail : Nat) (word : Option Word64) : Block :=
  let a := pavReg p 0xC108
  let b := rinc b a 31 24 1
  let b := rputF b a 23 0 (qid % 4096 + 4096 * ofBool admin + 8192 * ofBool isCq + 16384 * ofBool fetch + detail * 65536)
  let b := match word with
    | some w => rput64 b (pavReg p 0xC110) w
    | none => b
  updPav b p (fun x => { x with errRaised := true })

/-- A command stops being outstanding (R61). -/
def retire (b : Block) (c : Nat) : Block := { b with cmds := terase b.cmds c }

/-- Entries of work that lane n holds for completion queue c (R89). -/
def heldFor (b : Block) (n c : Nat) : Nat := ((lane b n).holding.filter (fun x => decide (x.1 = c))).length

/-- LN_HOLD.PER_CQ in force: 1 to 64 (R89). -/
def perCq (b : Block) (n : Nat) : Nat := max 1 (min 64 (rfld b (laneReg n 0xC0) 14 8))

/-- The lane takes new entries for completion queue c (R89). -/
def takesFor (b : Block) (n c : Nat) : Bool :=
  decide (heldFor b n c < perCq b n) && decide ((lane b n).holding.length < 64)

/-- A completion waits for an entry of its lane's holding area, which is full (R88, R89). -/
def waitsToHold (b : Block) (c : Nat) (q : Cq) (x : Compl) : Bool :=
  match x.lane with
  | none => false
  | some n => (q.blocked || (lane b n).holding.any (fun y => decide (y.1 = c))) && decide (64 ≤ (lane b n).holding.length)

/-- Pool entries of lane n that are kept by completions waiting for a holding entry: one for every entry of a chain (R89, R200). -/
def keptPool (b : Block) (n : Nat) : Nat :=
  ((b.cqs.filter (fun x => x.2.live)).map (fun x =>
    ((x.2.wait.filter (waitsToHold b x.1 x.2)).map (fun y => (y.pools.filter (fun m => decide (m = n))).length)).foldl (· + ·) 0)).foldl
    (· + ·) 0

/-- Pool entries of lane n occupied (R200, R89). -/
def poolCount (b : Block) (n : Nat) : Nat :=
  (lane b n).arrive.length + (lane b n).pool.length + keptPool b n

/-- LN_POOL.PEAK follows the count. -/
def notePool (b : Block) (n : Nat) : Block := rmax b (laneReg n 0x148) 24 16 (min 256 (poolCount b n))

/-- One waiting completion of ring c is put in its lane's holding area where R88 gives it an entry and one is free. -/
def holdStep (c : Nat) (blocked : Bool) (acc : Block × List Compl) (x : Compl) : Block × List Compl :=
  match x.lane with
  | none => (acc.1, acc.2 ++ [x])
  | some n =>
    let l := lane acc.1 n
    if (blocked || l.holding.any (fun y => decide (y.1 = c))) && decide (l.holding.length < 64) then
      let b := updLane acc.1 n (fun l => { l with holding := l.holding ++ [(c, x)] })
      (rmax b (laneReg n 0xC0) 22 16 (l.holding.length + 1), acc.2)
    else (acc.1, acc.2 ++ [x])

/-- The completions waiting for ring c take the holding entries that R88 gives them. -/
def rehold (b : Block) (c : Nat) : Block :=
  let q := cq b c
  if q.wait.isEmpty then b
  else
    let (b, w) := q.wait.foldl (holdStep c q.blocked) (b, [])
    updCq b c (fun x => { x with wait := w })

/-- Every ring's waiting completions take holding entries. -/
def reholdAll (b : Block) : Block := each (b.cqs.map (·.1)) rehold b

/-- A completion is offered to the arbiter of its completion queue (R86, R88); one for a queue that is gone is dropped, and
its commands are no longer outstanding (R103, R111). -/
def offer (b : Block) (c : Nat) (x : Compl) : Block :=
  if (cq b c).live then rehold (updCq b c (fun q => { q with wait := q.wait ++ [x] })) c
  else each x.cmds retire b

/-- LATE of a completion accepted now (R47, R82, R197): the due tick of the command it retires has passed. -/
def complLate (b : Block) (x : Compl) : Option Nat :=
  if x.event then none
  else
    match x.cmds with
    | c :: _ =>
      match (cmd b c).due with
      | some d => if d < now b then some (now b - d) else none
      | none => none
    | [] => none

/-- The 32 bytes of a completion (R81). SQ_HEAD of an event whose queue has been deleted meanwhile is that of the queue now under its
number, 0 where there is none (log entry 109, DESIGN CHOICE). -/
def complBytes (b : Block) (x : Compl) (phase : Bool) : List Byte :=
  leBytes 2 x.cid
    ++ leBytes 2 (if x.sq < 4096 then x.sq else 0x8000)
    ++ leBytes 1 x.status ++ leBytes 1 x.detail
    ++ leBytes 1 (ofBool phase + 2 * ofBool (complLate b x).isSome + 4 * ofBool x.event)
    ++ leBytes 1 (min 255 x.retry)
    ++ leBytes 8 x.result.toNat
    ++ leBytes 2 x.maxCorr
    ++ leBytes 2 (sq b x.sq).head
    ++ leBytes 4 (now b)
    ++ leBytes 8 x.aux.toNat

/-- The writer's tail passes the slots whose write responses have returned (R85), and the pages behind it count for
moderation (R380). -/
def ackSlots : Nat → Cq → Cq
  | 0, q => q
  | n + 1, q =>
    if q.acked.contains q.tail then
      ackSlots n { q with
        tail := q.after q.tail
        acked := q.acked.filter (fun s => s != q.tail)
        inFlight := q.inFlight.filter (fun x => x.1 != q.tail) }
    else q

/-- A completion's write response returns (R85): a good one moves the tail past every slot written and counts for the vector (R380).
A completion behind one not yet answered stays in flight, since a failure before it holds it again (R90). -/
def complAck (b : Block) (c slot : Nat) : Block :=
  let b := updCq b c (fun q => ackSlots (q.acked.length + 1) { q with acked := q.acked ++ [slot] })
  countResponse b (cq b c).vector

/-- The number of slots from the tail to a slot. -/
def Cq.ahead (q : Cq) (slot : Nat) : Nat := (slot + 2 ^ q.k - q.tail) % 2 ^ q.k

/-- A completion write fails (R90): the queue is broken. The failed completion and every later one are held again, and the
pavilion latches the queue. PV_SQ_ERR.DETAIL of a break is not stated: 0 (log entry 88, DESIGN CHOICE). -/
def complFail (b : Block) (c slot : Nat) : Block :=
  let q := cq b c
  let back := q.inFlight.filter (fun x => decide (q.ahead slot ≤ q.ahead x.1))
  let b := updCq b c (fun q =>
    { q with
      broken := true
      inFlight := q.inFlight.filter (fun x => decide (q.ahead x.1 < q.ahead slot))
      acked := q.acked.filter (fun s => decide (q.ahead s < q.ahead slot))
      wait := back.map (·.2) ++ q.wait })
  let b := if q.broken then b
    else latchSqErr b q.owner (if c < 2048 then c else 0) (decide (2048 ≤ c)) true false 0 none
  rehold b c

/-- A FAULT_DISCARD (STATUS 0x70) comes after the completions of its queue that were there before it (R437 step 6). -/
def afterOthers (b : Block) (c : Nat) (x : Compl) : Bool :=
  x.event && decide (x.status = 0x70) &&
    (((cq b c).wait.takeWhile (fun y => decide (y ≠ x))).any (fun y => decide (y.sq = x.sq)) ||
      (laneNums b).any (fun n => (lane b n).holding.any (fun y => decide (y.1 = c ∧ y.2.sq = x.sq))))

/-- The oldest completion that a source (lane n, or a pavilion: none) has for ring c, and the block without it (R86). -/
def takeCompl (b : Block) (c : Nat) (src : Option Nat) : Option (Compl × Block) :=
  let fromWait : Option (Compl × Block) :=
    match (cq b c).wait.find? (fun x => decide (x.lane = src)) with
    | none => none
    | some x =>
      if afterOthers b c x then none else some (x, updCq b c (fun q => { q with wait := q.wait.erase x }))
  match src with
  | none => fromWait
  | some n =>
    match (lane b n).holding.find? (fun y => decide (y.1 = c)) with
    | some y => some (y.2, updLane b n (fun l => { l with holding := l.holding.erase y }))
    | none => fromWait

/-- A completion is accepted (R86, R84, R47): it takes the ring's next slot with the writer's phase, its commands are no
longer outstanding, its lateness is counted (R199), and its write is issued. -/
def acceptCompl (b : Block) (c : Nat) (x : Compl) : Block :=
  let q := cq b c
  let slot := q.issue
  let bytes := complBytes b x q.phase
  let b := match x.lane, complLate b x with
    | some n, some late => rmax (rinc b (laneReg n 0x90) 31 0 1) (laneReg n 0x94) 23 0 (min late 0xFFFFFF)
    | _, _ => b
  let b := each x.cmds retire b
  let b := updCq b c (fun q =>
    { q with
      issue := q.after slot
      phase := if q.after slot = 0 then !q.phase else q.phase
      inFlight := q.inFlight ++ [(slot, x)] })
  let b := if c < 2048 then updSq b x.sq (fun s => { s with held := s.held && !decide (x.lane = none ∧ x.event = false) })
    else b
  let data : Beat := BitVec.ofNat 512 (leNat bytes * 2 ^ (256 * (slot % 2)))
  let mask : BitVec 64 := BitVec.ofNat 64 (0xFFFFFFFF * 2 ^ (32 * (slot % 2)))
  let (sent, b) := issue b (mkWrite (pavPort b q.owner) (24 + q.owner) 3 (.comp c slot) (q.base + 64 * (slot / 2))
    [data] [mask] (pavSec b q.owner))
  let b := if sent then b else complAck b c slot
  reholdAll b

/-- The arbiter of ring c accepts the oldest completion of a source, when the ring has room and is not broken (R86, R88,
R90). -/
def completionAccept (c src : Nat) (b : Block) : Block :=
  let q := cq b c
  if !q.live || q.blocked || b.inReset || (faulted b && !b.lxReady) || decide (powerState b ≠ 0) then b
  else
    match takeCompl b c (if src < 64 then some src else none) with
    | none => b
    | some (x, b) => acceptCompl b c x

/-- COMPLETION_ACCEPT. -/
def execCompletionAccept (cq src : Nat) (s : State) : Host.Outcome State Fault Refusal :=
  s.act (completionAccept cq src)

/-- The key of a doorbell's submission queue: the admin queue where none is named (R70). -/
def sqKey (p : Nat) (q : Option Nat) : Nat := q.getD (4096 + p)

/-- The key of a doorbell's completion queue. -/
def cqKey (p : Nat) (q : Option Nat) : Nat := q.getD (2048 + p)

/-- An ignored doorbell write is latched, counted, and raises the pavilion's error source (R71). -/
def doorbellErr (b : Block) (p : Nat) (q : Option Nat) (isCq : Bool) (v : Word) (cause : Nat) : Block :=
  let b := rput b (pavReg p 0xC100) (BitVec.ofNat 32
    (v.toNat % 65536 + (q.getD 0) % 4096 * 2 ^ 16 + ofBool isCq * 2 ^ 28 + ofBool q.isNone * 2 ^ 29 + cause * 2 ^ 30))
  let b := rinc b (pavReg p 0xC104) 15 0 1
  updPav b p (fun x => { x with errRaised := true })

/-- PS2 is to be left: PM_WAKE's bit, kept until the exit (R447; it reads 0). -/
def wakePs2 (b : Block) : Block := if powerState b = 2 then rset1 b 0x38008 0 else b

/-- The check of a submission doorbell (R71): the cause of its failure, none where it passes. -/
def sqDoorbellCause (b : Block) (p : Nat) (q : Option Nat) (v : Word) : Option Nat :=
  let x := sq b (sqKey p q)
  let t := v.toNat % 65536
  if !x.live || decide (x.owner ≠ p) || x.deleting || !rbit b (pavReg p 0xD000) 0 then some 0
  else if 65536 ≤ v.toNat ∨ 2 ^ x.k ≤ t then some 1
  else if (x.head + 2 ^ x.k - x.tail - 1) % 2 ^ x.k < (t + 2 ^ x.k - x.tail) % 2 ^ x.k then some 2
  else none

/-- The effect of a submission doorbell write (R71, R72, R447). -/
def sqDoorbell (p : Nat) (q : Option Nat) (v : Word) (b : Block) : Block :=
  match sqDoorbellCause b p q v with
  | some c => doorbellErr b p q false v c
  | none => wakePs2 (updSq b (sqKey p q) (fun x => { x with tail := v.toNat % 65536 }))

/-- The check of a completion doorbell (R71). -/
def cqDoorbellCause (b : Block) (p : Nat) (q : Option Nat) (v : Word) : Option Nat :=
  let x := cq b (cqKey p q)
  let t := v.toNat % 65536
  if !x.live || decide (x.owner ≠ p) then some 0
  else if 65536 ≤ v.toNat ∨ 2 ^ x.k ≤ t then some 1
  else if (x.tail + 2 ^ x.k - x.head) % 2 ^ x.k < (t + 2 ^ x.k - x.head) % 2 ^ x.k then some 2
  else none

/-- The effect of a completion doorbell write (R71, R87, R447). -/
def cqDoorbell (p : Nat) (q : Option Nat) (v : Word) (b : Block) : Block :=
  match cqDoorbellCause b p q v with
  | some c => doorbellErr b p q true v c
  | none => wakePs2 (updCq b (cqKey p q) (fun x => { x with head := v.toNat % 65536 }))

/-- The address of a submission doorbell (R70). -/
def sqDbAddr (p : Nat) (q : Option Nat) : Nat :=
  match q with
  | some q => pavReg p (8 * q)
  | none => pavReg p 0xC000

/-- The address of a completion doorbell (R70). -/
def cqDbAddr (p : Nat) (q : Option Nat) : Nat :=
  match q with
  | some q => pavReg p (0x8000 + 8 * q)
  | none => pavReg p 0xC008

/-- SQ_DOORBELL. -/
def execSqDoorbell (p : Nat) (q : Option Nat) (v : Word) (sec : Bool) (s : State) : Host.Outcome State Fault Refusal :=
  (regWrite4 s (sqDbAddr p q) sec (sqDoorbell p q v)).settled

/-- CQ_DOORBELL. -/
def execCqDoorbell (p : Nat) (q : Option Nat) (v : Word) (sec : Bool) (s : State) : Host.Outcome State Fault Refusal :=
  (regWrite4 s (cqDbAddr p q) sec (cqDoorbell p q v)).settled

end Sys2Proof.Machine
end

