-- ==== Sys2Proof/Machine/Family.lean ====
section
/-! DEFINITION. The die-family tables (R253 to R255) and recovery sets (R300 to R302) the block holds, their checks, and the
lane's die map (R232) and row addresses (R233). -/

namespace Sys2Proof.Machine

open Sys2Proof

/-- A word of the block's copy of the family tables, by its byte offset; a word that is not listed reads all ones, as an
erased CFLASH does. -/
def famWord (b : Block) (f o : Nat) : Word := tget 0xFFFFFFFF b.tbl (0x400 * f + o / 4 * 4)

/-- Byte o of family f's table. -/
def fam8 (b : Block) (f o : Nat) : Nat := bitsOf (famWord b f o).toNat (8 * (o % 4) + 7) (8 * (o % 4))
/-- Two bytes of family f's table. -/
def fam16 (b : Block) (f o : Nat) : Nat := fam8 b f o + 256 * fam8 b f (o + 1)
/-- Four bytes of family f's table. -/
def fam32 (b : Block) (f o : Nat) : Nat := fam16 b f o + 65536 * fam16 b f (o + 2)
/-- Bytes of family f's table. -/
def famBytes (b : Block) (f o n : Nat) : List Byte := (List.range n).map (fun i => BitVec.ofNat 8 (fam8 b f (o + i)))

/-- PLANES. -/
def planesOf (b : Block) (f : Nat) : Nat := fam8 b f 0x40
/-- MP_MAX. -/
def mpMax (b : Block) (f : Nat) : Nat := fam8 b f 0x41
/-- CPP, codewords per page. -/
def cppOf (b : Block) (f : Nat) : Nat := fam8 b f 0x42
/-- WL_PAGES, pages per wordline. -/
def wlPages (b : Block) (f : Nat) : Nat := max 1 (fam8 b f 0x43)
/-- PAGES, pages per unit. -/
def pagesOf (b : Block) (f : Nat) : Nat := fam16 b f 0x44
/-- UNITS, blocks per plane. -/
def unitsOf (b : Block) (f : Nat) : Nat := fam16 b f 0x46
/-- PAGE_BYTES. -/
def pageBytes (b : Block) (f : Nat) : Nat := fam32 b f 0x48
/-- LUNS_PER_CE. -/
def lunsPerCe (b : Block) (f : Nat) : Nat := fam8 b f 0x4C
/-- ADDR_COL. -/
def addrCol (b : Block) (f : Nat) : Nat := fam8 b f 0x4D
/-- ADDR_ROW. -/
def addrRow (b : Block) (f : Nat) : Nat := fam8 b f 0x4E
/-- A bit of OPTIONS: 0 SCA, 1 LUN_FEAT, 2 CACHE_READ, 3 PARAM_PAGE, 4 RB_USE, 5 ZQ, 6 DCC, 7 WR_TRAIN, 8 SUSP_ROW. -/
def famOption (b : Block) (f i : Nat) : Bool := (fam16 b f 0x64).testBit i
/-- CW_BYTES, by the parity profile (R257). -/
def cwLen (b : Block) (f : Nat) : Nat := cwBytes (fam8 b f 0x1E0)
/-- ORDER. -/
def orderOf (b : Block) (f : Nat) : Nat := fam8 b f 0x130
/-- PASSES. -/
def passesOf (b : Block) (f : Nat) : Nat := fam8 b f 0x131
/-- Typical time of pass n in ns, n from 1. -/
def tPass (b : Block) (f n : Nat) : Nat := fam32 b f (0x14C + 4 * (n - 1))
/-- Token cost: 0 read, 1 cache read, 2 soft read, 3 to 5 passes, 6 erase, 7 resume. -/
def tokenCost (b : Block) (f i : Nat) : Nat := fam16 b f (0x1A0 + 2 * i)
/-- Entry i of the timing set of band t: TIMING_X where X_BANDS names the band. -/
def timing (b : Block) (f band i : Nat) : Nat :=
  fam16 b f ((if (fam8 b f 0x100).testBit band then 0xC0 else 0x80) + 2 * i)
/-- A feature address the lane owns (R184). -/
def ownedFeature (b : Block) (f a : Nat) : Bool := (fam8 b f (0x200 + a / 8)).testBit (a % 8)
/-- The replacement of an ONFI command byte by CMD_OVR. -/
def cmdOverride (b : Block) (f x : Nat) : Nat :=
  let pairs := (List.range 8).map (fun i => (fam8 b f (0x110 + 2 * i), fam8 b f (0x111 + 2 * i)))
  let live := pairs.takeWhile (fun p => decide (p ≠ (0, 0)))
  match live.find? (fun p => decide (p.1 = x)) with
  | some p => p.2
  | none => x

/-- A word of family f's recovery set by its offset in the view of R466: the ROT from 0, the ladder block from 0x8000, the
trim block from 0x9000. -/
def recWord (b : Block) (f o : Nat) : Word := tget 0xFFFFFFFF b.rset (0x9400 * f + o / 4 * 4)
/-- A byte of the recovery set. -/
def rec8 (b : Block) (f o : Nat) : Nat := bitsOf (recWord b f o).toNat (8 * (o % 4) + 7) (8 * (o % 4))
/-- Bytes of the recovery set. -/
def recBytes (b : Block) (f o n : Nat) : List Byte := (List.range n).map (fun i => BitVec.ofNat 8 (rec8 b f (o + i)))
/-- The block holds a recovery set for family f: SYS_TBL_SEL.RSET (R464). -/
def recHeld (b : Block) (f : Nat) : Bool := rbit b 0x8 (16 + f)
/-- NLEVELS of the ladder block (R301). -/
def nLevels (b : Block) (f : Nat) : Nat := rec8 b f 0x8004
/-- OFS_FADDR i: the feature address carrying levels 4 i + 1 to 4 i + 4. -/
def ofsFaddr (b : Block) (f i : Nat) : Nat := rec8 b f (0x8008 + i)
/-- SOFT_D i, i from 1. -/
def softD (b : Block) (f i : Nat) : Nat := rec8 b f (0x800C + i - 1)
/-- LAD_LEN of a ladder. -/
def ladLen (b : Block) (f l : Nat) : Nat := rec8 b f (0x8018 + l)
/-- The 15 signed deltas of a ladder step, from 1. -/
def ladderStep (b : Block) (f l s : Nat) : List Int :=
  (List.range 15).map (fun i => sbyte (rec8 b f (0x8040 + 256 * l + 16 * (s - 1) + i)))
/-- The 15 signed offsets of a ROT entry, and its ladder (R302). -/
def rotEntry (b : Block) (f p r a w : Nat) : List Int × Nat :=
  let o := 16 * (((p * 8 + r) * 8 + a) * 4 + w)
  ((List.range 15).map (fun i => sbyte (rec8 b f (o + i))), rec8 b f (o + 15))
/-- The records of a trim set (R302): feature addresses with their four parameters. -/
def trimSet (b : Block) (f pband wear : Nat) : List (Nat × Word) :=
  let o := 0x9000 + 32 * (pband * 4 + wear)
  ((List.range 4).map (fun i => (rec8 b f (o + 5 * i),
    BitVec.ofNat 32 (leNat (recBytes b f (o + 5 * i + 1) 4))))).takeWhile (fun p => decide (p.1 ≠ 0))

/-- The byte ranges of a family table that hold a field (R255): offset and length. -/
def famFields : List (Nat × Nat) := [
  (0x000, 7), (0x008, 40), (0x040, 18), (0x060, 8), (0x068, 16), (0x080, 129), (0x110, 16), (0x120, 18), (0x140, 65),
  (0x184, 18), (0x1A0, 16), (0x1C0, 23), (0x1E0, 16), (0x200, 35), (0x3FC, 4)]

/-- Every reserved byte of a family table is zero (R255). -/
def famReservedOk (b : Block) (f : Nat) : Bool :=
  (List.range 1024).all (fun o =>
    famFields.any (fun r => decide (r.1 ≤ o ∧ o < r.1 + r.2)) || decide (fam8 b f o = 0))

/-- x lies in a range. -/
def inRange (x lo hi : Nat) : Bool := decide (lo ≤ x ∧ x ≤ hi)

/-- The bits a LUN number takes. -/
def lunBits (luns : Nat) : Nat := if luns ≤ 1 then 0 else if luns = 2 then 1 else 2

/-- Every field of a family table is within its range (R254, R255, R257). -/
def famFieldsOk (b : Block) (f : Nat) : Bool :=
  let pl := planesOf b f
  (decide (pl = 1) || decide (pl = 2) || decide (pl = 4) || decide (pl = 8)) &&
  decide (fam16 b f 4 = 1) && decide (fam8 b f 6 = f) &&
  inRange (mpMax b f) 1 pl && inRange (cppOf b f) 1 8 && inRange (fam8 b f 0x43) 1 5 &&
  inRange (pagesOf b f) 1 16384 && decide (pagesOf b f % wlPages b f = 0) && inRange (unitsOf b f) 1 8192 &&
  inRange (fam8 b f 0x1E0) 0 4 && decide (cppOf b f * cwLen b f ≤ pageBytes b f) &&
  inRange (lunsPerCe b f) 1 4 && decide (addrCol b f = 2) && inRange (addrRow b f) 3 4 &&
  decide (fam8 b f 0x4F + fam8 b f 0x50 + fam8 b f 0x51 + lunBits (lunsPerCe b f) ≤ 8 * addrRow b f) &&
  inRange (fam8 b f 0x61) 0 1 && inRange (fam16 b f 0x62) 10 6400 && decide (fam16 b f 0x64 < 512) &&
  inRange (fam16 b f 0x66) 1 1024 && inRange (orderOf b f) 0 3 &&
  decide (passesOf b f = (if orderOf b f = 0 then 1 else if orderOf b f = 3 then 3 else 2)) &&
  inRange (fam8 b f 0x180) 0 3 && inRange (fam8 b f 0x194) 1 255 && inRange (fam8 b f 0x195) 1 255 &&
  inRange (fam16 b f 0x1C0) 1 (pagesOf b f) && decide (fam16 b f 0x1C2 < fam16 b f 0x1C4) &&
  inRange (fam8 b f 0x1E1) 1 16 && inRange (fam8 b f 0x221) 1 255 && inRange (fam8 b f 0x222) 8 64 &&
  famReservedOk b f

/-- The recovery set of family f passes its part of the check (R300, R301, R302). -/
def recoveryOk (b : Block) (f : Nat) : Bool :=
  let ref (i : Nat) := fam32 b f (0x1E4 + 4 * i)
  let nl := nLevels b f
  let nlad := rec8 b f 0x8005
  recHeld b f &&
  decide (ref 0 % 4096 = 0 ∧ ref 1 % 4096 = 0 ∧ ref 2 % 4096 = 0) &&
  decide (ref 0 + 32768 ≤ 0x400000 ∧ ref 1 + 4096 ≤ 0x400000 ∧ ref 2 + 1024 ≤ 0x400000) &&
  decide (recBytes b f 0x8000 4 = [0x4C, 0x58, 0x52, 0x4C]) &&
  inRange nl 1 15 && inRange nlad 1 8 && inRange (rec8 b f 0x8006) 0 7 && decide (rec8 b f 0x8007 = 0) &&
  (List.range 4).all (fun i => ownedFeature b f (ofsFaddr b f i)) &&
  decide (1 ≤ softD b f 1 ∧ softD b f 1 < softD b f 2 ∧ softD b f 2 < softD b f 3 ∧ softD b f 3 ≤ 64) &&
  decide (rec8 b f 0x800F = 0) &&
  (List.range 8).all (fun l => if l < nlad then inRange (ladLen b f l) 1 16 else decide (ladLen b f l = 0)) &&
  (List.range 128).all (fun x => (List.range 16).all (fun i =>
    decide (i < nl) || decide (rec8 b f (0x8040 + 16 * x + i) = 0))) &&
  (List.range 32).all (fun i => decide (rec8 b f (0x8020 + i) = 0)) &&
  (List.range (0xFFC - 0x840)).all (fun i => decide (rec8 b f (0x8840 + i) = 0)) &&
  (List.range 2048).all (fun x => decide (rec8 b f (16 * x + 15) < nlad) &&
    (List.range 15).all (fun i => decide (i < nl) || decide (rec8 b f (16 * x + i) = 0))) &&
  decide (leNat (recBytes b f 0x8FFC 4) = crc32c (recBytes b f 0x8000 0xFFC)) &&
  decide (leNat (recBytes b f 0x8010 4) = crc32c (recBytes b f 0 0x8000)) &&
  decide (leNat (recBytes b f 0x8014 4) = crc32c (recBytes b f 0x9000 0x400))

/-- The check a lane makes of a family's table at its start (R254, R300). -/
def familyOk (b : Block) (f : Nat) : Bool :=
  decide (famBytes b f 0 4 = [0x4C, 0x58, 0x46, 0x54]) && decide (fam32 b f 0x3FC = crc32c (famBytes b f 0 0x3FC)) &&
    famFieldsOk b f && recoveryOk b f

/-- LN_DIE_MAPd of lane n as it is in effect: the entry that the lane's start took, with the status bits of now (R229). -/
def dieMap (b : Block) (n d : Nat) : Word :=
  (rget b (laneReg n (0x400 + 4 * d)) &&& 0xFFFFE000) ||| (tget 0 b.maps (64 * n + d) &&& 0x1FFF)
/-- Die d is in the die map of lane n (R232). -/
def dieValid (b : Block) (n d : Nat) : Bool := decide (d < 64) && (dieMap b n d).getLsbD 12
/-- The family of die d of lane n. -/
def dieFamily (b : Block) (n d : Nat) : Nat := fld (dieMap b n d) 11 8
/-- The chip enable of die d. -/
def dieCe (b : Block) (n d : Nat) : Nat := fld (dieMap b n d) 3 0
/-- The LUN of die d. -/
def dieLun (b : Block) (n d : Nat) : Nat := fld (dieMap b n d) 5 4
/-- Die d is offline (R243). -/
def dieOffline (b : Block) (n d : Nat) : Bool := (dieMap b n d).getLsbD 13
/-- Die d is in service: TRAINED (R245). -/
def dieInService (b : Block) (n d : Nat) : Bool := dieValid b n d && (dieMap b n d).getLsbD 14
/-- The dies in the die map of lane n. -/
def validDies (b : Block) (n : Nat) : List Nat := (List.range 64).filter (dieValid b n)
/-- The families that valid entries of lane n's die map name, in increasing number. -/
def laneFamilies (b : Block) (n : Nat) : List Nat :=
  (List.range 16).filter (fun f => (validDies b n).any (fun d => decide (dieFamily b n d = f)))
/-- The planes an instruction addresses, in increasing order: those of its mask, or the unit's own (R125). -/
def planeList (planes unit : Nat) : List Nat :=
  if planes = 0 then [unit % 8] else (List.range 8).filter (fun p => planes.testBit p)

/-- The row address of a page (R233). -/
def rowAddress (b : Block) (f lun unit page : Nat) : Nat :=
  let pb := fam8 b f 0x4F
  let plb := fam8 b f 0x50
  let bb := fam8 b f 0x51
  page ||| ((unit % 8) <<< pb) ||| ((unit / 8) <<< (pb + plb)) ||| (lun <<< (pb + plb + bb))

/-- Some started lane has a die of family f in service (R253). -/
def familyInUse (b : Block) (f : Nat) : Bool :=
  (laneNums b).any (fun n => laneStarted b n && (List.range 64).any (fun d =>
    dieInService b n d && decide (dieFamily b n d = f)))

end Sys2Proof.Machine
end

