-- ==== Sys2Proof/Machine/Operands.lean ====
section
/-! DEFINITION. The instructions of a work entry: opcodes and fields (R107, R133 to R193), the lane an instruction names
(R126, R171), and the operand checks of R128 and R170 with their order. -/

namespace Sys2Proof.Machine

open Sys2Proof

/-- Opcodes of the tenant and service instructions. -/
def opRead : Nat := 0x01
/-- PROG. -/
def opProg : Nat := 0x08
/-- APPEND. -/
def opAppend : Nat := 0x09
/-- ERASE. -/
def opErase : Nat := 0x0C
/-- ERASE.VERIFY. -/
def opVerify : Nat := 0x0D
/-- RELOCATE. -/
def opReloc : Nat := 0x10
/-- SAMPLE. -/
def opSample : Nat := 0x11
/-- FENCE. -/
def opFence : Nat := 0x20
/-- WAIT. -/
def opWait : Nat := 0x21
/-- SIGNAL. -/
def opSignal : Nat := 0x22
/-- FEATURE.GET. -/
def opFeatGet : Nat := 0x28
/-- FEATURE.SET. -/
def opFeatSet : Nat := 0x29
/-- DIE.STATUS. -/
def opDieStatus : Nat := 0x2A
/-- TRAIN. -/
def opTrain : Nat := 0x30
/-- RAW. -/
def opRaw : Nat := 0x31
/-- NOP. -/
def opNop : Nat := 0x38

/-- The opcodes a tenant or service queue may carry. -/
def tenantOps : List Nat :=
  [opRead, opProg, opAppend, opErase, opVerify, opReloc, opSample, opFence, opWait, opSignal, opFeatGet, opFeatSet,
   opDieStatus, opTrain, opRaw, opNop]

/-- The opcodes an admin queue may carry (R107 to R118). -/
def adminOps : List Nat :=
  [0x80, 0x81, 0x82, 0x83, 0x84, 0x88, 0x90, 0x91, 0x92, 0x93, 0x98, 0x99, 0x9A, 0xA0, 0xA8]

/-- Status codes (R195). -/
def stOk : Nat := 0x00
/-- OK_WARN. -/
def stWarn : Nat := 0x01
/-- PAGE_ERASED. -/
def stErased : Nat := 0x10
/-- UNCORRECTABLE. -/
def stUncorr : Nat := 0x11
/-- TENANT_MISMATCH. -/
def stMismatch : Nat := 0x12
/-- ERASE_PENDING. -/
def stErasePending : Nat := 0x13
/-- PAGE_BUSY. -/
def stPageBusy : Nat := 0x14
/-- PROGRAM_FAILED. -/
def stProgFailed : Nat := 0x15
/-- ERASE_FAILED. -/
def stEraseFailed : Nat := 0x16
/-- ERASE_INCOMPLETE. -/
def stEraseIncomplete : Nat := 0x17
/-- ABORTED. -/
def stAborted : Nat := 0x20
/-- ABORT_TOO_LATE. -/
def stTooLate : Nat := 0x21
/-- ABORT_NOT_FOUND. -/
def stNotFound : Nat := 0x22
/-- DMA_FAULT. -/
def stDma : Nat := 0x30
/-- STRIPE_FULL. -/
def stStripeFull : Nat := 0x50
/-- STRIPE_CLOSED. -/
def stStripeClosed : Nat := 0x51
/-- NO_RESOURCE. -/
def stNoResource : Nat := 0x60
/-- INVALID_FIELD. -/
def stInvalid : Nat := 0x61
/-- FAULT_DISCARD. -/
def stDiscard : Nat := 0x70
/-- MALFORMED. -/
def stMalformed : Nat := 0x71

/-- A status is a success (R195). -/
def success (st : Nat) : Bool := decide (st ≤ 1)

/-- The opcode of an instruction. -/
def iOp (x : List Byte) : Nat := byteAt x 0
/-- NU. -/
def iNu (x : List Byte) : Nat := byteAt x 1
/-- The option byte. -/
def iOpt (x : List Byte) (i : Nat) : Bool := (byteAt x 2).testBit i
/-- MODE of a READ (R135). -/
def readMode (x : List Byte) : Nat := byteAt x 2 / 4 % 4
/-- MODE of a RELOCATE (R161). -/
def relocMode (x : List Byte) : Nat := byteAt x 2 % 4
/-- PLACE of a RELOCATE. -/
def relocPlace (x : List Byte) : Bool := iOpt x 2
/-- NCW, or N, or NCYC. -/
def iCount (x : List Byte) : Nat := byteAt x 3
/-- The PA in bytes 15:8. -/
def iPa (x : List Byte) : Nat := fieldAt x 8 8
/-- The host address in bytes 23:16. -/
def iAddr (x : List Byte) : Nat := fieldAt x 16 8
/-- Bytes 31:24: META of a READ, HTAG of a PROG. -/
def iWord3 (x : List Byte) : Nat := fieldAt x 24 8
/-- Source i of a RELOCATE. -/
def relocSrc (x : List Byte) (i : Nat) : Nat := fieldAt x (32 + 8 * i) 8
/-- The sources of a RELOCATE in modes 0 and 1. -/
def relocSrcs (x : List Byte) : List Nat :=
  if relocMode x ≤ 1 then (List.range (min 8 (iCount x))).map (relocSrc x) else []
/-- WEAR of an instruction. -/
def iWear (x : List Byte) : Nat := byteAt x 5 % 4

/-- The instruction places its page in a stripe: APPEND, or RELOCATE with PLACE in mode 0 or 2 (R150, R162). -/
def places (x : List Byte) : Bool :=
  decide (iOp x = opAppend) ||
    (decide (iOp x = opReloc) && relocPlace x && (decide (relocMode x = 0) || decide (relocMode x = 2)))

/-- The stripe it names. -/
def iStripe (x : List Byte) : Nat := if iOp x = opAppend then byteAt x 2 else byteAt x 4

/-- The instruction programs a page: PROG, APPEND, or RELOCATE in mode 0 or 2. -/
def programs (x : List Byte) : Bool :=
  decide (iOp x = opProg) || decide (iOp x = opAppend) ||
    (decide (iOp x = opReloc) && decide (relocMode x ≠ 1))

/-- NU that the encoding requires (R128 step 1). The reserved MODE 3 of RELOCATE has the NU of modes 0 and 1, and its bytes beyond the
sources are reserved as theirs are: the spec does not say (log entry 95, DESIGN CHOICE). -/
def nuWanted (x : List Byte) : Nat :=
  if iOp x = opReloc then (if relocMode x = 2 then 2 else 2 + (iCount x + 1) / 2)
  else if iOp x = opRaw then 2 + (iCount x + 7) / 8
  else if iOp x = opRead ∨ iOp x = opProg ∨ iOp x = opAppend then 4
  else if iOp x = opSample then 3
  else if iOp x = opFence ∨ iOp x = opWait ∨ iOp x = opSignal ∨ iOp x = opNop then 1
  else 2

/-- The offset of the PA by which an instruction names a lane or die (R124, R161); the LANE byte of a WAIT or SIGNAL. -/
def paOffset (x : List Byte) : Nat :=
  if iOp x = opReloc then (if relocMode x = 2 then 8 else 32)
  else if iOp x = opWait ∨ iOp x = opSignal then 3
  else 8

/-- The instruction carries a PA in bytes 15:8. -/
def hasPa (x : List Byte) : Bool :=
  [opRead, opProg, opErase, opVerify, opSample, opFeatGet, opFeatSet, opDieStatus, opTrain, opRaw].contains (iOp x)

/-- The lane an instruction names for routing (R126, R171). APPEND, and mode 2 with PLACE, name the lane of their stripe and
are treated apart. -/
def namesLane (x : List Byte) : Option Nat :=
  if hasPa x then some (paLane (iPa x))
  else if iOp x = opReloc then
    if relocMode x ≤ 1 ∧ 0 < iCount x then some (paLane (relocSrc x 0))
    else if relocMode x = 2 ∧ !relocPlace x then some (paLane (iPa x))
    else none
  else if iOp x = opWait ∨ iOp x = opSignal then some (byteAt x 3 % 64)
  else none

/-- Every lane that an instruction names, by a PA or by the LANE byte of a WAIT or SIGNAL, with the operand's offset (R7, R126). -/
def namedLanes (x : List Byte) : List (Nat × Nat) :=
  if hasPa x then [(8, paLane (iPa x))]
  else if iOp x = opReloc then
    (if (relocMode x = 0 ∨ relocMode x = 2) ∧ !relocPlace x then [(8, paLane (iPa x))] else []) ++
      (relocSrcs x).zipIdx.map (fun s => (32 + 8 * s.2, paLane s.1))
  else if iOp x = opWait ∨ iOp x = opSignal then [(3, byteAt x 3 % 64)]
  else []

/-- The instruction chooses its lane by its stripe (R126, R151). -/
def stripeLane (x : List Byte) : Bool :=
  decide (iOp x = opAppend) || (decide (iOp x = opReloc) && relocPlace x && decide (relocMode x = 2))

/-- The bits of byte o that an encoding gives a field, or leaves to a field its options enable; every other bit is reserved
(R128 step 2). A RELOCATE has at most eight sources: the bytes behind the eighth are reserved whatever its N (log entry 95, DESIGN CHOICE). -/
def fieldBits (x : List Byte) (o : Nat) : Nat :=
  let op := iOp x
  let all := 0xFF
  let pa := decide (8 ≤ o ∧ o < 16)
  let w2 := decide (16 ≤ o ∧ o < 24)
  let w3 := decide (24 ≤ o ∧ o < 32)
  if o < 2 then all
  else if op = opRead then
    if o = 2 then 0x1F else if o = 3 ∨ o = 4 ∨ o = 6 then all else if o = 5 then 3
    else if pa || w2 then all
    else if w3 then (if iOpt x 0 then all else 0)
    else if 32 ≤ o ∧ o < 40 then (if iOpt x 4 then all else 0) else 0
  else if op = opProg then
    if o = 2 then 1 else if o = 4 then all else if o = 5 then 3
    else if pa || w2 || w3 then all else if 32 ≤ o ∧ o < 36 then all else 0
  else if op = opAppend then
    if o = 2 then all else if o = 5 then 3 else if w2 || w3 then all else if 32 ≤ o ∧ o < 36 then all else 0
  else if op = opErase then if o = 4 then all else if o = 5 then 3 else if pa then all else 0
  else if op = opVerify then if o = 2 then 1 else if o = 5 then 3 else if pa then all else 0
  else if op = opReloc then
    let m := relocMode x
    if o = 2 then 7 else if o = 3 then all
    else if o = 4 then (if relocPlace x then all else 0)
    else if o = 5 then 0xF
    else if pa then (if m = 1 ∨ relocPlace x then 0 else all)
    else if w2 then (if m = 0 then 0 else all)
    else if m ≤ 1 ∧ 32 ≤ o ∧ o < 32 + 8 * min 8 (iCount x) then all else 0
  else if op = opSample then
    if o = 2 then 3 else if o = 3 ∨ o = 4 ∨ o = 6 then all else if o = 5 then 3
    else if pa then all else if w2 then (if iOpt x 1 then all else 0) else 0
  else if op = opFence then if o = 2 then 1 else 0
  else if op = opWait then
    if o = 3 then 0x3F else if o = 4 then 0xF else if 8 ≤ o ∧ o < 14 then all else 0
  else if op = opSignal then
    if o = 2 then 1 else if o = 3 then 0x3F else if o = 4 then 0xF else if o = 5 then all else 0
  else if op = opFeatGet ∨ op = opFeatSet then
    if o = 2 then 1 else if o = 3 then all else if pa then all
    else if 16 ≤ o ∧ o < 20 then (if op = opFeatSet then all else 0) else 0
  else if op = opDieStatus then if pa then all else 0
  else if op = opTrain then if o = 2 then 3 else if pa then all else 0
  else if op = opRaw then
    if o = 3 then all else if pa || w2 then all
    else if 32 ≤ o ∧ o < 32 + 2 * iCount x then all else 0
  else 0

/-- The offset of the field that byte o is part of (R128): an operand that an option or a mode turns off is still one field. -/
def fieldOffset (x : List Byte) (o : Nat) : Nat :=
  let op := iOp x
  if op = opRead ∧ 24 ≤ o ∧ o < 40 then 8 * (o / 8)
  else if op = opReloc ∧ 8 ≤ o ∧ o < 24 then 8 * (o / 8)
  else if op = opSample ∧ 16 ≤ o ∧ o < 24 then 16
  else if op = opFeatGet ∧ 16 ≤ o ∧ o < 20 then 16
  else o

/-- The offset of the first field with a reserved bit set; reserved bytes report the first of them that is set (R128 step 2). -/
def reservedAt (x : List Byte) : Option Nat :=
  ((List.range x.length).find? (fun o => decide (byteAt x o &&& (0xFF - fieldBits x o) ≠ 0))).map (fieldOffset x)

/-- The control instructions' PA fields that must be zero, with reason 7 (R183, R187, R188, R190). -/
def ctlPaZero (x : List Byte) : Bool :=
  let a := iPa x
  let base := decide (paSlot a = 0 ∧ paPage a = 0 ∧ paUnit a = 0)
  if iOp x = opFeatGet ∨ iOp x = opFeatSet ∨ iOp x = opDieStatus ∨ iOp x = opRaw then base
  else if iOp x = opTrain then base && (!iOpt x 0 || decide (paDie a = 0))
  else true

/-- A cycle record of a RAW is valid (R190): `stats` counts the STATUS records before it. -/
def rawRecordOk (x : List Byte) (i stats : Nat) : Bool :=
  let t := byteAt x (32 + 2 * i)
  let v := byteAt x (33 + 2 * i)
  if t = 1 ∨ t = 2 then true
  else if t = 3 ∨ t = 4 then decide (0 < v) && decide (iAddr x ≠ 0)
  else if t = 5 ∨ t = 6 then decide (0 < v)
  else if t = 7 then decide (stats < 8)
  else false

/-- STATUS records before record i. -/
def rawStats (x : List Byte) (i : Nat) : Nat :=
  ((List.range i).filter (fun k => decide (byteAt x (32 + 2 * k) = 7))).length

/-- The first invalid option value: its offset and reason (R128 step 3). -/
def optionFail (x : List Byte) : Option (Nat × Nat) :=
  let op := iOp x
  if op = opRead ∨ op = opSample then
    if iCount x = 0 ∨ 8 < iCount x then some (3, 6) else if 16 < byteAt x 6 then some (6, 6) else none
  else if op = opReloc then
    if relocMode x = 3 ∨ (relocPlace x ∧ relocMode x = 1) then some (2, 6)
    else if iCount x = 0 ∨ 8 < iCount x then some (3, 6) else none
  else if op = opSignal then if byteAt x 5 = 0 then some (5, 6) else none
  else if op = opRaw then
    if iCount x = 0 ∨ 64 < iCount x then some (3, 6)
    else match (List.range (iCount x)).find? (fun i => !rawRecordOk x i (rawStats x i)) with
      | some i => some (32 + 2 * i, 6)
      | none => none
  else none

/-- Steps 1 to 3 of R128: NU, reserved bits, options. The fields of a PA that must be zero by R183 come behind every reserved byte (log entry
108, DESIGN CHOICE). -/
def formFail (x : List Byte) : Option (Nat × Nat) :=
  if iNu x ≠ nuWanted x then some (1, 7)
  else
    match reservedAt x with
    | some o => some (o, 7)
    | none => if !ctlPaZero x then some (8, 7) else optionFail x

/-- The bits set in a plane mask. -/
def maskCount (m : Nat) : Nat := ((List.range 8).filter (fun p => m.testBit p)).length

/-- A PA passes R126 and R124 for `count` codewords on lane n. -/
def paOk (b : Block) (n pa count : Nat) : Bool :=
  let d := paDie pa
  let f := dieFamily b n d
  decide (paLane pa = n) && decide (paTop pa = 0) && dieValid b n d &&
    decide (paUnit pa % 8 < planesOf b f) && decide (paUnit pa / 8 < unitsOf b f) &&
    decide (paPage pa < pagesOf b f) && decide (paSlot pa + count ≤ cppOf b f)

/-- A plane mask passes R125. -/
def planesOk (b : Block) (f mask unit : Nat) : Bool :=
  decide (mask = 0) ||
    (mask.testBit (unit % 8) && decide (mask < 2 ^ planesOf b f) && decide (maskCount mask ≤ mpMax b f))

/-- Step 4 of R128: the PAs in increasing offset, then the plane mask, then N against CPP (R162), and the feature rules
(R183, R184), which come behind the PA's own checks (log entry 108, DESIGN CHOICE). -/
def paFail (b : Block) (n : Nat) (x : List Byte) : Option (Nat × Nat) :=
  let op := iOp x
  let a := iPa x
  let f := dieFamily b n (paDie a)
  if op = opRead ∨ op = opSample ∨ op = opProg ∨ op = opErase ∨ op = opVerify then
    let count := if op = opRead ∨ op = opSample then iCount x else 1
    let zeroOk := if op = opProg then decide (paSlot a = 0)
      else if op = opErase ∨ op = opVerify then decide (paSlot a = 0 ∧ paPage a = 0) else true
    if !paOk b n a count || !zeroOk then some (8, 6)
    else if op ≠ opVerify ∧ !planesOk b f (byteAt x 4) (paUnit a) then some (4, 6)
    else none
  else if op = opReloc then
    let dest := decide (relocMode x ≠ 1) && !relocPlace x
    if dest && !(paOk b n a (iCount x) && decide (paSlot a = 0)) then some (8, 6)
    else if dest && decide (iCount x ≠ cppOf b f) then some (3, 6)
    else match (relocSrcs x).zipIdx.find? (fun s => !paOk b n s.1 1) with
      | some s => some (32 + 8 * s.2, 6)
      | none => none
  else if hasPa x then
    if paLane a ≠ n ∨ paTop a ≠ 0 then some (8, 6)
    else if (op ≠ opTrain || !iOpt x 0) && !dieValid b n (paDie a) then some (8, 6)
    else if (op = opFeatGet ∨ op = opFeatSet) ∧ iOpt x 0 ∧ !famOption b f 1 then some (2, 6)
    else if op = opFeatSet ∧ ownedFeature b f (byteAt x 3) then some (3, 9)
    else none
  else if op = opWait ∨ op = opSignal then (if byteAt x 3 % 64 ≠ n then some (3, 6) else none)
  else none

/-- An address breaks step 5 of R128: misaligned, or above 48 bits. -/
def addrBad (a align : Nat) : Bool := decide (a % align ≠ 0) || decide (2 ^ 48 ≤ a)

/-- Step 5 of R128: host addresses. -/
def hostFail (x : List Byte) : Option (Nat × Nat) :=
  let op := iOp x
  if (op = opRead ∨ op = opProg ∨ op = opAppend ∨ op = opRaw ∨ (op = opReloc ∧ relocMode x ≠ 0)) ∧ addrBad (iAddr x) 64 then
    some (16, 8)
  else if op = opRead ∧ iOpt x 0 ∧ addrBad (iWord3 x) 32 then some (24, 8)
  else if op = opSample ∧ iOpt x 1 ∧ addrBad (iAddr x) 32 then some (16, 8)
  else none

/-- FEATURE.SET or TRAIN in a tenant queue of a non-secure pavilion (R170). -/
def notPermitted (x : List Byte) (secure service : Bool) : Bool :=
  (decide (iOp x = opFeatSet) || decide (iOp x = opTrain)) && !secure && !service

/-- The first of two results. -/
def firstFail (a c : Option (Nat × Nat)) : Option (Nat × Nat) :=
  match a with
  | some r => some r
  | none => c

/-- The checks of R128 and R170 on lane n: the offset and reason of the first failure. -/
def operandFail (b : Block) (n : Nat) (x : List Byte) (secure service : Bool) : Option (Nat × Nat) :=
  if notPermitted x secure service then some (0, 9)
  else firstFail (formFail x) (firstFail (paFail b n x) (hostFail x))

/-- The checks that a pavilion applies to an instruction of an unrouted entry, which names no lane (R171). -/
def unroutedFail (x : List Byte) (secure service : Bool) : Option (Nat × Nat) :=
  if notPermitted x secure service then some (0, 9) else firstFail (formFail x) (hostFail x)

/-- AUX of an INVALID_FIELD completion (R128): byte 24 the reason, byte 25 the instruction's index from 1. -/
def invalidAux (reason idx : Nat) : Word64 := BitVec.ofNat 64 (reason + 256 * idx)

end Sys2Proof.Machine
end

