-- ==== Sys2Proof/Machine/Work.lean ====
section
/-! DEFINITION. Work entries in the block: releasing the instructions of an entry (R172), finishing an instruction (R174), and
the completion of a command (R80, R129). -/

namespace Sys2Proof.Machine

open Sys2Proof

/-- SYS_EPOCH. -/
def epochNow (b : Block) : Word := rget b 0x110

/-- SYS_EPOCH_STATUS.VALID. -/
def epochValid (b : Block) : Bool := rbit b 0x114 0

/-- SYS_EPOCH as a moment keeps it: all ones, an unknown epoch (R468), while VALID is clear. -/
def epochStamp (b : Block) : Word := if epochValid b then epochNow b else 0xFFFFFFFF

/-- The pavilion of a queue. -/
def sqPav (b : Block) (q : Nat) : Nat := (sq b q).owner

/-- FENCE and WAIT hold the instructions after them (R176, R179). -/
def isGate (x : List Byte) : Bool := decide (iOp x = opFence) || decide (iOp x = opWait)

/-- READ, PROG and APPEND hold their queue's key slot (R395). -/
def usesKey (x : List Byte) : Bool :=
  decide (iOp x = opRead) || decide (iOp x = opProg) || decide (iOp x = opAppend)

/-- Instruction j of a list of instructions is held behind no unfinished FENCE or WAIT. -/
def gateOpen (l : List InstrRec) (j : Nat) : Bool :=
  (l.take j).all (fun r => !isGate r.bytes || decide (r.phase = .finished))

/-- Every instruction before index j has finished. -/
def earlierDone (l : List InstrRec) (j : Nat) : Bool := (l.take j).all (fun r => decide (r.phase = .finished))

/-- Some instruction before index j has a status other than OK or OK_WARN (R176, R181). -/
def earlierFailed (l : List InstrRec) (j : Nat) : Bool :=
  (l.take j).any (fun r => match r.status with
    | some s => !success s.1
    | none => false)

/-- Instruction i takes its place in pool order (R172): released now, in this epoch and tick; one that needs a VOID key slot
completes INVALID_FIELD, reason 4, at offset 0 (R395). -/
def releaseOne (e i : Nat) (b : Block) : Block :=
  let x := entry b e
  let r := instr b e i
  if decide (r.phase = .held) && gateOpen x.instrs i then
    let isVoid := usesKey r.bytes && decide ((keySlot b x.key).st = .void)
    let b := updInstr b e i (fun r =>
      { r with
        phase := if isVoid then .finished else .pooled
        status := if isVoid then some (stInvalid, 0) else r.status
        aux := if isVoid then invalidAux 4 (i + 1) else r.aux
        order := b.order
        started := now b
        epoch := epochStamp b
        band := fld (dieMap b (x.lane.getD 0) (paDie (iPa r.bytes))) 18 16 })
    { b with order := b.order + 1 }
  else b

/-- Every instruction of a pooled entry that nothing holds any more is released, in entry order (R172, R176). -/
def releaseEntry (b : Block) (e : Nat) : Block :=
  if (entry b e).pooled then each (List.range (entry b e).instrs.length) (fun b i => releaseOne e i b) b else b

/-- Every instruction of an entry has finished. -/
def entryDone (b : Block) (e : Nat) : Bool := (entry b e).instrs.all (fun r => decide (r.phase = .finished))

/-- The instructions of a command, in entry order and then chain order (R80). -/
def cmdInstrs (b : Block) (c : Nat) : List InstrRec := (cmd b c).entries.flatMap (fun e => (entry b e).instrs)

/-- The completion of a list of instructions that have finished (R80, R129, R81). An OK completion of several instructions
takes the DETAIL of the one whose AUX it carries (log entry 25, DEDUCED). -/
def completionOf (sqk cid : Nat) (cmds : List Nat) (lane : Option Nat) (l : List InstrRec) : Compl :=
  let bad := l.find? (fun r => match r.status with
    | some s => !success s.1
    | none => false)
  let last := l.getLast?.getD InstrRec.none
  let carrier := bad.getD last
  let warn := l.any (fun r => match r.status with
    | some s => decide (s.1 = stWarn)
    | none => false)
  let st : Nat × Nat := match bad with
    | some r => r.status.getD (0, 0)
    | none => if warn then (stWarn, 0) else last.status.getD (0, 0)
  let res := l.foldl (fun acc r => match r.status, r.result with
    | some s, some v => if success s.1 then v else acc
    | _, _ => acc) (0 : Word64)
  { cmds := cmds, lane := lane, sq := sqk, cid := cid, status := st.1, detail := st.2, event := false
    retry := (l.map (fun r => r.retry)).foldl max 0
    result := res
    maxCorr := (l.map (fun r => r.maxCorr)).foldl max 0
    aux := carrier.aux
    pools := [] }

/-- An entry leaves its lane's pool and the block. -/
def dropEntry (b : Block) (e : Nat) : Block :=
  let b := match (entry b e).lane with
    | some n => updLane b n (fun l => { l with pool := l.pool.filter (· != e), arrive := l.arrive.filter (· != e) })
    | none => b
  { b with entries := terase b.entries e }

/-- When every member of a command has finished, its pool entries are freed and its completion is offered from the lane that
finished it (R80, R200). -/
def finishCmd (b : Block) (c : Nat) (lane : Option Nat) : Block :=
  let k := cmd b c
  if k.armed && !k.offered && k.entries.all (entryDone b) then
    let x := completionOf k.sq k.cid [c] lane (cmdInstrs b c)
    let x := { x with pools := k.entries.filterMap (fun e => (entry b e).lane) }
    let b := updCmd b c (fun k => { k with offered := true })
    let b := each k.entries dropEntry b
    offer b (sq b k.sq).cq x
  else b

/-- What follows a finished instruction of entry e (R174, R172, R402): a key overwrite that waited for it, the release of
what it held, and the command's completion. An entry of a discarded command leaves without one (R437). -/
def afterFinish (b : Block) (e : Nat) : Block :=
  let b := releaseEntry (wipeReleased b) e
  let x := entry b e
  if entryDone b e then
    if (cmd b x.cmd).discarded then dropEntry b e else finishCmd b x.cmd x.lane
  else b

/-- An instruction has no status yet. -/
def InstrRec.isOpen (r : InstrRec) : Bool := decide (r.phase ≠ .finished) && decide (r.phase ≠ .ending)

/-- Units of a PA over the planes of a mask. -/
def unitsOn (a mask : Nat) : List (Nat × Nat) := (planeList mask (paUnit a)).map (fun p => (paDie a, onPlane (paUnit a) p))

/-- The units that an ERASE erases. -/
def eraseUnits (x : List Byte) : List (Nat × Nat) := if iOp x = opErase then unitsOn (iPa x) (byteAt x 4) else []

/-- A job of a lane's outbound channel writes data of instruction i of entry e. -/
def JobUse.writesFor (e i : Nat) : JobUse → Bool
  | .stageWrite e' i' _ | .hostOut e' i' _ _ | .rawOut e' i' => decide (e' = e ∧ i' = i)
  | _ => false

/-- A fabric write response for data of the instruction is still to come (R174). -/
def writesOut (b : Block) (e i : Nat) : Bool :=
  match (entry b e).lane with
  | none => false
  | some n => (lane b n).outJobs.any (fun j => j.use.writesFor e i)

/-- Programs pooled after an ERASE that completes other than OK will not wait for it: the units are noted with each (R147). -/
def noteBadErase (b : Block) (e i : Nat) : Block :=
  let r := instr b e i
  match (entry b e).lane with
  | none => b
  | some n =>
    each ((lane b n).pool.flatMap (fun e' => (List.range (entry b e').instrs.length).map (fun i' => (e', i')))) (fun b y =>
      let z := instr b y.1 y.2
      if z.isOpen && decide (z.phase ≠ .held) && decide (r.order < z.order) then
        updInstr b y.1 y.2 (fun z => { z with badUnits := z.badUnits ++ eraseUnits r.bytes })
      else b) b

/-- Gives an instruction its status, without what follows; it has finished once every response for data it wrote has returned
(R174). -/
def setStatus (b : Block) (e i st det : Nat) : Block :=
  let r := instr b e i
  if !r.isOpen then b
  else
    let b := if decide (iOp r.bytes = opErase) && decide (r.phase ≠ .held) && decide (st ≠ stOk) then noteBadErase b e i else b
    updInstr b e i (fun r => { r with phase := if writesOut b e i then .ending else .finished, status := some (st, det) })

/-- An instruction finishes with a status (R174). -/
def finishInstr (b : Block) (e i st det : Nat) : Block := afterFinish (setStatus b e i st det) e

/-- An instruction finishes with a status and AUX. -/
def finishAux (b : Block) (e i st det : Nat) (aux : Word64) : Block :=
  finishInstr (updInstr b e i (fun r => { r with aux := aux })) e i st det

/-- An instruction fails an operand check (R128). -/
def finishInvalid (b : Block) (e i offset reason : Nat) : Block :=
  finishAux b e i stInvalid offset (invalidAux reason (i + 1))

/-- The instructions of an entry from index j on that have not finished. -/
def unfinishedFrom (b : Block) (e j : Nat) : List Nat :=
  (List.range (entry b e).instrs.length).filter (fun i => decide (j ≤ i) && (instr b e i).isOpen)

/-- The number of the waymark that a WAIT or SIGNAL names: 16 p + index (R177). -/
def waymarkOf (b : Block) (e i : Nat) : Nat := 16 * (entry b e).owner + byteAt (instr b e i).bytes 4 % 16

/-- The value of a waymark of lane n. -/
def waymark (b : Block) (n k : Nat) : Word := tget 0 (lane b n).waymarks k

/-- AUX bytes 31:28 with a waymark's value (R180, R181). -/
def waymarkAux (w : Word) : Word64 := w ++ (0 : Word)

/-- An instruction completes ABORTED; a WAIT shows its waymark (R180). -/
def abortInstr (b : Block) (e i : Nat) : Block :=
  let b := if iOp (instr b e i).bytes = opWait then
      match (entry b e).lane with
      | some n => updInstr b e i (fun r => { r with aux := waymarkAux (waymark b n (waymarkOf b e i)) })
      | none => b
    else b
  setStatus b e i stAborted 0

/-- Every instruction of an entry from index j on completes ABORTED without issuing anything (R176, R180, R120). -/
def abortFrom (b : Block) (e j : Nat) : Block :=
  afterFinish (each (unfinishedFrom b e j) (fun b i => abortInstr b e i) b) e

/-- An instruction whose status waited for responses to its writes finishes with the last of them (R174). -/
def endWrites (b : Block) (e i : Nat) : Block :=
  if (instr b e i).phase = .ending ∧ !writesOut b e i then
    afterFinish (updInstr b e i (fun r => { r with phase := .finished })) e
  else b

/-- The lane of an instruction: entry e is in the pool of lane n, its instruction i has been released, and nothing released
before it on the lane is still to be taken up (R222, R203). -/
def takesUp (b : Block) (n e i : Nat) : Bool :=
  let x := entry b e
  let r := instr b e i
  decide (x.lane = some n) && x.pooled && decide (i < x.instrs.length) &&
    (decide (r.phase = .waiting) ||
      (decide (r.phase = .pooled) && (lane b n).pool.all (fun e' => (entry b e').instrs.all (fun r' =>
        decide (r'.phase ≠ .pooled) || decide (r.order ≤ r'.order)))))

/-- Puts an instruction in a phase. -/
def setPhase (b : Block) (e i : Nat) (p : Phase) : Block := updInstr b e i (fun r => { r with phase := p })

/-- An instruction of the named opcode, taken up on a running lane that has not failed its start (R229). -/
def takeUp (b : Block) (n e i op : Nat) : Bool :=
  laneRuns b n && takesUp b n e i && decide (iOp (instr b e i).bytes = op)

end Sys2Proof.Machine
end

