-- ==== Sys2Proof/Machine/Pavilion.lean ====
section
/-! DEFINITION. Pavilions: fetching entries (R65 to R69), the malformed checks (R91, R92, R473), chains (R74 to R79), routing
(R126, R127, R151, R171, R201), and taking an entry into a lane's pool (R203). -/

namespace Sys2Proof.Machine

open Sys2Proof

/-- The queue is the admin queue of its pavilion. -/
def isAdmin (key : Nat) : Bool := decide (4096 ≤ key)

/-- The QID that PV_SQ_ERR and PV_DB_ERR show. -/
def shownQid (key : Nat) : Nat := if isAdmin key then 0 else key

/-- PV_CFG.ENABLE. -/
def pavEnabled (b : Block) (p : Nat) : Bool := rbit b (pavReg p 0xD000) 0

/-- LN_SCHED_CFG.SVC_RESERVE in force (R201). -/
def svcReserve (b : Block) (n : Nat) : Nat := min 128 (rfld b (laneReg n 0x140) 23 16)

/-- The pool of lane n has room for an entry of a queue (R201). -/
def poolRoom (b : Block) (n : Nat) (service : Bool) : Bool :=
  if service then decide (poolCount b n < 256) else decide (poolCount b n < 256 - svcReserve b n)

/-- The lane takes an entry of queue `key`: its pool has room and it takes entries for the queue's ring (R201, R89). -/
def laneTakes (b : Block) (n key : Nat) : Bool :=
  poolRoom b n (sq b key).service && takesFor b n (sq b key).cq

/-- Some lane takes no new entries for ring c, having PER_CQ completions of it or no holding entry free, so nothing more is fetched
from the queues bound to it (R89; log entry 38, DEDUCED). -/
def ringHeld (b : Block) (c : Nat) : Bool := (laneNums b).any (fun n => !takesFor b n c)

/-- The pavilion may fetch from a queue (R66, R68, R89, R99, R197, R201). -/
def fetchable (b : Block) (key : Nat) : Bool :=
  let q := sq b key
  q.live && !q.deleting && !q.stopped && !q.held && decide (max 1 q.short ≤ q.unfetched) &&
    (match q.full with
      | none => true
      | some n => laneTakes b n key) &&
    !ringHeld b q.cq

/-- The tenant queues of a pavilion that it may fetch from. -/
def fetchableOf (b : Block) (p : Nat) : List Nat :=
  (b.sqs.filter (fun x => decide (x.1 < 4096) && decide (x.2.owner = p) && fetchable b x.1)).map (·.1)

/-- The queue whose entry pavilion p fetches next: round robin, with the admin queue every second turn (R68). -/
def nextQueue (b : Block) (p : Nat) : Option Nat :=
  let v := pav b p
  if !pavEnabled b p || v.resetting || v.fetch.isSome then none
  else
    let mine := fetchableOf b p
    if fetchable b (4096 + p) && (v.adminTurn || mine.isEmpty) then some (4096 + p)
    else match mine.find? (fun q => decide (v.last < q)) with
      | some q => some q
      | none => mine.head?

/-- The pavilion whose turn it is: round robin over those with something to fetch (R68). -/
def nextPav (b : Block) : Option Nat :=
  ((List.range 16).map (fun i => (b.lastPav + 1 + i) % 16)).find? (fun p => (nextQueue b p).isSome)

/-- A queue stops in the error state with its head at a slot (R91). -/
def stopQueue (b : Block) (key slot : Nat) : Block :=
  updSq b key (fun q => { q with stopped := true, head := slot, fetch := slot, chain := none, short := 0, seen := 0, full := none })

/-- Returns a page's reservation to a lane's count (R154). -/
def giveBack (b : Block) (st n : Nat) : Block :=
  updStripe b st (fun s => { s with counts := tupd 0 s.counts n (· + 1) })

/-- Returns the reservation of an instruction of lane n, while its stripe is as it was routed in (R154, R116). -/
def giveBackFor (b : Block) (r : InstrRec) (n : Nat) : Block :=
  if (stripe b (iStripe r.bytes)).opening = r.opening then giveBack b (iStripe r.bytes) n else b

/-- The stripe reservations that an entry's unfinished instructions hold are returned to its lane's counts (R154; log
entry 27). -/
def giveBackEntry (b : Block) (e : Nat) : Block :=
  match (entry b e).lane with
  | none => b
  | some n => each (entry b e).instrs (fun b r =>
      if places r.bytes ∧ r.phase ≠ .finished ∧ (formFail r.bytes).isNone then giveBackFor b r n else b) b

/-- The members of a chain that is not armed are dropped unexecuted (R79), and the command with them. -/
def dropChain (b : Block) (c : Nat) : Block :=
  let b := each (cmd b c).entries (fun b e => dropEntry (giveBackEntry b e) e) b
  retire b c

/-- A queue event (R81, R82): a completion that retires no command by its CID. -/
def queueEvent (key cid st det : Nat) (word : Word64) (cmds : List Nat) : Compl :=
  { cmds := cmds, lane := none, sq := key, cid := cid, status := st, detail := det, event := true, retry := 0
    result := word, maxCorr := 0, aux := 0, pools := [] }

/-- The latch word (R92). -/
def latchWord (slot len flags hi : Nat) : Word64 := BitVec.ofNat 64 (slot + len * 2 ^ 16 + flags * 2 ^ 24 + hi * 2 ^ 32)

/-- A malformed entry or chain (R79, R91): an open chain is dropped, the queue stops at its first slot, and the event is
posted and latched. -/
def malformed (b : Block) (key slot len flags cid det hi : Nat) : Block :=
  let q := sq b key
  let word := latchWord slot len flags hi
  let b := match q.chain with
    | some ch => stopQueue (dropChain b ch.cmd) key ch.slot
    | none => stopQueue b key slot
  let b := latchSqErr b q.owner (shownQid key) (isAdmin key) false false det (some word)
  offer b q.cq (queueEvent key cid stMalformed det word [])

/-- A fetch ends in a bus error or timeout (R69): the latch word has LEN and FLAGS where the header had been read (R92). -/
def fetchFault (b : Block) (key slot seen : Nat) : Block :=
  let q := sq b key
  let word := latchWord slot (seen % 256) (seen / 256) 0
  let b := match q.chain with
    | some ch => stopQueue (dropChain b ch.cmd) key ch.slot
    | none => stopQueue b key slot
  let b := latchSqErr b q.owner (shownQid key) (isAdmin key) false true 1 (some word)
  offer b q.cq (queueEvent key 0xFFFF stDma 1 word [])

/-- The beats of a fetch in ring order, as bytes. -/
def fetchBytes (f : Fetch) : List Byte :=
  (List.range f.len).flatMap (fun i => beatBytes (((f.beats.find? (fun x => decide (x.1 = i))).map (·.2)).getD 0))

/-- The slots from one on that a single burst reads, `left` of them at most: 4 beats, to the ring's end and to the next 4 KiB boundary
(R65, R21, R63). -/
def burstSlots (size slot left : Nat) : Nat := max 1 (min (min left 4) (min (size - slot) (64 - slot % 64)))

/-- The bursts of a fetch's remaining slots (R65, R21), each with its place in the entry. -/
def fetchParts : Nat → Nat → Nat → Nat → Nat → List (Nat × Nat × Nat)
  | 0, _, _, _, _ => []
  | fuel + 1, size, slot, i, left =>
    if left = 0 then []
    else
      let m := burstSlots size slot left
      (slot, i, m) :: fetchParts fuel size ((slot + m) % size) (i + m) (left - m)

/-- Issues the read burst of one part of a fetch; a denied one returns zeros at once (R392). -/
def fetchPart (p : Nat) (b : Block) (x : Nat × Nat × Nat) : Block :=
  match (pav b p).fetch with
  | none => b
  | some f =>
    let (ok, b) := issue b (mkRead (pavPort b p) (24 + p) 3 (.fetch p x.2.1) ((sq b f.sq).base + 64 * x.1) x.2.2 (pavSec b p))
    if ok then updPav b p (fun v => { v with fetch := v.fetch.map (fun f => { f with waiting := f.waiting + 1 }) })
    else updPav b p (fun v => { v with fetch := v.fetch.map (fun f =>
      { f with beats := f.beats ++ (List.range x.2.2).map (fun i => (x.2.1 + i, (0 : Beat))) }) })

/-- LEN and FLAGS of an entry, as LEN + 256 × FLAGS, from the slots its fetch has landed. -/
def headBytes (f : Fetch) : Nat := fieldAt (fetchBytes { f with len := 1 }) 0 2

/-- A pavilion fetches from a queue no more: it is gone, deleting or stopped, its pavilion suspended, or the block shut down (R91, R99,
R110, R374). -/
def fetchOff (b : Block) (p key : Nat) : Bool :=
  let q := sq b key
  !q.live || q.deleting || q.stopped || !pavEnabled b p || (pav b p).resetting || tripped b || faulted b

/-- A pavilion's fetch is dropped: what its bursts bring is discarded. -/
def dropFetch (p : Nat) (b : Block) : Block :=
  let b := { b with bursts := b.bursts.map (fun x => match x.owner with
    | .fetch p' _ => if p' = p then { x with dropped := true } else x
    | _ => x) }
  updPav b p (fun v => { v with fetch := none })

/-- A queue that goes takes the fetch of its entry with it (R110). -/
def fetchGone (b : Block) (key : Nat) : Block :=
  let p := (sq b key).owner
  if ((pav b p).fetch.map (·.sq)) = some key then dropFetch p b else b

/-- A fetch whose first burst has landed learns LEN (R66): out of range it stands as it is; with too few slots posted it is left
unfetched; otherwise what the first burst did not bring is fetched. -/
def fetchLen (b : Block) (p : Nat) : Block :=
  match (pav b p).fetch with
  | none => b
  | some f =>
    if f.waiting ≠ 0 ∨ f.len ≠ 0 then b
    else if fetchOff b p f.sq then updPav b p (fun v => { v with fetch := none })
    else
      let q := sq b f.sq
      let seen := headBytes f
      let len := seen % 256
      let setLen (m : Nat) (b : Block) : Block :=
        updPav b p (fun v => { v with fetch := v.fetch.map (fun f => { f with len := m }) })
      if len = 0 ∨ 16 < len ∨ 2 ^ q.k - 1 < len then setLen 1 b
      else if q.unfetched < len then
        updSq (updPav b p (fun v => { v with fetch := none })) f.sq (fun q => { q with short := len, seen := seen })
      else
        let got := f.beats.length
        let b := setLen len b
        each (fetchParts 16 (2 ^ q.k) ((f.slot + got) % 2 ^ q.k) got (len - got)) (fetchPart p) b

/-- A read burst of a fetch has ended (R69). -/
def fetchBurstDone (b : Block) (p : Nat) (bad : Bool) : Block :=
  match (pav b p).fetch with
  | none => b
  | some f =>
    let f' := { f with waiting := f.waiting - 1, bad := f.bad || bad }
    if f'.waiting ≠ 0 then updPav b p (fun v => { v with fetch := some f' })
    else if f'.bad then
      let b := updPav b p (fun v => { v with fetch := none })
      if (sq b f.sq).live && !(sq b f.sq).deleting && !(sq b f.sq).stopped then
        fetchFault b f.sq f.slot (if f.len = 0 then 0 else headBytes f)
      else b
    else fetchLen (updPav b p (fun v => { v with fetch := some f' })) p

/-- PAVILION_FETCH: the next pavilion fetches the next entry of its next queue (R68). LEN stands in its first slot (R66): the first
burst reads that slot with the posted slots after it that one burst may hold, so an entry that wraps takes two bursts (R65; log
entry 38, DEDUCED). -/
def pavilionFetch (b : Block) : Block :=
  if !running b then b
  else
    match nextPav b with
    | none => b
    | some p =>
      match nextQueue b p with
      | none => b
      | some key =>
        let slot := (sq b key).fetch
        let m := burstSlots (2 ^ (sq b key).k) slot (sq b key).unfetched
        let b := updPav b p (fun v =>
          { v with
            fetch := some ⟨key, slot, 0, [], 0, false⟩
            last := if isAdmin key then v.last else key
            adminTurn := !isAdmin key })
        let b := updSq b key (fun q => { q with full := none, short := 0 })
        fetchLen (fetchPart p { b with lastPav := p } (slot, 0, m)) p

/-- PAVILION_FETCH. -/
def execPavilionFetch (s : State) : Host.Outcome State Fault Refusal := s.act pavilionFetch

/-- The FRAMING walk (R473): the first faulty unit, or the units where the instructions start with their NU. -/
def framingWalk (x : List Byte) (total : Nat) : Nat → Nat → List (Nat × Nat) → Nat ⊕ List (Nat × Nat)
  | 0, u, acc =>
    match (List.range total).find? (fun k => decide (u ≤ k) && !((x.drop (16 * k)).take 16).all (· == 0)) with
    | some k => .inl k
    | none => .inr acc
  | i + 1, u, acc =>
    let nu := byteAt x (16 * u + 1)
    if u = total then .inl u
    else if nu = 0 ∨ total < u + nu then .inl u
    else framingWalk x total i (u + nu) (acc ++ [(u, nu)])

/-- An opcode that breaks detail OPCODE (R92). -/
def opcodeBad (op : Nat) (admin secure : Bool) : Bool :=
  if admin then !adminOps.contains op
  else !tenantOps.contains op || (decide (op = opRaw) && !secure)

/-- The header fields of an entry (R58). -/
def hLen (x : List Byte) : Nat := byteAt x 0
/-- FLAGS. -/
def hFlags (x : List Byte) : Nat := byteAt x 1
/-- CID. -/
def hCid (x : List Byte) : Nat := fieldAt x 2 2
/-- DEADLINE. -/
def hDeadline (x : List Byte) : Nat := fieldAt x 4 3
/-- FIRST. -/
def hFirst (x : List Byte) : Bool := (hFlags x).testBit 0
/-- LAST. -/
def hLast (x : List Byte) : Bool := (hFlags x).testBit 1

/-- A CID equals that of an outstanding command of the queue (R61). -/
def cidInUse (b : Block) (key cid : Nat) : Bool :=
  b.cmds.any (fun x => decide (x.2.sq = key ∧ x.2.cid = cid))

/-- The malformed checks in the order of R92: detail and latch-word bits [63:32] of the first failure, or the
instructions. -/
def entryChecks (b : Block) (key : Nat) (x : List Byte) : (Nat × Nat) ⊕ List (List Byte) :=
  let q := sq b key
  let crc := crc32c (x.take 8 ++ zeros 4 ++ x.drop 12)
  if hLen x = 0 ∨ 16 < hLen x then .inl (1, 0)
  else if 2 ^ q.k - 1 < hLen x then .inl (2, q.k)
  else if fieldAt x 8 4 ≠ crc then .inl (3, crc)
  else if 4 ≤ hFlags x ∨ fieldAt x 12 4 ≠ 0 then .inl (4, fieldAt x 12 4)
  else if byteAt x 7 = 0 then .inl (5, 0)
  else
    match framingWalk x (4 * hLen x) (byteAt x 7) 1 [] with
    | .inl u => .inl (5, u)
    | .inr us =>
      match us.find? (fun u => opcodeBad (byteAt x (16 * u.1)) (isAdmin key) (pavSec b q.owner)) with
      | some u => .inl (6, byteAt x (16 * u.1) + 256 * u.1)
      | none =>
        let chainHi (ch : Chain) : Nat := ch.cid + ch.slot * 65536
        if hFirst x ∧ cidInUse b key (hCid x) then .inl (7, 0)
        else
          let instrs := us.map (fun u => (x.drop (16 * u.1)).take (16 * u.2))
          match q.chain with
          | some ch =>
            if hFirst x then .inl (8, chainHi ch)
            else if ch.members = 63 ∧ !hLast x then .inl (0xA, chainHi ch)
            else if hCid x ≠ ch.cid ∨ hDeadline x ≠ ch.deadline then .inl (0xB, chainHi ch)
            else .inr instrs
          | none => if hFirst x then .inr instrs else .inl (9, 0)

/-- What routing has settled of an entry (R126, R127, R151): its lane, the statuses that instructions already have, and the
pages reserved, as (stripe, lane). -/
structure Routing where
  lane : Option Nat
  done : List (Nat × Nat × Nat × Word64)
  taken : List (Nat × Nat)

/-- Pages of a stripe not yet reserved on a lane (R151), after those this entry has taken. -/
def pagesLeft (b : Block) (r : Routing) (st n : Nat) : Nat :=
  tget 0 (stripe b st).counts n - (r.taken.filter (fun x => decide (x = (st, n)))).length

/-- The member lane of a stripe with the largest count, or the lowest where counts are equal (R151); none where every count is
zero. -/
def bestLane (b : Block) (r : Routing) (st : Nat) : Option Nat :=
  ((List.range 64).foldl (fun (best : Option (Nat × Nat)) n =>
    let k := pagesLeft b r st n
    match best with
    | some x => if x.2 < k then some (n, k) else some x
    | none => if 0 < k then some (n, k) else none) none).map (·.1)

/-- An open stripe of the pavilion. -/
def stripeOpenFor (b : Block) (p st : Nat) : Bool := (stripe b st).isOpen && decide ((stripe b st).owner = p)

/-- The reservation of a page for a placing instruction, once the entry's lane is known (R127, R151, R162). -/
def reserve (b : Block) (i st n : Nat) (r : Routing) : Routing :=
  if pagesLeft b r st n = 0 then { r with done := r.done ++ [(i, stStripeFull, 0, 0)] }
  else { r with taken := r.taken ++ [(st, n)] }

/-- The steps of R128 that the pavilion can judge, after R170: an instruction that is not permitted is not judged further. -/
def routeFail (b : Block) (p : Nat) (service : Bool) (x : List Byte) : Option (Nat × Nat) :=
  if notPermitted x (pavSec b p) service then some (0, 9) else formFail x

/-- Routing takes one instruction of the entry (R126, R127, R151, R162): the pavilion completes one that names an absent lane (R7) or a
halted one (R438), after the checks that come before the PA's (R128, R170). -/
def routeOne (b : Block) (p : Nat) (service : Bool) (r : Routing) (y : List Byte × Nat) : Routing :=
  let x := y.1
  let i := y.2
  let form := routeFail b p service x
  let valid := form.isNone
  let fail (z : Nat × Nat) : Routing := { r with done := r.done ++ [(i, stInvalid, z.1, invalidAux z.2 (i + 1))] }
  let closed := !stripeOpenFor b p (iStripe x)
  match (namedLanes x).find? (fun z => decide (b.build.lanes ≤ z.2)) with
  | some z => fail (form.getD (z.1, 6))
  | none =>
    if stripeLane x then
      if valid && closed then { r with done := r.done ++ [(i, stStripeClosed, 0, 0)] }
      else
        match r.lane with
        | some n => if valid then reserve b i (iStripe x) n r else r
        | none =>
          match bestLane b r (iStripe x) with
          | none => if valid then { r with done := r.done ++ [(i, stStripeFull, 0, 0)] } else r
          | some n => if valid then reserve b i (iStripe x) n { r with lane := some n } else { r with lane := some n }
    else
      match namesLane x with
      | none => r
      | some m =>
        if laneHalted b m then fail (form.getD (paOffset x, 4))
        else
          let n := r.lane.getD m
          let r := { r with lane := some n }
          if places x && valid then
            if closed then { r with done := r.done ++ [(i, stStripeClosed, 0, 0)] } else reserve b i (iStripe x) n r
          else r

/-- Routing of an entry (R126, R171): a service queue's entry goes to the queue's lane, unless the pavilion has completed all of its
instructions. -/
def routeEntry (b : Block) (key : Nat) (instrs : List (List Byte)) : Routing :=
  let q := sq b key
  let r := instrs.zipIdx.foldl (routeOne b q.owner q.service) ⟨if q.service then some q.lane else none, [], []⟩
  if r.done.length = instrs.length then { r with lane := none } else r

/-- The instruction records of an entry, with the statuses that routing gave. -/
def mkInstrs (r : Routing) (instrs : List (List Byte)) : List InstrRec :=
  instrs.zipIdx.map (fun y =>
    let base := { InstrRec.none with bytes := y.1, phase := .held }
    match r.done.find? (fun d => decide (d.1 = y.2)) with
    | some d => { base with phase := .finished, status := some (d.2.1, d.2.2.1), aux := d.2.2.2 }
    | none => base)

/-- The pavilion finishes the instructions of an unrouted entry (R171, R127): the checks of R128, then OK, with a STOPFAIL
FENCE acting on earlier failures. -/
def finishUnrouted (secure service : Bool) (l : List InstrRec) : List InstrRec :=
  (l.foldl (fun (acc : List InstrRec × Bool) r =>
    let idx := acc.1.length
    if acc.2 then (acc.1 ++ [{ r with phase := .finished, status := some (stAborted, 0) }], true)
    else if r.phase = .finished then (acc.1 ++ [r], acc.2)
    else
      match unroutedFail r.bytes secure service with
      | some z => (acc.1 ++ [{ r with phase := .finished, status := some (stInvalid, z.1), aux := invalidAux z.2 (idx + 1) }],
          acc.2)
      | none =>
        let stop := decide (iOp r.bytes = opFence) && iOpt r.bytes 0 &&
          acc.1.any (fun q => match q.status with
            | some s => !success s.1
            | none => false)
        (acc.1 ++ [{ r with phase := .finished, status := some (stOk, 0) }], stop)) ([], false)).1

/-- The due tick of a deadline from a fetch tick (R46). -/
def dueTick (f deadline : Nat) : Option Nat := if deadline = 0xFFFFFF then none else some (f + deadline)

/-- A lane in PS1 is woken: the first frame it places work in is f + max(1, L) (R212, R49). -/
def wakeLane (b : Block) (n : Nat) : Block :=
  if (lane b n).ps1 then
    updLane b n (fun l => { l with ps1 := false, idle := 0, wakeTick := now b + max 1 (ticksOfNs b (rfld b 0x3800C 7 0 * 1000)) })
  else b

/-- An admin command whose entries have all passed goes to the pavilion's executor (R105). -/
def queueAdmin (b : Block) (p c : Nat) : Block :=
  let l := (cmdInstrs b c).map (fun r => r.bytes)
  updPav b p (fun v => { v with queue := v.queue ++ [(c, l)] })

/-- A chain is armed when its last member passes (R76): its fetch tick is now, and the head passes all its slots (R77). -/
def armChain (b : Block) (key c : Nat) : Block :=
  let b := updCmd b c (fun k => { k with armed := true, due := dueTick (now b) k.deadline })
  let b := each (cmd b c).entries (fun b e =>
    let b := updEntry b e (fun x => { x with armed := true })
    match (entry b e).lane with
    | some n => wakeLane b n
    | none => b) b
  let b := updSq b key (fun q => { q with head := q.fetch, chain := none })
  if isAdmin key then queueAdmin b (sq b key).owner c
  else
    let unrouted := (cmd b c).entries.all (fun e => (entry b e).lane.isNone)
    finishCmd (updSq b key (fun q => { q with held := q.held || unrouted })) c none

/-- An entry that has passed its checks and is routed, finished unrouted, or handed to the admin executor (R61, R67, R76). -/
def admitEntry (b : Block) (key slot : Nat) (x : List Byte) (r : Routing) (l : List InstrRec) : Block :=
  let first := hFirst x
  let last := hLast x
  let (e, b) := newId b
  let (c, b) := if first then newId b else (((sq b key).chain.map (·.cmd)).getD 0, b)
  let b := each r.taken (fun b t => updStripe b t.1 (fun s => { s with counts := tupd 0 s.counts t.2 (· - 1) })) b
  let l := l.map (fun i => if places i.bytes then { i with opening := (stripe b (iStripe i.bytes)).opening } else i)
  let b := { b with entries := tput b.entries e ⟨c, r.lane, key, (sq b key).owner, (sq b key).key, l, first && last, false, false, false⟩ }
  let b := match r.lane with
    | some n => notePool (wakeLane (updLane b n (fun v => { v with arrive := v.arrive ++ [e] })) n) n
    | none => b
  let b := if first then
      { b with cmds := tput b.cmds c ⟨key, hCid x, hDeadline x, if last then dueTick (now b) (hDeadline x) else none, last,
        [e], false, false⟩ }
    else updCmd b c (fun k => { k with entries := k.entries ++ [e] })
  let b := updSq b key (fun q =>
    { q with
      fetch := (slot + hLen x) % 2 ^ q.k
      seen := 0
      head := if first && last then (slot + hLen x) % 2 ^ q.k else q.head
      chain :=
        if first && !last then some ⟨c, hCid x, hDeadline x, slot, 1, now b + max 1 (rfld b (pavReg q.owner 0xC120) 15 0)⟩
        else q.chain.map (fun ch => { ch with members := ch.members + 1 }) })
  if first && last then
    if isAdmin key then queueAdmin b (sq b key).owner c
    else if r.lane.isNone then finishCmd (updSq b key (fun q => { q with held := true })) c none
    else b
  else if last then
    armChain b key c
  else b

/-- ENTRY_CHECK: the pavilion checks the entry whose slots have all landed (R91, R92), and stops the queue, leaves the entry
for a full lane (R201, R89), or admits it. -/
def entryCheck (p : Nat) (b : Block) : Block :=
  match (pav b p).fetch with
  | none => b
  | some f =>
    if f.waiting ≠ 0 ∨ f.len = 0 ∨ !running b then b
    else
      let key := f.sq
      let q := sq b key
      let b := updPav b p (fun v => { v with fetch := none })
      if fetchOff b p key || decide (q.fetch ≠ f.slot) then b
      else
        let x := fetchBytes f
        match entryChecks b key x with
        | .inl z => malformed b key f.slot (hLen x) (hFlags x) (hCid x) z.1 z.2
        | .inr instrs =>
          if isAdmin key then
            let r : Routing := ⟨none, [], []⟩
            admitEntry b key f.slot x r (mkInstrs r instrs)
          else
            let r := routeEntry b key instrs
            match r.lane with
            | some n =>
              if !poolRoom b n q.service then
                rinc (updSq b key (fun q => { q with full := some n, seen := headBytes f })) (laneReg n 0x154) 31 16 1
              else if !takesFor b n q.cq then updSq b key (fun q => { q with full := some n, seen := headBytes f })
              else admitEntry b key f.slot x r (mkInstrs r instrs)
            | none =>
              let l := finishUnrouted (pavSec b p) q.service (mkInstrs r instrs)
              admitEntry b key f.slot x r l

/-- ENTRY_CHECK. -/
def execEntryCheck (p : Nat) (s : State) : Host.Outcome State Fault Refusal := s.act (entryCheck p)

/-- LEN and FLAGS of the next unchecked slot of a queue, as read: 0 where it was never read (R92). -/
def headSeen (b : Block) (p key : Nat) : Nat :=
  match (pav b p).fetch with
  | some f => if f.sq = key ∧ f.slot = (sq b key).fetch ∧ f.len ≠ 0 then headBytes f else (sq b key).seen
  | none => (sq b key).seen

/-- CHAIN_TIMEOUT (R78): an open chain whose time has come is malformed; SLOT is the next unchecked slot. -/
def chainTimeout (p : Nat) (q : Option Nat) (b : Block) : Block :=
  let key := sqKey p q
  match (sq b key).chain with
  | none => b
  | some ch =>
    if (sq b key).owner = p ∧ ch.due ≤ now b ∧ !b.inReset then
      malformed b key (sq b key).fetch (headSeen b p key % 256) (headSeen b p key / 256) ch.cid 0xC (ch.cid + ch.slot * 65536)
    else b

/-- CHAIN_TIMEOUT. -/
def execChainTimeout (p : Nat) (q : Option Nat) (s : State) : Host.Outcome State Fault Refusal := s.act (chainTimeout p q)

/-- The address of PV_SQ_ERR, or of PV_DB_ERR_CNT. -/
def pvErrAddr (p : Nat) (count : Bool) : Nat := pavReg p (if count then 0xC104 else 0xC108)

/-- PV_ERR_READ (R101): the word is returned, its RC field cleared, and the pavilion's error source cleared. -/
def execPvErrRead (p : Nat) (count : Bool) (sec : Bool) (s : State) : Host.Outcome State Fault Refusal :=
  (portRead s (pvErrAddr p count) false sec (fun s =>
    (laneOfWord (pvErrAddr p count) (rget s.blk (pvErrAddr p count)),
      { s with blk := updPav (rcClear s.blk (pvErrAddr p count)) p (fun v => { v with errRaised := false }) }))).settled

/-- How an entry stands in the order of R203: pavilion, then submission queue, then arrival. -/
def arriveRank (b : Block) (e : Nat) : Nat := (entry b e).owner * 8192 + (entry b e).sq

/-- The armed entry that the lane's event arbiter takes next: the next member of the chain it is taking, or the first by
pavilion, queue and arrival (R203). -/
def nextArrival (b : Block) (n : Nat) : Option Nat :=
  let l := lane b n
  let ready := l.arrive.filter (fun e => (entry b e).armed)
  let cont := match l.pool.getLast? with
    | some e' => ready.find? (fun e => decide ((entry b e).cmd = (entry b e').cmd))
    | none => none
  match cont with
  | some e => some e
  | none => ready.foldl (fun best e =>
      match best with
      | none => some e
      | some x => if arriveRank b e < arriveRank b x then some e else some x) none

/-- POOL_ENTRY: the lane's event arbiter takes one routed entry into the pool (R203), and its instructions take their places in
pool order (R172). -/
def poolEntry (n : Nat) (b : Block) : Block :=
  if !laneRuns b n then b
  else
    match nextArrival b n with
    | none => b
    | some e =>
      let b := updLane b n (fun l => { l with arrive := l.arrive.filter (· != e), pool := l.pool ++ [e] })
      let b := updEntry b e (fun x => { x with pooled := true })
      afterFinish b e

/-- POOL_ENTRY. -/
def execPoolEntry (n : Nat) (s : State) : Host.Outcome State Fault Refusal := s.act (poolEntry n)

end Sys2Proof.Machine
end

