-- ==== Sys2Proof/Machine/Admin.lean ====
section
/-! DEFINITION. The admin executor (R105, R106) and the admin commands (R107 to R121). A command of this family runs the
current instruction of its pavilion's executor; one that waits is issued again (log entry 28, DESIGN CHOICE). -/

namespace Sys2Proof.Machine

open Sys2Proof

/-- An executor at the start of a command. -/
def Exec.start (c : Nat) (l : List (List Byte)) : Exec :=
  ⟨c, l, 0, false, 0, false, [], none, none, 0, 0, 0⟩

/-- The executor holds a finished completion that its ring has no room for (R106). -/
def adminHolds (b : Block) (p : Nat) : Bool := (cq b (2048 + p)).wait.any (fun x => !x.event)

/-- The executor takes the next admin command when it is free (R105, R106); a suspended pavilion's takes none (R99). -/
def adminStart (b : Block) (p : Nat) : Block :=
  let v := pav b p
  match v.exec, v.queue with
  | none, x :: rest =>
    if adminHolds b p || !pavEnabled b p then b
    else updPav b p (fun v => { v with exec := some (Exec.start x.1 x.2), queue := rest })
  | _, _ => b

/-- The current instruction of the executor. -/
def adminInstr (b : Block) (p : Nat) : Option (List Byte) :=
  match (pav b p).exec with
  | none => none
  | some x => x.instrs[x.idx]?

/-- Updates the executor. -/
def updExec (b : Block) (p : Nat) (f : Exec → Exec) : Block :=
  updPav b p (fun v => { v with exec := v.exec.map f })

/-- An admin command is gone, and its entries with it. A command that is gone while it executes runs to its end, and its completion
is dropped (R103). -/
def dropAdmin (b : Block) (c : Nat) : Block := retire { b with entries := b.entries.filter (fun y => decide (y.2.cmd ≠ c)) } c

/-- The executor's instruction ends with a status (R105): a success goes on to the next instruction; a failure or the last one
ends the entry, whose completion is offered (R80). -/
def adminDone (b : Block) (p st det : Nat) (aux : Word64) : Block :=
  match (pav b p).exec with
  | none => b
  | some x =>
    if success st ∧ x.idx + 1 < x.instrs.length then
      updExec b p (fun y => { Exec.start y.cmd y.instrs with idx := y.idx + 1 })
    else
      let k := cmd b x.cmd
      let b := updPav b p (fun v => { v with exec := none })
      if k.discarded then dropAdmin b x.cmd
      else
        let b := updCmd b x.cmd (fun k => { k with offered := true })
        let b := { b with entries := b.entries.filter (fun y => decide (y.2.cmd ≠ x.cmd)) }
        offer b (2048 + p) ⟨[x.cmd], none, 4096 + p, k.cid, st, det, false, 0, 0, 0, aux, []⟩

/-- INVALID_FIELD of an admin instruction (R107): the offset, and the reason in AUX byte 24. -/
def adminFail (b : Block) (p offset reason : Nat) : Block := adminDone b p stInvalid offset (BitVec.ofNat 64 reason)

/-- INVALID_FIELD with a QID in completion bytes 27:26 (R111, R115). -/
def adminFailQid (b : Block) (p offset reason qid : Nat) : Block :=
  adminDone b p stInvalid offset (BitVec.ofNat 64 (reason + qid * 65536))

/-- OK. -/
def adminOk (b : Block) (p : Nat) : Block := adminDone b p stOk 0 0

/-- The bits of an admin instruction's byte o that its table names (R107). STRIPE.ADD's member PA names a page: its SLOT and its bits
above LANE are taken as reserved (log entry 92, DEDUCED). -/
def adminBits (x : List Byte) (o : Nat) : Nat :=
  let op := iOp x
  let w2 := decide (16 ≤ o ∧ o < 24)
  let qid : Nat := if o = 2 then 0xFF else if o = 3 then 0xF else 0
  let cqid : Nat := if o = 2 then 0xFF else if o = 3 then 0x7 else 0
  if o < 2 then 0xFF
  else if op = 0x80 then
    if o = 2 ∨ o = 3 then qid else if o = 4 then 0xFF else if o = 5 then 0x7 else if o = 6 then 0xFF
    else if o = 7 then 0xF else if o = 8 then (if (byteAt x 7).testBit 0 then 0x3F else 0)
    else if o = 10 then 0xFF else if o = 11 then 0xF else if w2 then 0xFF else 0
  else if op = 0x81 then qid
  else if op = 0x82 then if o = 6 then 0xFF else if w2 then 0xFF else cqid
  else if op = 0x83 then cqid
  else if op = 0x84 ∨ op = 0x88 then if o = 4 ∨ o = 5 then 0xFF else qid
  else if op = 0x90 then if o = 4 then 1 else qid
  else if op = 0x91 then if o = 4 then 1 else if w2 then 0xFF else qid
  else if op = 0x92 then if w2 then 0xFF else qid
  else if op = 0x93 then qid
  else if op = 0x98 ∨ op = 0x99 then if o = 2 then 0xFF else 0
  else if op = 0x9A then
    if o = 2 then 0xFF else if o = 8 then 0xF8 else if 9 ≤ o ∧ o < 13 then 0xFF else if o = 13 then 0x1F
    else if o = 16 ∨ o = 17 then 0xFF else 0
  else if op = 0xA0 then
    if o = 2 ∨ o = 3 then cqid else if o = 4 then 0xFF else if o = 5 then 3 else if o = 6 then 0x1F
    else if 7 ≤ o ∧ o < 10 then 0xFF else 0
  else if op = 0xA8 then if o = 2 ∨ o = 4 ∨ o = 5 then 0xFF else if w2 then 0xFF else 0
  else 0

/-- The first checks of an admin instruction (R107): NU, then reserved bits in increasing offset. -/
def adminForm (x : List Byte) : Option (Nat × Nat) :=
  if iNu x ≠ 2 then some (1, 7)
  else
    match (List.range x.length).find? (fun o => decide (byteAt x o &&& (0xFF - adminBits x o) ≠ 0)) with
    | some o => some (o, 7)
    | none => none

/-- Runs the executor's current instruction where it is of the named opcode: after its first checks, `f` has the rest. A
running block and an enabled admin queue are what it needs; a started command runs on in a suspended pavilion (R99). -/
def adminRun (p op : Nat) (f : List Byte → Block → Block) (b : Block) : Block :=
  if !running b || !decide (p < 16) then b
  else
    let b := adminStart b p
    match (pav b p).exec, adminInstr b p with
    | some ex, some x =>
      if iOp x ≠ op then b
      else if ex.started then f x b
      else
        match adminForm x with
        | some z => adminFail b p z.1 z.2
        | none => f x b
    | _, _ => b

/-- A pavilion's executor begins to wait within its instruction. -/
def adminWait (b : Block) (p : Nat) : Block := updExec b p (fun y => { y with started := true })

/-- The executor is within its instruction. -/
def adminStarted (b : Block) (p : Nat) : Bool := ((pav b p).exec.map (·.started)).getD false

/-- An identifier within a grant register's range (R97). -/
def granted (b : Block) (p reg id : Nat) : Bool :=
  let r := rget b (pavReg p reg)
  decide (fld r 15 0 ≤ id) && decide (id < fld r 15 0 + fld r 31 16)

/-- QID or key slot in bytes 3:2. -/
def aId (x : List Byte) : Nat := fieldAt x 2 2 % 4096
/-- CQID in bytes 3:2. -/
def aCqid (x : List Byte) : Nat := fieldAt x 2 2 % 2048

/-- The service queue bound to a lane and class (R109). -/
def serviceQueue (b : Block) (n cls : Nat) : Option Nat :=
  (b.sqs.find? (fun x => x.2.live && x.2.service && decide (x.2.lane = n ∧ x.2.cls = cls))).map (·.1)

/-- An existing completion queue of pavilion p. -/
def ownCq (b : Block) (p c : Nat) : Bool := (cq b c).live && decide ((cq b c).owner = p) && decide (c < 2048)

/-- The failure of an operand that names a queue of the pavilion: 3 missing, 1 another's (R110, R111, R113, R118). -/
def sqFail (b : Block) (p q : Nat) : Option Nat :=
  if !(sq b q).live then some 3 else if (sq b q).owner ≠ p then some 1 else none

/-- The same for a completion queue. -/
def cqFail (b : Block) (p c : Nat) : Option Nat :=
  if !(cq b c).live then some 3 else if (cq b c).owner ≠ p then some 1 else none

/-- SQ.CREATE (R108). -/
def sqCreate (p : Nat) (b : Block) : Block :=
  adminRun p 0x80 (fun x b =>
    let q := aId x
    let c := fieldAt x 4 2 % 2048
    let k := byteAt x 6
    let svc := (byteAt x 7).testBit 0
    let cls := byteAt x 7 / 2 % 8
    let n := byteAt x 8 % 64
    let ks := fieldAt x 10 2 % 4096
    let slot := keySlot b ks
    if b.build.sqMax ≤ q then adminDone b p stNoResource 0 0
    else if !granted b p 0xD010 q || ((sq b q).live && decide ((sq b q).owner ≠ p)) then adminFail b p 2 1
    else if (sq b q).live then adminFail b p 2 2
    else if !ownCq b p c then adminFail b p 4 3
    else if (cq b c).broken then adminFail b p 4 4
    else if k < 4 ∨ 16 < k then adminFail b p 6 6
    else if svc && !rbit b (pavReg p 0xD000) 2 then adminFail b p 7 9
    else if svc && decide (b.build.lanes ≤ n) then adminFail b p 8 6
    else if svc && (serviceQueue b n cls).isSome then adminFail b p 8 2
    else if ks ≠ 0 ∧ (slot.st = .empty ∨ slot.owner ≠ p) then adminFail b p 10 1
    else if ks = 0 ∧ !pavSec b p then adminFail b p 10 9
    else if ks ≠ 0 ∧ slot.st = .void then adminFail b p 10 4
    else if addrBad (iAddr x) 4096 then adminFail b p 16 8
    else
      let b := updSq b q (fun _ =>
        { Sq.none with
          live := true, owner := p, k := k, base := iAddr x, cq := c, key := ks, service := svc, lane := n, cls := cls })
      adminOk b p) b

/-- A queue is gone: its number, its lane and class, and its key slot's binding are free (R110, R402). -/
def removeSq (b : Block) (q : Nat) : Block :=
  let ks := (sq b q).key
  freeVoid { b with sqs := terase b.sqs q } ks

/-- SQ.DELETE (R110): the queue is deleting and its unarmed chain dropped; once no command of it is outstanding, or only
commands whose completions, or whose FAULT_DISCARD, a broken ring holds, it is gone. -/
def sqDelete (p : Nat) (b : Block) : Block :=
  adminRun p 0x81 (fun x b =>
    let q := aId x
    let finish (b : Block) : Block :=
      let out := b.cmds.filter (fun y => decide (y.2.sq = q))
      if out.all (fun y => (y.2.offered || y.2.discarded) && (cq b (sq b q).cq).broken) then
        adminOk (removeSq (each (out.map (·.1)) retire b) q) p
      else b
    if adminStarted b p then finish b
    else
      match sqFail b p q with
      | some r => adminFail b p 2 r
      | none =>
        let ch := (sq b q).chain
        let b := fetchGone (updSq b q (fun y => { y with deleting := true, chain := none })) q
        let b := match ch with
          | some ch => dropChain b ch.cmd
          | none => b
        finish (adminWait b p)) b

/-- CQ.CREATE (R112). -/
def cqCreate (p : Nat) (b : Block) : Block :=
  adminRun p 0x82 (fun x b =>
    let c := aCqid x
    let k := byteAt x 6
    if b.build.cqMax ≤ c then adminDone b p stNoResource 0 0
    else if !granted b p 0xD014 c || ((cq b c).live && decide ((cq b c).owner ≠ p)) then adminFail b p 2 1
    else if (cq b c).live then adminFail b p 2 2
    else if k < 4 ∨ 16 < k then adminFail b p 6 6
    else if addrBad (iAddr x) 4096 then adminFail b p 16 8
    else
      adminOk (updCq b c (fun _ => { Cq.none with live := true, owner := p, k := k, base := iAddr x })) p) b

/-- A completion queue is removed (R111, R90, R103): every completion held for it is dropped, and what returns for its writes
is discarded. -/
def removeCq (b : Block) (c : Nat) : Block :=
  let held := ((laneNums b).flatMap (fun n => (lane b n).holding.filter (fun y => decide (y.1 = c)))).map (·.2)
  let b := each ((cq b c).wait ++ held) (fun b x => each x.cmds retire b) b
  let b := each (laneNums b) (fun b n =>
    if (lane b n).holding.any (fun y => decide (y.1 = c)) then
      updLane b n (fun l => { l with holding := l.holding.filter (fun y => decide (y.1 ≠ c)) })
    else b) b
  reholdAll
    { b with
      cqs := terase b.cqs c
      bursts := b.bursts.map (fun x => match x.owner with
        | .comp c' _ => if c' = c then { x with dropped := true } else x
        | _ => x) }

/-- The lowest submission queue bound to ring c. -/
def boundTo (b : Block) (c : Nat) : Option Nat :=
  (b.sqs.find? (fun x => x.2.live && decide (x.1 < 4096 ∧ x.2.cq = c))).map (·.1)

/-- CQ.DELETE (R111). -/
def cqDelete (p : Nat) (b : Block) : Block :=
  adminRun p 0x83 (fun x b =>
    let c := aCqid x
    match cqFail b p c with
    | some r => adminFail b p 2 r
    | none =>
      match boundTo b c with
      | some q => adminFailQid b p 2 5 q
      | none => adminOk (removeCq b c) p) b

/-- A slot at which a stopped queue may resume (R113). -/
def resumeOk (q : Sq) (slot : Nat) : Bool := decide ((slot + 2 ^ q.k - q.head) % 2 ^ q.k ≤ q.posted)

/-- A stopped queue's head moves to a slot, as an index of the ring, and fetching goes on from it (R64, R94, R113). -/
def resumeSq (b : Block) (key slot : Nat) : Block :=
  updSq b key (fun q =>
    { q with
      stopped := false, head := slot % 2 ^ q.k, fetch := slot % 2 ^ q.k, short := 0, seen := 0, full := none, chain := none })

/-- SQ.RESUME (R113). -/
def sqResume (p : Nat) (b : Block) : Block :=
  adminRun p 0x84 (fun x b =>
    let q := aId x
    match sqFail b p q with
    | some r => adminFail b p 2 r
    | none =>
      if !(sq b q).stopped then adminFail b p 2 4
      else if !resumeOk (sq b q) (fieldAt x 4 2) then adminFail b p 4 6
      else adminOk (resumeSq b q (fieldAt x 4 2)) p) b

/-- A vector's target and moderation are set (R114, R387). -/
def bindVector (b : Block) (v target mcount mtime : Nat) : Block :=
  if v = 0 then b
  else
    let b := rputF (rputF b (srcCfg v) 4 0 target) (srcCfg v) 23 16 mcount
    rputF b (srcCfg v + 4) 15 0 mtime

/-- A vector is in use by a completion queue of another pavilion (R97). -/
def vectorTaken (b : Block) (p v : Nat) : Bool :=
  b.cqs.any (fun x => x.2.live && decide (x.2.vector = v) && decide (x.2.owner ≠ p))

/-- VECTOR.BIND (R114, R97). -/
def vectorBind (p : Nat) (b : Block) : Block :=
  adminRun p 0xA0 (fun x b =>
    let c := aCqid x
    let v := fieldAt x 4 2 % 1024
    let t := byteAt x 6 % 32
    match cqFail b p c with
    | some r => adminFail b p 2 r
    | none =>
      if v ≠ 0 ∧ (v < 64 ∨ !granted b p 0xD01C v ∨ vectorTaken b p v) then adminFail b p 4 1
      else if !rbit b (pavReg p 0xD004) t then adminFail b p 6 9
      else if byteAt x 7 = 0 then adminFail b p 7 6
      else if fieldAt x 8 2 = 0 then adminFail b p 8 6
      else
        let b := updCq b c (fun q => { q with vector := v })
        adminOk (bindVector b v t (byteAt x 7) (fieldAt x 8 2)) p) b

/-- The failure of a key command's slot: 1 for slot 0 or outside the range or another pavilion's (R115, R97). KEY.EXPORT and
KEY.DESTROY make it before they ask whether the slot is empty (log entry 91, DEDUCED from R97). -/
def keyRange (b : Block) (p k : Nat) : Bool :=
  decide (k ≠ 0) && granted b p 0xD018 k &&
    (decide ((keySlot b k).st = .empty) || decide ((keySlot b k).owner = p))

/-- Fills a slot with a key (R394, R396, R398). -/
def fillSlot (b : Block) (p k : Nat) (key : BitVec 512) (exportable : Bool) : Block :=
  updKey (unplantKey k b) k (fun _ => ⟨.live, key, p, exportable, false⟩)

/-- KEY.CREATE (R115, R396, R406). -/
def keyCreate (p : Nat) (b : Block) : Block :=
  adminRun p 0x90 (fun x b =>
    let k := aId x
    if retired b then adminFail b p 0 9
    else if !keyRange b p k then adminFail b p 2 1
    else if (keySlot b k).st ≠ .empty then adminFail b p 2 2
    else if rbit b 0x10504 1 then adminDone b p stNoResource 1 0
    else if !rngReady b then adminWait b p
    else
      let (v, b) := drawKey b
      adminOk (fillSlot b p k v ((byteAt x 4).testBit 0)) p) b

/-- Issues one burst of an admin transfer on the pavilion's port; a denied read returns zeros and a denied write is dropped, at
once (R392). -/
def adminBurst (b : Block) (p part addr beats : Nat) (write : Option (List Beat × List (BitVec 64))) : Block :=
  let x := match write with
    | none => mkRead (pavPort b p) (24 + p) 3 (.admin p part) addr beats (pavSec b p)
    | some w => mkWrite (pavPort b p) (24 + p) 3 (.admin p part) addr w.1 w.2 (pavSec b p)
  let (ok, b) := issue b x
  if ok then updExec b p (fun y => { y with left := y.left + 1 })
  else if write.isNone then
    updExec b p (fun y => { y with data := y.data ++ (List.range beats).map (fun i => (part + i, (0 : Beat))) })
  else b

/-- The bytes an admin transfer has read, from its beats in order. -/
def adminBytes (ex : Exec) (beats : Nat) : List Byte :=
  (List.range beats).flatMap (fun i => beatBytes (((ex.data.find? (fun y => decide (y.1 = i))).map (·.2)).getD 0))

/-- The end of a KEY.LOAD whose blob has been read (R398): unwrapped under the key judged at its start, into a slot that is still
empty (R97). The offset of an unwrap's integrity failure is not stated: the blob's address, 16 (log entry 90, DESIGN CHOICE). -/
def keyLoadEnd (b : Block) (p : Nat) (ex : Exec) (x : List Byte) : Block :=
  let k := aId x
  let plain := (ex.wrapKey.bind (fun wk => keyUnwrap wk ((adminBytes ex 2).take 80))).bind blobKey
  if ex.bad then adminDone b p stDma 2 0
  else
    match plain with
    | none => adminFail b p 16 10
    | some y =>
      if !keyRange b p k then adminFail b p 2 1
      else if (keySlot b k).st ≠ .empty then adminFail b p 2 2
      else adminOk (fillSlot b p k y.1 (y.2 && (byteAt x 4).testBit 0)) p

/-- The end of an admin transfer whose bursts are all back (R115, R117). -/
def adminTransferEnd (b : Block) (p : Nat) : Block :=
  match (pav b p).exec, adminInstr b p with
  | some ex, some x =>
    if !ex.started ∨ ex.left ≠ 0 then b
    else if iOp x = 0x91 then keyLoadEnd b p ex x
    else if iOp x = 0x92 ∨ iOp x = 0xA8 then
      if ex.bad then adminDone b p stDma 2 0 else adminOk b p
    else b
  | _, _ => b

/-- KEY.LOAD (R115, R398, R399, R406): the blob is read, and unwrapped when its burst is back. -/
def keyLoad (p : Nat) (b : Block) : Block :=
  adminRun p 0x91 (fun x b =>
    let k := aId x
    if adminStarted b p then b
    else if retired b || (wrapKeyOf b p).isNone then adminFail b p 0 9
    else if !keyRange b p k then adminFail b p 2 1
    else if (keySlot b k).st ≠ .empty then adminFail b p 2 2
    else if addrBad (iAddr x) 128 then adminFail b p 16 8
    else
      let wk := wrapKeyOf b p
      let b := updExec (adminWait b p) p (fun y => { y with wrapKey := wk })
      adminTransferEnd (adminBurst b p 0 (iAddr x) 2 none) p) b

/-- KEY.EXPORT (R115, R397, R399): the wrapped blob is written as one burst of two beats, 80 bytes. A key that cannot be read fails it with
reason 4 at offset 0, and nothing is written (R456). -/
def keyExport (p : Nat) (b : Block) : Block :=
  adminRun p 0x92 (fun x b =>
    let k := aId x
    let s := keySlot b k
    if adminStarted b p then b
    else
      match wrapKeyOf b p with
      | none => adminFail b p 0 9
      | some wk =>
        if !keyRange b p k then adminFail b p 2 1
        else if s.st ≠ .live then adminFail b p 2 3
        else if !s.exportable then adminFail b p 2 9
        else if addrBad (iAddr x) 128 then adminFail b p 16 8
        else
          let (found, b) := readKey b k
          if !found then adminFail b p 0 4 else
          let blob := keyWrap wk (blobPlain s)
          adminTransferEnd (adminBurst (adminWait b p) p 0 (iAddr x) 2
            (some (toBeats blob, [maskFirst 64, maskFirst 16]))) p) b

/-- KEY.DESTROY (R115, R400). -/
def keyDestroy (p : Nat) (b : Block) : Block :=
  adminRun p 0x93 (fun x b =>
    let k := aId x
    if !keyRange b p k then adminFail b p 2 1
    else if (keySlot b k).st = .empty then adminFail b p 2 3
    else
      match boundQueues b k with
      | q :: _ => adminFailQid b p 2 5 q
      | [] => adminOk (emptySlot b k) p) b

/-- A stripe that the pavilion may name: within its range and no other pavilion's (R116, R97). -/
def stripeNamed (b : Block) (p st : Nat) : Bool :=
  granted b p 0xD020 st &&
    (decide ((stripe b st).owner = p) || !((stripe b st).isOpen || !(stripe b st).closing.isEmpty))

/-- STRIPE.OPEN (R116). -/
def stripeOpen (p : Nat) (b : Block) : Block :=
  adminRun p 0x98 (fun x b =>
    let st := byteAt x 2
    if !stripeNamed b p st then adminFail b p 2 1
    else if (stripe b st).isOpen then adminFail b p 2 2
    else
      let (k, b) := newId b
      adminOk (updStripe b st (fun _ => { Stripe.none with isOpen := true, owner := p, opening := k })) p) b

/-- A unit is a member of an open stripe. -/
def unitInStripe (b : Block) (n d u : Nat) : Bool :=
  b.stripes.any (fun s => s.2.isOpen && s.2.members.any (fun m => decide (m.lane = n ∧ m.die = d ∧ m.unit = u)))

/-- STRIPE.ADD (R116). -/
def stripeAdd (p : Nat) (b : Block) : Block :=
  adminRun p 0x9A (fun x b =>
    let st := byteAt x 2
    let pa := iPa x
    let n := paLane pa
    let last := fieldAt x 16 2
    if !stripeNamed b p st then adminFail b p 2 1
    else if !(stripe b st).isOpen then adminDone b p stStripeClosed 0 0
    else if 64 ≤ (stripe b st).members.length then adminDone b p stNoResource 0 0
    else if b.build.lanes ≤ n ∨ !dieValid b n (paDie pa) then adminFail b p 8 6
    else if unitInStripe b n (paDie pa) (paUnit pa) then adminFail b p 8 2
    else if last < paPage pa then adminFail b p 16 6
    else
      let m : Member := ⟨n, paDie pa, paUnit pa, paPage pa, last, false⟩
      adminOk (updStripe b st (fun s =>
        { s with members := s.members ++ [m], counts := tupd 0 s.counts n (· + (last - paPage pa + 1)) })) p) b

/-- STRIPE.CLOSE (R116): fetches find the stripe closed at once; it completes when every member lane has taken the close. -/
def stripeClose (p : Nat) (b : Block) : Block :=
  adminRun p 0x99 (fun x b =>
    let st := byteAt x 2
    if adminStarted b p then b
    else if !stripeNamed b p st then adminFail b p 2 1
    else if !(stripe b st).isOpen then adminDone b p stStripeClosed 0 0
    else
      let lanes := (List.range 64).filter (fun n => (stripe b st).members.any (fun m => decide (m.lane = n)))
      if lanes.isEmpty then adminOk { b with stripes := terase b.stripes st } p
      else
        let b := updStripe b st (fun s => { s with isOpen := false, closing := lanes, closer := some p })
        let b := each lanes (fun b n => updLane b n (fun l => { l with closes := l.closes ++ [st] })) b
        adminWait b p) b

/-- A close has been taken by lane n (R116, R153): when it was the last, the stripe is gone and STRIPE.CLOSE completes. -/
def stripeCloseTaken (n st : Nat) (b : Block) : Block :=
  let s := stripe b st
  if s.closing.contains n ∧ (lane b n).closes.contains st ∧ laneRuns b n then
    let b := updLane b n (fun l => { l with closes := l.closes.filter (· != st) })
    let rest := s.closing.filter (· != n)
    if rest.isEmpty then
      let b := { b with stripes := terase b.stripes st }
      match s.closer with
      | some p => adminOk b p
      | none => b
    else updStripe b st (fun s => { s with closing := rest })
  else b

/-- What IDENTIFY reports (R117), as one number: the facts of each CNS, from which its bytes are laid out. -/
def identifyFacts (b : Block) (p cns index : Nat) : Nat :=
  let join (l : List Nat) : Nat := leNat (l.flatMap (leBytes 8))
  if cns = 0 then
    join ([b.build.lanes, b.build.sqMax, b.build.cqMax, 1023, 4096, 256, rfld b 0x200 5 0, (rget b 0x3800C).toNat] ++
      (laneNums b).map (fun n => rfld b (laneReg n 0x308) 31 0))
  else if cns = 1 then
    join ([(rget b (pavReg p 0xD000)).toNat % 8] ++
      ([0xD010, 0xD014, 0xD018, 0xD01C, 0xD020, 0xD004].map (fun r => (rget b (pavReg p r)).toNat)) ++
      [(b.sqs.filter (fun x => x.2.live && decide (x.2.owner = p))).length,
       (b.cqs.filter (fun x => x.2.live && decide (x.2.owner = p))).length,
       (b.keys.filter (fun x => decide (x.2.st ≠ .empty) && decide (x.2.owner = p))).length,
       (b.stripes.filter (fun x => x.2.isOpen && decide (x.2.owner = p))).length,
       ((List.range 1024).filter (fun v => decide (v ≠ 0) &&
         b.cqs.any (fun x => x.2.live && decide (x.2.owner = p) && decide (x.2.vector = v)))).length])
  else if cns = 2 then
    join ([rfld b (laneReg index 0x204) 3 0, rfld b (laneReg index 0x204) 20 8, ofBool (laneNative b index)] ++
      (List.range 64).map (fun d => (dieMap b index d).toNat))
  else leNat (famBytes b index 0 0x40)

/-- IDENTIFY (R117): a 4 KiB page is written as bursts of four beats. -/
def identify (p : Nat) (b : Block) : Block :=
  adminRun p 0xA8 (fun x b =>
    let cns := byteAt x 2
    let index := fieldAt x 4 2
    let limit := if cns = 2 then b.build.lanes else if cns = 3 then 16 else 1
    if adminStarted b p then b
    else if 3 < cns then adminFail b p 2 6
    else if limit ≤ index then adminFail b p 4 6
    else if addrBad (iAddr x) 4096 then adminFail b p 16 8
    else
      let facts := identifyFacts b p cns index
      let lanes := b.build.lanes
      let part (b : Block) (i : Nat) : Block :=
        let bytes := (List.range 256).map (fun o => Config.identifyByte lanes cns index (256 * i + o) facts)
        adminBurst b p (4 * i) (iAddr x + 256 * i) 4 (some (toBeats bytes, List.replicate 4 (maskFirst 64)))
      adminTransferEnd (each (List.range 16) part (adminWait b p)) p) b

/-- The outcome of an ABORT whose members have all been decided (R121). -/
def abortEnd (b : Block) (p : Nat) : Block :=
  match (pav b p).exec with
  | none => b
  | some ex =>
    match ex.abort with
    | none => b
    | some a =>
      if !a.left.isEmpty then b
      else
        let aux : Word64 := BitVec.ofNat 64 (a.aborted + 256 * a.late)
        if a.late = 0 then adminDone b p stOk 0 aux
        else adminDone b p stTooLate (if a.aborted = 0 then 0 else 1) aux

/-- ABORT (R118, R119): the command is looked up; a chain not yet armed is waited for; each lane that holds a member gets an
abort request, and a member that has finished is too late. A discarded command is outstanding until its FAULT_DISCARD is accepted, and
its members count as aborted (R441). -/
def abort (p : Nat) (b : Block) : Block :=
  adminRun p 0x88 (fun x b =>
    let q := aId x
    if ((pav b p).exec.bind (·.abort)).isSome then b
    else
      match sqFail b p q with
      | some r => adminFail b p 2 r
      | none =>
        match b.cmds.find? (fun y => decide (y.2.sq = q ∧ y.2.cid = fieldAt x 4 2)) with
        | none => adminDone b p stNotFound 0 0
        | some y =>
          if y.2.discarded then
            abortEnd (updExec (adminWait b p) p (fun z => { z with abort := some ⟨y.1, [], y.2.entries.length, 0⟩ })) p
          else if !y.2.armed then adminWait b p
          else
            let waits := y.2.entries.filter (fun e => (entry b e).lane.isSome && !entryDone b e)
            let late := y.2.entries.length - waits.length
            let b := each waits (fun b e => match (entry b e).lane with
              | some n => updLane b n (fun l => { l with aborts := l.aborts ++ [(p, e)] })
              | none => b) b
            let b := updExec (adminWait b p) p (fun z => { z with abort := some ⟨y.1, waits, 0, late⟩ })
            abortEnd b p) b

/-- SQ_CREATE. -/
def execSqCreate (p : Nat) (s : State) : Host.Outcome State Fault Refusal := s.act (sqCreate p)
/-- SQ_DELETE. -/
def execSqDelete (p : Nat) (s : State) : Host.Outcome State Fault Refusal := s.act (sqDelete p)
/-- CQ_CREATE. -/
def execCqCreate (p : Nat) (s : State) : Host.Outcome State Fault Refusal := s.act (cqCreate p)
/-- CQ_DELETE. -/
def execCqDelete (p : Nat) (s : State) : Host.Outcome State Fault Refusal := s.act (cqDelete p)
/-- SQ_RESUME. -/
def execSqResume (p : Nat) (s : State) : Host.Outcome State Fault Refusal := s.act (sqResume p)
/-- VECTOR_BIND. -/
def execVectorBind (p : Nat) (s : State) : Host.Outcome State Fault Refusal := s.act (vectorBind p)
/-- KEY_CREATE. -/
def execKeyCreate (p : Nat) (s : State) : Host.Outcome State Fault Refusal := s.act (keyCreate p)
/-- KEY_LOAD. -/
def execKeyLoad (p : Nat) (s : State) : Host.Outcome State Fault Refusal := s.act (keyLoad p)
/-- KEY_EXPORT. -/
def execKeyExport (p : Nat) (s : State) : Host.Outcome State Fault Refusal := s.act (keyExport p)
/-- KEY_DESTROY. -/
def execKeyDestroy (p : Nat) (s : State) : Host.Outcome State Fault Refusal := s.act (keyDestroy p)
/-- STRIPE_OPEN. -/
def execStripeOpen (p : Nat) (s : State) : Host.Outcome State Fault Refusal := s.act (stripeOpen p)
/-- STRIPE_ADD. -/
def execStripeAdd (p : Nat) (s : State) : Host.Outcome State Fault Refusal := s.act (stripeAdd p)
/-- STRIPE_CLOSE. -/
def execStripeClose (p : Nat) (s : State) : Host.Outcome State Fault Refusal := s.act (stripeClose p)
/-- STRIPE_CLOSE_TAKEN. -/
def execStripeCloseTaken (n stripe : Nat) (s : State) : Host.Outcome State Fault Refusal :=
  s.act (stripeCloseTaken n stripe)
/-- IDENTIFY. -/
def execIdentify (p : Nat) (s : State) : Host.Outcome State Fault Refusal := s.act (identify p)
/-- ABORT. -/
def execAbort (p : Nat) (s : State) : Host.Outcome State Fault Refusal := s.act (abort p)

end Sys2Proof.Machine
end

