-- ==== Sys2Proof/Machine/Channel.lean ====
section
/-! DEFINITION. The general channels of Causeway (R339 to R354): the channel instructions, the handover, DISABLE, bad MOVEs,
and the writes of their registers. -/

namespace Sys2Proof.Machine

open Sys2Proof

/-- The word of instruction i of general channel g of junction j (R339). -/
def progWord (b : Block) (j g i : Nat) : Nat := (rget64 b (juncReg j (0x2000 + 0x100 * g + 8 * i))).toNat

/-- OP of a channel instruction (R340). -/
def cwOp (w : Nat) : Nat := bitsOf w 63 60

/-- CW_CH_CTRL of general channel g. -/
def chCtrl (j g : Nat) : Nat := chanReg j (16 + g) 4

/-- CW_CH_STATUS of general channel g. -/
def chStatus (j g : Nat) : Nat := chanReg j (16 + g) 8

/-- A live burst of general channel g of junction j. -/
def Burst.ofChan (j g : Nat) (x : Burst) : Bool :=
  match x.owner with
  | .general j' g' _ _ _ _ _ => decide (j' = j ∧ g' = g) && !x.dropped
  | _ => false

/-- A read burst that has returned and waits in the buffer. -/
def Burst.landed (x : Burst) : Bool := !x.write && x.id.isNone && decide (0 < x.put)

/-- The engines work: the block is out of reset, ready, not halted, and in PS0. -/
def engineRuns (b : Block) : Bool :=
  !b.inReset && b.lxReady && !faulted b && decide (powerState b = 0)

/-- A program error (R345): the channel enters ERROR with PERR latched; PC shows the instruction at fault. -/
def chanError (b : Block) (j g perr pc : Nat) : Block :=
  rputF (updChan b j g (fun c => { c with run := 4, pc := pc, moving := false })) (chanReg j (16 + g) 0xC) 26 24 perr

/-- Execution comes to an instruction (R345): past instruction 31, and at an unknown OP or a word that cannot be corrected (R451), the
program is in error. -/
def enterPc (b : Block) (j g pc : Nat) : Block :=
  if 32 ≤ pc then chanError b j g 3 31
  else
    let (ok, b) := readProg j g pc b
    if !ok || decide (4 < cwOp (progWord b j g pc)) then chanError b j g 1 pc
    else updChan b j g (fun c => { c with run := 1, pc := pc, moving := false })

/-- The next instruction starts. -/
def nextPc (b : Block) (j g : Nat) : Block := enterPc b j g ((chan b j g).pc + 1)

/-- The handover (R346): the shadow set becomes live, LOAD clears, and the program starts at instruction 0. -/
def handover (b : Block) (j g : Nat) : Block :=
  let base := chanReg j (16 + g)
  let src := (rget64 b (base 0x10)).toNat / 64 * 64
  let dst := (rget64 b (base 0x18)).toNat / 64 * 64
  let b := rclr1 b (chCtrl j g) 0
  let b := rinc b (chStatus j g) 31 24 1
  let n := rfld b (base 0x20) 23 0
  let b := updChan b j g (fun c => { c with src := src, dst := dst, defCount := n, left := 0, loadWait := false })
  enterPc b j g 0

/-- The first bad MOVE or job since VALID was cleared is latched; each counts once (R350). -/
def latchBad (b : Block) (j c index iter : Nat) (write timeout : Bool) (addr : Nat) (count : Bool) : Block :=
  let a := chanReg j c 0xC
  let b := if count then rinc b a 23 16 1 else b
  if rbit b a 7 then b
  else
    let b := rputB (rputB (rputF b a 4 0 index) a 5 write) a 6 timeout
    let b := rputF (rset1 b a 7) a 15 8 iter
    rput64 b (chanReg j c 0x28) (BitVec.ofNat 64 addr)

/-- A burst of a general channel ended in a bus error (R350). -/
def badMove (b : Block) (x : Burst) : Block :=
  match x.owner with
  | .general j g mv pass _ ser _ =>
    let again := (chan b j g).bad.contains ser
    let b := latchBad b j (16 + g) mv pass x.write x.timeout x.addr (!again)
    if again then b else updChan b j g (fun c => { c with bad := ser :: c.bad.take 31 })
  | _ => b

/-- The write bursts of landed beats (R341, R21): destination addresses and beats; a fixed destination takes one beat a
burst. -/
def moveWrites (dst : Nat) (fixed : Bool) (l : List Beat) : List (Nat × List Beat) :=
  if fixed then l.map (fun x => (dst, [x]))
  else (cutBursts 8 dst l.length).map (fun c => (c.1, (l.drop ((c.1 - dst) / 64)).take c.2))

/-- The landed beats at the head of a channel's buffer are written, in order (R341). A channel in ERROR or DISABLED, and a
block shut down by a thermal trip, issues nothing (R345, R353, R374). -/
def drainLanded : Nat → Nat → Nat → Block → Block
  | 0, _, _, b => b
  | n + 1, j, g, b =>
    let c := chan b j g
    if c.run = 4 ∨ c.run = 5 ∨ tripped b ∨ !engineRuns b then b
    else
      match (b.bursts.zipIdx).find? (fun p => p.1.ofChan j g && !p.1.write) with
      | none => b
      | some p =>
        if !p.1.landed then b
        else
          match p.1.owner with
          | .general _ _ mv pass dst ser fixed =>
            let b := { b with bursts := b.bursts.eraseIdx p.2 }
            let b := each (moveWrites dst fixed p.1.data) (fun b w =>
              (issue b (mkWrite j (16 + g) (rfld b (chanReg j (16 + g) 0) 1 0) (.general j g mv pass dst ser fixed) w.1 w.2
                (w.2.map (fun _ => maskFirst 64)) p.1.sec)).2) b
            drainLanded n j g b
          | _ => b

/-- A read burst of a general channel has returned whole (R341, R350): its beats land in the buffer, or, in error, are not
written. -/
def generalReadDone (i : Nat) (x : Burst) (b : Block) : Block :=
  match x.owner with
  | .general j g _ _ _ _ _ =>
    if x.bad then drainLanded 16 j g (badMove { b with bursts := b.bursts.eraseIdx i } x)
    else drainLanded 16 j g { b with bursts := b.bursts.set i { x with id := none, put := 1 } }
  | _ => b

/-- A write burst of a general channel, out of the list, has its response (R350). -/
def generalWriteDone (x : Burst) (b : Block) : Block := if x.bad then badMove b x else b

/-- Beats that take room in a channel's buffer of 512 B (R341): read and not yet written out. -/
def bufferUsed (b : Block) (j g : Nat) : Nat :=
  ((b.bursts.filter (Burst.ofChan j g)).map (fun x => if x.write then x.beats - x.put else x.beats)).foldl
    (· + ·) 0

/-- Every burst of a channel has its response, and every beat read has been written (R343, R347; log entry 30, DEDUCED). -/
def chanDrained (b : Block) (j g : Nat) : Bool := !(b.bursts.any (Burst.ofChan j g))

/-- The pass of the enclosing LOOP, from 1, or 0 outside a loop (R350). -/
def loopPass (b : Block) (j g : Nat) : Nat :=
  let c := chan b j g
  let isLoop (l : Nat) : Bool :=
    let w := progWord b j g l
    decide (cwOp w = 2) && decide (bitsOf w 4 0 ≤ c.pc)
  match (List.range' (c.pc + 1) (31 - c.pc)).find? isLoop with
  | none => 0
  | some l => if c.left = 0 ∨ c.loopAt ≠ l then 1 else bitsOf (progWord b j g l) 23 16 - c.left + 1

/-- A MOVE's fields are those of R340. -/
def moveOk (w : Nat) : Bool :=
  decide (bitsOf w 56 24 = 0) && (if w.testBit 57 then decide (bitsOf w 23 0 = 0) else decide (bitsOf w 23 0 ≠ 0))

/-- A read burst of a channel waits for its port's read slot. -/
def readWaitsSlot (b : Block) (j g : Nat) : Bool :=
  b.bursts.any (fun x => x.ofChan j g && !x.write && x.id.isNone && decide (x.put = 0))

/-- A MOVE issues read bursts while its live count, the buffer and the channel's pool of ids allow, one waiting for the port's read slot
at a time (R341, R334, R348; log entry 106, DEDUCED). A denied read lands as zeros (R335). -/
def moveIssue : Nat → Nat → Nat → Nat → Nat → Block → Block
  | 0, _, _, _, _, b => b
  | n + 1, j, g, w, pass, b =>
    let c := chan b j g
    let fixS := w.testBit 59
    let fixD := w.testBit 58
    let beats :=
      if fixS || fixD then 1 else min (min 4 c.count) (min ((4096 - c.src % 4096) / 64) (8 - bufferUsed b j g))
    let a := chanReg j (16 + g) 0
    let x := mkRead j (16 + g) (rfld b a 1 0) (.general j g c.pc pass c.dst c.ser fixD) c.src (max 1 beats) (rbit b a 2)
    if c.count = 0 ∨ 8 ≤ bufferUsed b j g ∨ readWaitsSlot b j g ∨ !poolFree b x ∨ 2 ^ 48 ≤ c.src ∨ 2 ^ 48 ≤ c.dst then b
    else
      let (sent, b) := issue b x
      let b := updChan b j g (fun c =>
        { c with
          count := c.count - x.beats
          src := if fixS then c.src else c.src + 64 * x.beats
          dst := if fixD then c.dst else c.dst + 64 * x.beats })
      let b := if sent then b
        else drainLanded 16 j g
          { b with bursts := b.bursts ++ [{ x with put := 1, got := x.beats, data := List.replicate x.beats 0 }] }
      moveIssue n j g w pass b

/-- PRIO of general channel g (R348). -/
def chanPrio (b : Block) (j g : Nat) : Nat := rfld b (chanReg j (16 + g) 0) 1 0

/-- A channel within a MOVE issues what it can. -/
def moveOn (j : Nat) (b : Block) (g : Nat) : Block :=
  let c := chan b j g
  if c.run = 1 ∧ c.moving ∧ 0 < c.count ∧ engineRuns b ∧ !tripped b then moveIssue 16 j g (progWord b j g c.pc) (loopPass b j g) b else b

/-- The channels of an engine within a MOVE, of priority `low` and above, issue what they can, the highest priority first (R348). -/
def movesGoOn (j low : Nat) (b : Block) : Block :=
  each ((List.range 4).reverse.filter (fun p => decide (low ≤ p))) (fun b p =>
    each ((List.range 8).filter (fun g => decide (chanPrio b j g = p))) (moveOn j) b) b

/-- CW_MOVE (R341, R345): the MOVE loads its count, issues what it can after the channels of higher priority (R348, R349), and ends once
its count is zero. -/
def cwMove (j c : Nat) (b : Block) : Block :=
  let g := c - 16
  let x := chan b j g
  let w := progWord b j g x.pc
  if c < 16 ∨ x.run ≠ 1 ∨ cwOp w ≠ 1 ∨ !engineRuns b ∨ tripped b then b
  else if !moveOk w then chanError b j g 1 x.pc
  else if 2 ^ 48 ≤ x.src ∨ 2 ^ 48 ≤ x.dst then chanError b j g 4 x.pc
  else
    let b := if x.moving then b
      else updChan b j g (fun y =>
        { y with moving := true, ser := y.ser + 1, count := if w.testBit 57 then y.defCount else bitsOf w 23 0 })
    let b := moveIssue 16 j g w (loopPass b j g) (movesGoOn j (chanPrio b j g + 1) b)
    if (chan b j g).count = 0 then nextPc b j g else b

/-- CW_MOVE. -/
def execCwMove (j c : Nat) (s : State) : Host.Outcome State Fault Refusal := s.act (cwMove j c)

/-- CW_LOOP (R342, R345; log entry 31, DEDUCED): the counter takes N − 1 and falls at each pass; instructions T to the LOOP run N times
in all. -/
def cwLoop (j c : Nat) (b : Block) : Block :=
  let g := c - 16
  let x := chan b j g
  let w := progWord b j g x.pc
  let n := bitsOf w 23 16
  let t := bitsOf w 4 0
  if c < 16 ∨ x.run ≠ 1 ∨ cwOp w ≠ 2 ∨ !engineRuns b then b
  else if bitsOf w 59 24 ≠ 0 ∨ bitsOf w 15 5 ≠ 0 ∨ n < 2 then chanError b j g 1 x.pc
  else if x.pc ≤ t ∨ (x.left ≠ 0 ∧ x.loopAt ≠ x.pc) then chanError b j g 2 x.pc
  else if x.left = 0 then enterPc (updChan b j g (fun y => { y with left := n - 1, loopAt := x.pc })) j g t
  else if x.left = 1 then nextPc (updChan b j g (fun y => { y with left := 0 })) j g
  else enterPc (updChan b j g (fun y => { y with left := y.left - 1 })) j g t

/-- CW_LOOP. -/
def execCwLoop (j c : Nat) (s : State) : Host.Outcome State Fault Refusal := s.act (cwLoop j c)

/-- Another channel of the engine waits on the same flag and is tested before channel g (R344): of higher priority, or of the
same and lower in number. -/
def earlierWaiter (b : Block) (j g ev : Nat) : Bool :=
  let prio (k : Nat) : Nat := rfld b (chanReg j (16 + k) 0) 1 0
  (List.range 8).any (fun k =>
    let x := chan b j k
    let w := progWord b j k x.pc
    decide (x.run = 2) && w.testBit 8 && decide (bitsOf w 3 0 = ev) && (!w.testBit 15 || chanDrained b j k) &&
      (decide (prio g < prio k) || (decide (prio g = prio k) && decide (k < g))))

/-- CW_WAIT (R343, R344): it ends when its flag is set and its drain complete, and clears the flag. -/
def cwWait (j c : Nat) (b : Block) : Block :=
  let g := c - 16
  let x := chan b j g
  let w := progWord b j g x.pc
  let ev := bitsOf w 3 0
  if c < 16 ∨ (x.run ≠ 1 ∧ x.run ≠ 2) ∨ cwOp w ≠ 3 ∨ !engineRuns b then b
  else if bitsOf w 59 16 ≠ 0 ∨ bitsOf w 14 9 ≠ 0 ∨ bitsOf w 7 4 ≠ 0 ∨ (!w.testBit 15 ∧ !w.testBit 8) then
    chanError b j g 1 x.pc
  else if (w.testBit 15 && !chanDrained b j g) ||
      (w.testBit 8 && (!rbit b (juncReg j 0x1004) ev || earlierWaiter b j g ev)) then
    updChan b j g (fun y => { y with run := 2 })
  else
    let b := if w.testBit 8 then rclr1 b (juncReg j 0x1004) ev else b
    nextPc b j g

/-- CW_WAIT. -/
def execCwWait (j c : Nat) (s : State) : Host.Outcome State Fault Refusal := s.act (cwWait j c)

/-- CW_SIGNAL (R343): it sets the event flag and the CW_SIG bit it names. -/
def cwSignal (j c : Nat) (b : Block) : Block :=
  let g := c - 16
  let x := chan b j g
  let w := progWord b j g x.pc
  if c < 16 ∨ x.run ≠ 1 ∨ cwOp w ≠ 4 ∨ !engineRuns b then b
  else if bitsOf w 59 10 ≠ 0 ∨ bitsOf w 7 4 ≠ 0 ∨ (!w.testBit 9 ∧ !w.testBit 8) then chanError b j g 1 x.pc
  else
    let b := if w.testBit 9 then rset1 b (juncReg j 0x100C) g else b
    let b := if w.testBit 8 then rset1 b (juncReg j 0x1004) (bitsOf w 3 0) else b
    nextPc b j g

/-- CW_SIGNAL. -/
def execCwSignal (j c : Nat) (s : State) : Host.Outcome State Fault Refusal := s.act (cwSignal j c)

/-- CW_END (R347): the drain starts. -/
def cwEnd (j c : Nat) (b : Block) : Block :=
  let g := c - 16
  let x := chan b j g
  let w := progWord b j g x.pc
  if c < 16 ∨ x.run ≠ 1 ∨ cwOp w ≠ 0 ∨ !engineRuns b then b
  else if w ≠ 0 then chanError b j g 1 x.pc
  else updChan b j g (fun y => { y with run := 3 })

/-- CW_END. -/
def execCwEnd (j c : Nat) (s : State) : Host.Outcome State Fault Refusal := s.act (cwEnd j c)

/-- CW_DRAIN_COMPLETE (R347): with LOAD set the handover follows, otherwise the channel is IDLE with DONE. -/
def cwDrainComplete (j c : Nat) (b : Block) : Block :=
  let g := c - 16
  if c < 16 ∨ (chan b j g).run ≠ 3 ∨ !chanDrained b j g ∨ !engineRuns b then b
  else if rbit b (chCtrl j g) 0 then handover b j g
  else rset1 (updChan b j g (fun y => { y with run := 0 })) (chStatus j g) 16

/-- CW_DRAIN_COMPLETE. -/
def execCwDrainComplete (j c : Nat) (s : State) : Host.Outcome State Fault Refusal := s.act (cwDrainComplete j c)

/-- A channel's work is dropped (R353, R338): waiting requests go, a write burst under way gets its remaining flits with nothing
to write, and what returns later is discarded. -/
def dropBursts (mine : Burst → Bool) (b : Block) : Block :=
  { b with
    bursts := (b.bursts.filter (fun x => !mine x || x.id.isSome)).map (fun x =>
      if mine x then { x with dropped := true, bmask := if x.put < x.beats then x.bmask.map (fun _ => 0) else x.bmask }
      else x) }

/-- DISABLE is set (R353): the live pointers and count are then undefined. -/
def disableChan (b : Block) (j g : Nat) : Block :=
  let b := dropBursts (Burst.ofChan j g) b
  let (src, b) := freeOf 48 b
  let (dst, b) := freeOf 48 b
  let (n, b) := freeOf 24 b
  updChan b j g (fun c =>
    { c with run := 5, src := src.toNat, dst := dst.toNat, count := n.toNat, left := 0, moving := false, loadWait := false })

/-- A handover on a channel at rest (R346): what waited in its buffer in ERROR goes on. -/
def startChan (b : Block) (j g : Nat) : Block := pump j true (drainLanded 16 j g (handover b j g))

/-- A write of CW_CH_CTRL of a general channel (R346, R353, R354): W1C and LOAD first, then DISABLE, then the handover, which waits while
the clocks are gated. -/
def ctrlWrite (j g : Nat) (m v : Word) (b : Block) : Block :=
  let a := chCtrl j g
  let v := v &&& m
  let was := (chan b j g).run
  let b := plainWrite b a m v
  let b := if v.getLsbD 0 then rset1 b a 0 else b
  let b := if m.getLsbD 1 && v.getLsbD 1 && decide (was ≠ 5) then disableChan b j g
    else if m.getLsbD 1 && !v.getLsbD 1 && decide (was = 5) then updChan b j g (fun c => { c with run := 0 })
    else b
  let r := (chan b j g).run
  if (r = 0 ∨ r = 4) ∧ rbit b a 0 ∧ (v.getLsbD 0 ∨ was = 5) then
    if engineRuns b then startChan b j g else updChan b j g (fun c => { c with loadWait := true })
  else b

/-- A write of CW_CH_CTRL of any channel: LOAD and DISABLE of a lane-bound one ignore it (R336). -/
def chanCtrlWrite (j c : Nat) (m v : Word) (b : Block) : Block :=
  if c < 16 then plainWrite b (chanReg j c 4) m v else ctrlWrite j (c - 16) m v b

/-- CW_LOAD. -/
def execCwLoad (j c : Nat) (v : Word) (sec : Bool) (s : State) : Host.Outcome State Fault Refusal :=
  (regWrite4 s (chanReg j c 4) sec (chanCtrlWrite j c 0xFFFFFFFF v)).settled

/-- CW_DISABLE. -/
def execCwDisable (j c : Nat) (v : Word) (sec : Bool) (s : State) : Host.Outcome State Fault Refusal :=
  (regWrite4 s (chanReg j c 4) sec (fun b => chanCtrlWrite j c 0xFFFFFFFF v b)).settled

/-- CW_DISABLE_CLEAR. -/
def execCwDisableClear (j c : Nat) (v : Word) (sec : Bool) (s : State) : Host.Outcome State Fault Refusal :=
  (regWrite4 s (chanReg j c 4) sec (fun b => (chanCtrlWrite j c 0xFFFFFFFF v) b)).settled

/-- The words a byte mask covers: (address, bytes of the word, value). -/
def maskWords (a : Nat) (bmask : BitVec 8) (v : Word64) : List (Nat × Word × Word) :=
  if bmask = 0xFF then
    [(a, 0xFFFFFFFF, v.extractLsb' 0 32), (a + 4, 0xFFFFFFFF, v.extractLsb' 32 32)]
  else [(a, 0xFFFFFFFF, wordOf a v)]

/-- A write of one word of a general channel's program area (R339): taken only in IDLE, ERROR or DISABLED. -/
def progWrite (j g : Nat) (x : Nat × Word × Word) (b : Block) : Block :=
  let r := (chan b j g).run
  if r = 0 ∨ r = 4 ∨ r = 5 then replaceProg j g ((x.1 - juncReg j (0x2000 + 0x100 * g)) / 8) (plainWrite b x.1 x.2.1 x.2.2)
  else rset1 b (chCtrl j g) 3

/-- CW_PROGRAM_WRITE. -/
def execCwProgramWrite (j g i : Nat) (bmask : BitVec 8) (v : Word64) (sec : Bool) (s : State) :
    Host.Outcome State Fault Refusal :=
  let a := juncReg j (0x2000 + 0x100 * g + 8 * i) + (if bmask = 0xF0 then 4 else 0)
  (portWrite s a bmask sec (fun s =>
    { s with blk := each (maskWords a bmask v) (fun b x => progWrite j g x b) s.blk })).settled

/-- A write of CW_EVENT (write 1 to clear) or CW_EVENT_SET (R344). -/
def eventWrite (j : Nat) (set : Bool) (v : Word) (b : Block) : Block :=
  if set then rput b (juncReg j 0x1004) (rget b (juncReg j 0x1004) ||| (v &&& 0xFFFF))
  else plainWrite b (juncReg j 0x1004) 0xFFFFFFFF v

/-- CW_EVENT_WRITE. -/
def execCwEventWrite (j : Nat) (set : Bool) (v : Word) (sec : Bool) (s : State) : Host.Outcome State Fault Refusal :=
  (regWrite4 s (juncReg j (if set then 0x1008 else 0x1004)) sec (eventWrite j set v)).settled

/-- LOAD of lane-bound channel c of junction j (R336): a job waits behind the running one, or was left so by a reset (R338). -/
def laneLoad_ (b : Block) (j c : Nat) : Bool :=
  let l := lane b (8 * j + c / 2)
  rbit b (chanReg j c 4) 0 || decide (1 < (if c % 2 = 0 then l.inJobs else l.outJobs).length)

/-- The waiting bursts of a channel follow its PRIO (R348). -/
def followPrio (j c : Nat) (b : Block) : Block :=
  let p := rfld b (chanReg j c 0) 1 0
  { b with bursts := b.bursts.map (fun x => if x.port = j ∧ x.ini = c then { x with prio := p } else x) }

/-- A write of another word of a channel's registers (R346, R336, R23): the shadow set is locked while LOAD is set, and SEC takes
secure writes only. -/
def chanWrite (a : Nat) (m v : Word) (sec : Bool) (b : Block) : Block :=
  let j := (a - 0x80000) / 0x8000
  let o := (a - 0x80000) % 0x8000 - 0x1100
  let c := o / 0x40
  let f := o % 0x40
  if f = 4 then chanCtrlWrite j c m v b
  else if c < 16 ∧ 0x10 ≤ f then
    if f < 0x24 ∧ laneLoad_ b j c then rset1 b (chanReg j c 4) 2 else b
  else if f = 0 then followPrio j c (plainWrite b a (if sec then m else m &&& 3) v)
  else if 16 ≤ c ∧ 0x10 ≤ f ∧ f < 0x24 ∧ rbit b (chanReg j c 4) 0 then rset1 b (chanReg j c 4) 2
  else plainWrite b a m v

end Sys2Proof.Machine
end

