-- ==== Sys2Proof/Machine/Load.lean ====
section
/-! DEFINITION. The block's own reads of CFLASH (R411, R413): the words of the array and of the identity row, the counting of what a
read corrects, and the loads of the family tables and recovery sets (R253, R300, R411, R465). -/

namespace Sys2Proof.Machine

open Sys2Proof

/-- An erased word of the main array, of a seal and of the protection row (R410). -/
def erasedWord : Word64 := 0xFFFFFFFFFFFFFFFF

/-- Word k of the main array: bytes 8 k to 8 k + 7 (R410). -/
def arrWord (nv : NonVol) (k : Nat) : Word64 := tget erasedWord nv.arr k

/-- Bytes of the main array. -/
def arrBytes (nv : NonVol) (addr n : Nat) : List Byte :=
  ((List.range ((addr % 8 + n + 7) / 8)).flatMap (fun i => leBytes 8 (arrWord nv (addr / 8 + i)).toNat)).drop (addr % 8) |>.take n

/-- A read of a sector has found `corr` bits to correct, and `unc` whether a word of it cannot be corrected (R413): they are counted,
and the sector of a warning or of an uncorrectable word is latched. -/
def noteRead (b : Block) (sector corr : Nat) (unc : Bool) : Block :=
  let a := 0x20034
  let b := rinc b a 7 0 corr
  let warn := decide (rfld b 0x20030 7 0 < corr)
  let b := if warn then rset1 b a 8 else b
  let b := if unc then rset1 b a 9 else b
  if warn || unc then rputF b a 25 16 sector else b

/-- The errors of a load's reads are counted, each sector being one read. -/
def noteErrs (b : Block) (sectors : List Nat) (errs : List ReadErr) : Block :=
  each (errs.filter (fun x => sectors.contains x.sector)) (fun b x => noteRead b x.sector x.corr (!x.bad.isEmpty)) b

/-- What a read of erased words finds (R410): no correction is counted for one, and it reads all ones. -/
def seenErrs (nv : NonVol) (errs : List ReadErr) : List ReadErr :=
  (errs.filter (fun x => nv.arr.any (fun p => decide (p.1 / 512 = x.sector)))).map (fun x =>
    { x with bad := x.bad.filter (fun k => decide (arrWord nv (512 * x.sector + k) ≠ erasedWord)) })

/-- The words of the array that a load could not correct, by their byte address. -/
def badWords (errs : List ReadErr) : List Nat := errs.flatMap (fun x => x.bad.map (fun k => 4096 * x.sector + 8 * k))

/-- The array's words from a byte address on, as register words keyed from `key`: words that read as erased are not listed. -/
def copyWords (nv : NonVol) (addr len key : Nat) : Tab Word :=
  ((nv.arr.filter (fun p => decide (addr / 8 ≤ p.1 ∧ p.1 < (addr + len) / 8))).flatMap (fun p =>
    let o := key + 8 * p.1 - addr
    [(o, p.2.extractLsb' 0 32), (o + 4, p.2.extractLsb' 32 32)])).filter (fun p => decide (p.2 ≠ 0xFFFFFFFF))

/-- A copied word that could not be corrected: what the copy then holds is a free value (log entry 3, DESIGN CHOICE). -/
def freeCopy (t : Tab Word) (b : Block) (o : Nat) : Tab Word × Block :=
  let (x, b) := freeOf 32 b
  let (y, b) := freeOf 32 b
  (tset 0xFFFFFFFF (tset 0xFFFFFFFF t o x) (o + 4) y, b)

/-- A copy of part of the array with its uncorrectable words. -/
def copyPart (nv : NonVol) (errs : List ReadErr) (addr len key : Nat) (b : Block) : Tab Word × Block :=
  ((badWords errs).filter (fun x => decide (addr ≤ x ∧ x < addr + len))).foldl (fun acc x => freeCopy acc.1 acc.2 (key + x - addr))
    (copyWords nv addr len key, b)

/-- TABLE_REFS entry i of family f (R300). -/
def tableRef (b : Block) (f i : Nat) : Nat := fam32 b f (0x1E4 + 4 * i)

/-- The three blocks of a recovery set lie in CFLASH (R300), so that they can be read. -/
def refsOk (b : Block) (f : Nat) : Bool :=
  (List.range 3).all (fun i => decide (tableRef b f i % 4096 = 0)) &&
    decide (tableRef b f 0 + 0x8000 ≤ 0x400000 ∧ tableRef b f 1 + 0x1000 ≤ 0x400000 ∧ tableRef b f 2 + 0x400 ≤ 0x400000)

/-- The sectors that a recovery set's blocks lie in. -/
def refSectors (b : Block) (f : Nat) : List Nat :=
  (List.range' (tableRef b f 0 / 4096) 8) ++ [tableRef b f 1 / 4096, tableRef b f 2 / 4096]

/-- Loads the recovery set that family f's table names (R300, R411): SYS_TBL_SEL.RSET says whether the block holds one. -/
def loadRecovery (nv : NonVol) (errs : List ReadErr) (b : Block) (f : Nat) : Block :=
  let out := b.rset.filter (fun p => decide (p.1 / 0x9400 ≠ f))
  let b := { b with famDirty := b.famDirty.filter (· != f), tblBad := b.tblBad.filter (· != 4096 + f) }
  let errs := seenErrs nv errs
  if !refsOk b f then rclr1 { b with rset := out } 0x8 (16 + f)
  else
    let b := noteErrs b (refSectors b f) errs
    let (r0, b) := copyPart nv errs (tableRef b f 0) 0x8000 (0x9400 * f) b
    let (r1, b) := copyPart nv errs (tableRef b f 1) 0x1000 (0x9400 * f + 0x8000) b
    let (r2, b) := copyPart nv errs (tableRef b f 2) 0x400 (0x9400 * f + 0x9000) b
    let bad := (badWords errs).any (fun x =>
      decide (tableRef b f 0 ≤ x ∧ x < tableRef b f 0 + 0x8000) || decide (tableRef b f 1 ≤ x ∧ x < tableRef b f 1 + 0x1000) ||
        decide (tableRef b f 2 ≤ x ∧ x < tableRef b f 2 + 0x400))
    rset1 { b with
      rset := out.filter (fun p => decide (p.1 < 0x9400 * f)) ++ r0 ++ r1 ++ r2 ++ out.filter (fun p => decide (0x9400 * f ≤ p.1))
      tblBad := if bad then b.tblBad ++ [4096 + f] else b.tblBad } 0x8 (16 + f)

/-- FAMILY_TABLE_LOAD (R253, R411): the sixteen family tables and their recovery sets. -/
def loadTables (nv : NonVol) (errs : List ReadErr) (b : Block) : Block :=
  let errs := seenErrs nv errs
  let b := noteErrs b [0, 1, 2, 3] errs
  let (t, b) := copyPart nv errs 0 0x4000 0 b
  let b := { b with tbl := t, tblBad := ((badWords errs).filter (fun x => decide (x < 0x4000))).flatMap (fun x => [x / 4, x / 4 + 1]) }
  each (List.range 16) (fun b f => loadRecovery nv errs b f) b

/-- A family's table, or its recovery set, holds a word that CFLASH could not correct (R413). -/
def familyBad (b : Block) (f : Nat) : Bool :=
  b.tblBad.any (fun k => decide (k / 256 = f ∧ k < 4096) || decide (k = 4096 + f))

/-- The check of a family's table at a lane's start, with R413's errors (R254, R300). -/
def familyGood (b : Block) (f : Nat) : Bool := !familyBad b f && familyOk b f

/-- A program or erase of CFLASH runs, so that every array read waits (R414); PROT_UNLOCK is neither. -/
def arrayBusy (b : Block) : Bool := b.cf.busy && decide (b.cf.cmd ≠ 7)

end Sys2Proof.Machine
end

