-- ==== Sys2Proof/Machine/Toll.lean ====
section
/-! DEFINITION. Tollgate (R356 to R373): charging the buckets, refilling them, the inner and outer loops, telemetry, and the
temperatures that the block forms from its sensors and dies (R35, R36, R288). -/

namespace Sys2Proof.Machine

open Sys2Proof

/-- A clamp (R361). -/
def clampI (x lo hi : Int) : Int := max lo (min hi x)

/-- A product formed to 48 bits (R364; log entry 14, DESIGN CHOICE). -/
def prod48 (x y : Int) : Int :=
  let p := x * y
  if -140737488355328 ≤ p ∧ p < 140737488355328 then p else Config.wideProduct p

/-- A term of a loop: the product shifted right and saturated (R364). -/
def loopTerm (k e : Int) (sh : Nat) : Int := sat32 (prod48 k e / (2 ^ sh : Nat))

/-- The square root of n, its integer part, from bit k down. -/
def isqrtFrom : Nat → Nat → Nat → Nat
  | 0, _, r => r
  | k + 1, n, r => isqrtFrom k n (if (r + 2 ^ k) * (r + 2 ^ k) ≤ n then r + 2 ^ k else r)

/-- isqrt of R364: the square root of a Q16.16 number as a Q16.16 number (log entry 15, DEDUCED). -/
def isqrt16 (q : Int) : Int := (isqrtFrom 32 (q.toNat * 65536) 0 : Nat)

/-- TG_CTRL.PERIOD, 0 taken as 1. -/
def tollPeriod (b : Block) : Nat := max 1 (rfld b 0x30000 13 8)

/-- TG_STATUS.LOOP: 0 MANUAL, 1 AUTO, 2 AUTO_EST, 3 FAULT. -/
def tollLoop (b : Block) : Nat := rfld b 0x30004 1 0

/-- The loop is closed: automatic mode is in force (R365). -/
def loopClosed (b : Block) : Bool := decide (tollLoop b = 1) || decide (tollLoop b = 2)

/-- SYS_INPUT_STATUS.SENSOR_LOW (R35). -/
def sensorLow (b : Block) : Bool := rbit b 0x120 5

/-- The floor in force: at or above the capacity it is the capacity less one (R359). -/
def floorTokens (b : Block) : Nat :=
  if b.toll.bcap ≤ b.toll.bfloor then b.toll.bcap - 1 else b.toll.bfloor

/-- The cost that is compared and charged, with 16 fraction bits, of a Q12.4 cost (R359). -/
def cappedCost (b : Block) (cost : Nat) (below : Bool) : Nat :=
  min (cost * 4096) ((if below then b.toll.bcap else b.toll.bcap - floorTokens b) * 65536)

/-- The bucket of junction j can pay a cost (R359). -/
def canPay (b : Block) (j cost : Nat) (below : Bool) : Bool :=
  let c := cappedCost b cost below
  if below then decide (c ≤ (junc b j).bucket) else decide (c + floorTokens b * 65536 ≤ (junc b j).bucket)

/-- Adds to the charge of the running period. -/
def addCharge (c : Nat) : List Nat → List Nat
  | [] => [c]
  | x :: r => (x + c) :: r

/-- TOKEN_CHARGE (R359): the bucket falls by the capped cost; a capped charge counts in TG_STAT.CLIP. -/
def chargeBucket (b : Block) (j cost : Nat) (below : Bool) : Block :=
  let c := cappedCost b cost below
  let b := updJunc b j (fun x => { x with bucket := x.bucket - c })
  let b := { b with toll := { b.toll with charged := addCharge c b.toll.charged } }
  if c < cost * 4096 then rinc b 0x30090 31 24 1 else b

/-- BUCKET_REFILL (R358): u divided by the number of junctions is added to every bucket, up to the capacity. -/
def refill (b : Block) : Block :=
  let share := (b.toll.u / b.build.juncs).toNat
  each (juncNums b) (fun b j => updJunc b j (fun x =>
    { x with bucket := min (x.bucket + share) (b.toll.bcap * 65536) })) b

/-- Every bucket is emptied (R368, R374). -/
def emptyBuckets (b : Block) : Block := each (juncNums b) (fun b j => updJunc b j (fun x => { x with bucket := 0 })) b

/-- LOOP_START (R368): the buckets are emptied and TG_MAN_OUT takes TG_SAFE; with AUTO set the first period boundary makes
the change of R367. -/
def loopStart (b : Block) : Block :=
  let b := rput (emptyBuckets b) 0x30030 (rget b 0x3002C)
  let safe := sword (rget b 0x3002C)
  let b := { b with toll := { b.toll with uNext := some (max 0 safe), safe := safe } }
  if loopClosed b then rputF b 0x30004 1 0 0 else b

/-- What Tollgate does at a tick boundary (R34, R358, R360, R366, R372): at a period boundary the sample of the period that ends is set
apart, the output computed before comes into force, limited while SENSOR_LOW holds, the bucket registers take effect, and the buckets are
refilled. -/
def tollTick (b : Block) : Block :=
  let t := b.toll
  let u := t.uNext.getD t.u
  let u := if tripped b then 0 else if sensorLow b then max 0 (min u t.safe) else u
  let due := decide (b.milepost.toNat % tollPeriod b = 0)
  let t := if due then { t with ended := t.sample, sample := none, samples := 0 } else t
  let b := { b with
    toll := { t with
      u := u, uNext := none, bcap := rfld b 0x30070 23 0, bfloor := rfld b 0x30074 23 0, due := due && running b
      thermal := false } }
  let b := if sensorLow b then rset1 b 0x30004 2 else b
  refill b

/-- The manual output (R358, R365, R372). -/
def manualOut (b : Block) : Int :=
  let m := sword (rget b 0x30030)
  max 0 (if sensorLow b then min m b.toll.safe else m)

/-- The estimate of R369 in 10 mA, from the charge of the last window periods. -/
def currentEstimate (b : Block) : Int :=
  let window := max 1 (rfld b 0x30048 23 16)
  let charged := (b.toll.charged.take window).foldl (· + ·) 0
  (rfld b 0x30048 15 0 + 64 * charged / (10 * 65536 * window * tollPeriod b * max 1 (rfld b 0x200 5 0)) : Nat)

/-- LOOP_FAULT_OPEN (R371): the loop opens with a fault of a cause, 1 overruns, 2 following error. -/
def openLoop (b : Block) (cause : Nat) : Block :=
  let b := rputF (rputF b 0x30004 1 0 3) 0x30004 7 5 cause
  let b := rput (rclr1 b 0x30000 0) 0x30030 (rget b 0x3002C)
  let b := { b with toll := { b.toll with uNext := some (max 0 (sword (rget b 0x3002C))) } }
  rinc (rset1 b 0x30008 cause) 0x30090 23 16 1

/-- The target of the profile in Q16.16 (R362). -/
def profileTarget (b : Block) : Int := sat32 (min ((rfld b 0x30040 15 0 : Nat) : Int) b.toll.thc * 65536)

/-- One step of the profile generator (R362, R364). -/
def profileStep (b : Block) : Block :=
  let t := b.toll
  let rate := sword (rget b 0x30050)
  let acc := sword (rget b 0x30054)
  let jerk := sword (rget b 0x30058)
  let tgt := profileTarget b
  let d := sat32 (tgt - t.x)
  if d < 0 ∧ rbit b 0x30000 1 then { b with toll := { t with x := tgt, v := 0, a := 0 } }
  else
    let root := isqrt16 (prod48 (2 * acc) (d.natAbs : Int) / 65536)
    let vw := d.sign * min rate root
    let aw := clampI (sat32 (vw - t.v)) (-acc) acc
    let a := sat32 (t.a + clampI (sat32 (aw - t.a)) (-jerk) jerk)
    let v := clampI (sat32 (t.v + a)) (-rate) rate
    let xn := sat32 (t.x + v)
    if (tgt - xn) * d ≤ 0 then { b with toll := { t with x := tgt, v := 0, a := 0 } }
    else { b with toll := { t with x := xn, v := v, a := a } }

/-- The computation of R361 with the measurement in use; e takes the integer part of x (log entry 15, DEDUCED). In automatic mode u
is copied into TG_MAN_OUT (R365). -/
def computeOutput (b : Block) : Block :=
  let t := b.toll
  let low := sensorLow b
  let sh (hi lo : Nat) : Nat := rfld b 0x30018 hi lo
  let imin := sword (rget b 0x30020)
  let imax := sword (rget b 0x30024)
  let e := sat32 (t.x / 65536 - t.meas)
  let p := loopTerm (rfld b 0x30010 15 0 : Nat) e (sh 4 0)
  let integ := if low then t.integ
    else clampI (sat32 (t.integ + loopTerm (rfld b 0x30010 31 16 : Nat) e (sh 12 8))) imin imax
  let dterm := loopTerm (rfld b 0x30014 15 0 : Nat) (t.measPrev - t.meas) (sh 20 16)
  let u := clampI (sat32 (p + integ + dterm)) 0 (sword (rget b 0x30028))
  let u := if low then max 0 (min u t.safe) else u
  let b := { b with toll := { t with integ := integ, measPrev := t.meas, uNext := some u } }
  let b := rputB (rputB b 0x30004 3 (decide (integ = imax))) 0x30004 4 (decide (integ = imin))
  rput b 0x30030 (BitVec.ofInt 32 u)

/-- The bumpless change to automatic mode, steps 1 to 5 of R367. -/
def closeLoop (b : Block) : Block :=
  let t := b.toll
  let iceil : Int := (rfld b 0x30040 15 0 : Nat)
  let integ := clampI (sword (rget b 0x30030)) (sword (rget b 0x30020)) (sword (rget b 0x30024))
  let b := { b with
    toll := { t with
      integ := integ, x := t.meas * 65536, measPrev := t.meas, v := 0, a := 0, tacc := iceil * 65536, thc := iceil, div := 0 } }
  rputF (rputF b 0x30004 1 0 1) 0x30004 23 16 0

/-- The profile and the computation of a period (R373 steps 5 and 6). -/
def finishPeriod (b : Block) : Block :=
  computeOutput (profileStep { b with toll := { b.toll with thermal := false } })

/-- Step 4 of R373 is due every TG_TH_CFG.DIV inner periods (R363): it is left to THERMAL_LOOP, which goes on with the rest. -/
def afterChecks (b : Block) : Block :=
  let div := max 1 (rfld b 0x30060 15 8)
  let n := b.toll.div + 1
  if div ≤ n then { b with toll := { b.toll with div := 0, thermal := true } }
  else finishPeriod { b with toll := { b.toll with div := n } }

/-- The following-error check of R370 on the period just ended; the answer says that the loop opened. -/
def followCheck (b : Block) : Bool × Block :=
  let fe := b.toll.meas - b.toll.x / 65536
  if ((rfld b 0x30044 15 0 : Nat) : Int) < fe then
    let n := min 255 (rfld b 0x30004 23 16 + 1)
    let b := rputF b 0x30004 23 16 n
    if max 1 (rfld b 0x30044 23 16) ≤ n then (true, openLoop b 2) else (false, b)
  else (false, rputF b 0x30004 23 16 0)

/-- Manual mode comes into force with TG_MAN_OUT (R365). -/
def openManual (b : Block) : Block :=
  let b := rputF b 0x30004 1 0 0
  { b with toll := { b.toll with uNext := some (manualOut b) } }

/-- Steps 2 and following of R373 in automatic mode, after `miss` consecutive overruns (R369): a held period takes a change to manual
mode too. -/
def autoPeriod (b : Block) (miss : Nat) : Block :=
  if 16 ≤ miss then openLoop b 1
  else if 1 ≤ miss ∧ miss ≤ 3 then (if rbit b 0x30000 0 then b else openManual b)
  else
    let b := if 4 ≤ miss then
        let b := if tollLoop b = 2 then b else rset1 (rputF b 0x30004 1 0 2) 0x30008 0
        { b with toll := { b.toll with meas := currentEstimate b } }
      else rputF b 0x30004 1 0 1
    let (opened, b) := followCheck b
    if opened then b
    else if !rbit b 0x30000 0 then openManual b
    else afterChecks b

/-- The same in manual mode: a set AUTO closes the loop (R367). After one to three overruns it is closed on the measurement of before, and
the period is held (log entry 100, DEDUCED). -/
def manualPeriod (b : Block) (miss : Nat) : Block :=
  if !rbit b 0x30000 0 then { b with toll := { b.toll with uNext := some (manualOut b) } }
  else if 1 ≤ miss ∧ miss ≤ 3 then closeLoop b
  else if 4 ≤ miss then
    let b := closeLoop { b with toll := { b.toll with meas := currentEstimate b } }
    afterChecks (rset1 (rputF b 0x30004 1 0 2) 0x30008 0)
  else afterChecks (closeLoop b)

/-- TOLLGATE_PERIOD (R360, R373): the sample or the overrun, the fault checks, the mode change, and, where no thermal period is
due, the profile and the computation. -/
def tollgatePeriod (b : Block) : Block :=
  if !b.toll.due || !running b then b
  else
    let t := b.toll
    let b := { b with toll := { t with due := false, safe := sword (rget b 0x3002C) } }
    let b := if sensorLow b then b else rclr1 b 0x30004 2
    let valid := match t.ended with
      | some v => decide (v ≠ 0xFFFF)
      | none => false
    let miss := if valid then 0 else min 31 (rfld b 0x30004 12 8 + 1)
    let b := rputF b 0x30004 12 8 miss
    let b := if valid then b else rinc b 0x30090 15 0 1
    let meas : Int := if valid then ((t.ended.getD 0).toNat : Int) else t.meas
    let b := { b with toll := { b.toll with meas := meas, ended := none } }
    let b := if loopClosed b then autoPeriod b miss else manualPeriod b miss
    { b with toll := { b.toll with charged := 0 :: b.toll.charged.take 255 } }

/-- TOLLGATE_PERIOD. -/
def execTollgatePeriod (s : State) : Host.Outcome State Fault Refusal := s.act tollgatePeriod

/-- Block temperature: the highest valid junction sensor reading (R35). -/
def blockTemp (b : Block) : Option Int :=
  b.sensors.foldl (fun m x => match m, x with
    | some a, some c => some (max a c)
    | none, some c => some c
    | m, none => m) none

/-- A die's own reading while it is valid (R244, R39): within four poll intervals of its arrival, counted in ticks of the period
in force (log entry 6, DESIGN CHOICE). -/
def dieReading (b : Block) (n d : Nat) : Option Int :=
  let x := die b n d
  match x.temp with
  | some t => if now b < x.tempAt + ticksOfNs b (fam8 b (dieFamily b n d) 0x221 * 4000000) then some t else none
  | none => none

/-- The hottest valid die reading of the block. -/
def hottestDie (b : Block) : Option Int :=
  (laneNums b).foldl (fun m n => (validDies b n).foldl (fun m d => match m, dieReading b n d with
    | some a, some c => some (max a c)
    | none, some c => some c
    | m, none => m) m) none

/-- The temperature that TG_TH_CFG.SRC selects (R363). -/
def thermalInput (b : Block) : Option Int :=
  let s := rfld b 0x30060 17 16
  if s = 0 then blockTemp b
  else if s = 1 then hottestDie b
  else match blockTemp b, hottestDie b with
    | some a, some c => some (max a c)
    | some a, none => some a
    | none, c => c

/-- The outer thermal loop (R363). -/
def thermalStep (b : Block) : Block :=
  match thermalInput b with
  | none => rputF b 0x3008C 23 16 0x80
  | some t =>
    let g := b.toll
    let iceil : Int := (rfld b 0x30040 15 0 : Nat)
    let eT := sbyte (rfld b 0x30060 7 0) - t
    let tacc := clampI (sat32 (g.tacc + loopTerm (rfld b 0x30064 31 16 : Nat) eT (rfld b 0x30068 12 8))) 0 (iceil * 65536)
    let thc := clampI (sat32 (tacc / 65536 + loopTerm (rfld b 0x30064 15 0 : Nat) eT (rfld b 0x30068 4 0))) 0 iceil
    let b := if g.thc = iceil ∧ thc < iceil then rset1 b 0x30008 3 else b
    let b := rputF b 0x3008C 23 16 (BitVec.ofInt 8 t).toNat
    { b with toll := { b.toll with tacc := tacc, thc := thc } }

/-- THERMAL_LOOP (R363, R373 step 4): the thermal loop of a period whose first steps TOLLGATE_PERIOD has done, then the profile
and the computation that follow it. -/
def thermalLoop (b : Block) : Block :=
  if b.toll.thermal && running b then finishPeriod (thermalStep b) else b

/-- THERMAL_LOOP. -/
def execThermalLoop (s : State) : Host.Outcome State Fault Refusal := s.act thermalLoop

/-- TELEMETRY_SAMPLE (R34): the last sample of a period is used; a further one sets TEL_EXTRA, 0xFFFF sets TEL_INVALID. A 0xFFFF after a
valid sample of the same period takes its place, and the period counts as missing (log entry 80, DESIGN CHOICE). -/
def telemetrySample (v : BitVec 16) (b : Block) : Block :=
  if b.inReset || !b.lxReady || decide (powerState b ≠ 0) then b
  else
    let t := b.toll
    let b := if 1 ≤ t.samples then rset1 b 0x120 0 else b
    let b := if v = 0xFFFF then rset1 b 0x120 1 else b
    { b with toll := { t with sample := some v, samples := t.samples + 1 } }

/-- TELEMETRY_SAMPLE. -/
def execTelemetrySample (v : BitVec 16) (s : State) : Host.Outcome State Fault Refusal := s.act (telemetrySample v)

/-- A write of a Tollgate register (R355, R365, R366), a secure one: the coefficients and TG_CTRL.PERIOD are taken only while
the loop is open, TG_MAN_OUT only in manual mode. -/
def tollWrite (b : Block) (a : Nat) (v : Word) : Block :=
  let o := a - 0x30000
  let bad (b : Block) : Block := rset1 b 0x30000 2
  if o = 0 then
    let change := decide (fld v 13 8 ≠ rfld b a 13 8)
    if change && (v.getLsbD 0) then bad b
    else
      let v' := if change && loopClosed b then setFld v 13 8 (rfld b a 13 8) else v
      let b := plainWrite b a 0xFFFFFFFF v'
      let b := if change && loopClosed b then bad b else b
      if v.getLsbD 0 && decide (tollLoop b = 3) then rputF (rputF b 0x30004 1 0 0) 0x30004 7 5 0 else b
  else if [0x10, 0x14, 0x18, 0x20, 0x24, 0x28, 0x48, 0x64, 0x68].contains o then
    if loopClosed b then bad b else plainWrite b a 0xFFFFFFFF v
  else if o = 0x30 then
    if loopClosed b then b else plainWrite b a 0xFFFFFFFF v
  else plainWrite b a 0xFFFFFFFF v

end Sys2Proof.Machine
end

