-- ==== Sys2Proof/Machine/Lane.lean ====
section
/-! DEFINITION. A lane's shared operations: timing sets and declared lengths (R320), the jobs of its Causeway channels (R336), the
staging region and its slots (R282 to R286), unit records (R296), lane-buffer frames (R279 to R281), and the open-unit table
(R143). -/

namespace Sys2Proof.Machine

open Sys2Proof

/-- The band in effect for a die (R289): LN_DIE_MAP.BAND. -/
def dieBand (b : Block) (n d : Nat) : Nat := fld (dieMap b n d) 18 16

/-- Sets a field of a die-map register. -/
def setMap (b : Block) (n d hi lo v : Nat) : Block := rputF b (laneReg n (0x400 + 4 * d)) hi lo v

/-- Entry i of a die's current timing set (R255, R291). -/
def dieTime (b : Block) (n d i : Nat) : Nat := timing b (dieFamily b n d) (dieBand b n d) i

/-- LN_PHY_STATUS.RATE, the rate in use. -/
def rateOf (b : Block) (n : Nat) : Nat := max 1 (rfld b (laneReg n 0x204) 20 8)

/-- Bytes of a feature parameter set (R236): 4 in SDR and Toggle DDR, 8 in the other modes. -/
def featBytes (b : Block) (n : Nat) : Nat :=
  let m := rfld b (laneReg n 0x204) 3 0
  if m = 0 ∨ m = 8 then 4 else 8

/-- The entry of a kind in the loaded entry table (R319), none where it is absent. -/
def entryWord (b : Block) (n kind : Nat) : Option Nat :=
  let w := (tget 0 (lane b n).ent kind).toNat
  if kind < (lane b n).ent.length ∧ bitsOf w 13 0 ≠ 0x3FFF then some w else none

/-- The address groups a routine sends (R320). -/
def addrGroups (b : Block) (n : Nat) (r : Routine) (w : Nat) : Nat :=
  if w.testBit 41 then maskCount r.mask * (if r.kind = 4 then wlPages b (dieFamily b n r.die) else 1) else 1

/-- The data cycles of a routine (R320). -/
def dataCycles (b : Block) (n : Nat) (r : Routine) (w : Nat) : Nat :=
  let f := dieFamily b n r.die
  let rate := rateOf b n
  let cyc (bytes : Nat) : Nat := (bytes * 1600 + rate - 1) / rate
  let k := bitsOf w 43 42
  if k = 1 then cyc (if r.kind = 4 then pageBytes b f * maskCount r.mask * wlPages b f else r.ncw * cwLen b f)
  else if k = 2 then cyc (featBytes b n)
  else if k = 3 then dieTime b n r.die 2
  else 0

/-- The declared length of one entry (R320). -/
def entryLen (b : Block) (n : Nat) (r : Routine) : Nat :=
  match entryWord b n r.kind with
  | none => 0
  | some w =>
    let t (i : Nat) : Nat := dieTime b n r.die i
    let f := dieFamily b n r.die
    let p := addrGroups b n r w
    let waits := (List.range 16).foldl (fun acc i =>
      if w.testBit (44 + i) then acc + t i * (if i = 5 ∧ w.testBit 41 then p else 1) else acc) 0
    bitsOf w 31 16 + (if w.testBit 40 then t 0 + t 1 else 0) +
      (bitsOf w 35 32 + bitsOf w 37 36 * addrCol b f + bitsOf w 39 38 * addrRow b f) * t 2 * p + waits +
      (if bitsOf w 63 60 = 0xF then 0 else (p - 1) * t (bitsOf w 63 60)) + dataCycles b n r w

/-- The lowest plane of a mask, as a mask (R314). -/
def leadMask (m : Nat) : Nat :=
  match (List.range 8).find? (fun p => m.testBit p) with
  | some p => 2 ^ p
  | none => 0

/-- The FSET entry that precedes a routine for one feature (R304, R306, R318), of one plane (R314). -/
def featRoutine (r : Routine) (x : Nat × Word) : Routine :=
  { r with kind := 8, bytes := x.2, m14 := BitVec.ofNat 32 x.1, mask := leadMask r.mask, ncw := 0, feats := [] }

/-- The cycles that a placed routine has still to spend. -/
def Routine.rest (r : Routine) : Nat := r.len - r.spent

/-- The cycles that placed routines have still to spend. -/
def restOf (l : List Routine) : Nat := (l.map Routine.rest).foldl (· + ·) 0

/-- The declared length of a routine with the FSET entries that precede it (R318). -/
def declLen (b : Block) (n : Nat) (r : Routine) : Nat :=
  entryLen b n r + (r.feats.map (fun x => entryLen b n (featRoutine r x))).foldl (· + ·) 0

/-- The frame budget of a lane (R52). -/
def frameBudget (b : Block) : Nat := rfld b 0x200 5 0 * 1600 - 320

/-- A due tick as a sort key: no deadline comes last (R207). -/
def dueKey (due : Option Nat) : Nat := due.getD (2 ^ 70)

/-- The due tick of an entry's command. -/
def entryDue (b : Block) (e : Nat) : Option Nat := (cmd b (entry b e).cmd).due

/-- The service class of an entry's queue, none for a tenant queue (R109). -/
def entryClass (b : Block) (e : Nat) : Option Nat :=
  let q := sq b (entry b e).sq
  if q.service then some q.cls else none

/-- The unit and page that a routine addresses: of an instruction's PA, or of the operation that runs or is suspended on the die. -/
def routineUnit (b : Block) (n d e i : Nat) : Nat × Nat :=
  let x := (instr b e i).bytes
  let o := match (die b n d).op with
    | some o => some o
    | none => (die b n d).susp
  if !x.isEmpty then (if hasPa x then (paUnit (iPa x), paPage (iPa x)) else (0, 0))
  else match o with
    | some o => (o.unit, o.page)
    | none => (0, 0)

/-- A routine of instruction i of entry e for a die, with its place in the order of R207; of one plane, that of the instruction's PA or of
the operation on the die (R314), until its maker says otherwise. -/
def mkRoutine (b : Block) (n kind d e i : Nat) (purpose : Purpose) : Routine :=
  let f := dieFamily b n d
  let u := routineUnit b n d e i
  { kind := kind, die := d, row := BitVec.ofNat 32 (rowAddress b f (dieLun b n d) u.1 u.2), col := 0, mask := 2 ^ (u.1 % 8), bytes := 0, ncw := 0
    m14 := 0, feats := [], due := entryDue b e, order := (instr b e i).order, service := entryClass b e, charge := none
    below := false, purpose := purpose, len := 0, spent := 0, stalled := none }

/-- A routine of the lane itself, ordered last. -/
def laneRoutine (b : Block) (n kind d : Nat) (purpose : Purpose) : Routine :=
  { mkRoutine b n kind d b.nextId 0 purpose with due := none, order := b.order, service := none }

/-- Adds a routine to those not yet placed. -/
def addTodo (b : Block) (n : Nat) (r : Routine) : Block := updLane b n (fun l => { l with todo := l.todo ++ [r] })

/-- The channel of a lane's jobs: 2k inbound, 2k + 1 outbound (R332). -/
def jobChan (n : Nat) (inbound : Bool) : Nat := 2 * (n % 8) + (if inbound then 0 else 1)

/-- A transfer to be handed to a lane's channel. -/
def mkJob (use : JobUse) (addr len : Nat) (sec : Bool) (data : List Byte) : Job := ⟨use, addr, len, sec, data, false, 0, [], false⟩

/-- The beats of an outbound transfer with their byte masks: it may start within a beat. -/
def outBeats (addr : Nat) (data : List Byte) : List (Beat × BitVec 64) :=
  let pad := addr % 64
  let all := zeros pad ++ data
  (toBeats all).zipIdx.map (fun x =>
    let lo := if x.2 = 0 then pad else 0
    let hi := min 64 (all.length - 64 * x.2)
    (x.1, BitVec.ofNat 64 (2 ^ hi - 2 ^ lo)))

/-- Issues one burst of a lane's job (R336); a denied read lands as zeros and a denied write is dropped (R335). -/
def jobBurst (n : Nat) (inbound : Bool) (b : Block) (x : Burst) : Block :=
  let (sent, b) := issue b x
  let upd (f : Job → Job) (b : Block) : Block := updLane b n (fun l =>
    if inbound then { l with inJobs := match l.inJobs with
        | [] => []
        | j :: r => f j :: r }
    else { l with outJobs := match l.outJobs with
        | [] => []
        | j :: r => f j :: r })
  if sent then upd (fun j => { j with left := j.left + 1 }) b
  else
    match x.owner with
    | .job _ true part => upd (fun j => { j with got := j.got ++ (List.range x.beats).map (fun i => (part + i, (0 : Beat))) }) b
    | _ => b

/-- A region register, SYS_STAGE or SYS_UREC: its base. -/
def regionBase (b : Block) (a : Nat) : Nat := bitsOf (rget64 b a).toNat 47 21 * 2 ^ 21

/-- Lane n's share of a region, in bytes (R284, R296). -/
def regionShare (b : Block) (a : Nat) : Nat := rfld b a 15 0 * 2 ^ 20 / b.build.lanes / 65536 * 65536

/-- A die's records all fit in its lane's share (R296). -/
def recordsFit (b : Block) (n d : Nat) : Bool :=
  let f := dieFamily b n d
  let s := (lane b n).stride
  decide (s ≠ 0) && decide (8 * (d * s + unitsOf b f * planesOf b f) ≤ regionShare b 0x430)

/-- The unit records' address of a unit, none where the die has none or there is no region (R296, R298). -/
def recordAddr (b : Block) (n d u : Nat) : Option Nat :=
  if rfld b 0x430 15 0 = 0 ∨ !recordsFit b n d then none
  else
    some (regionBase b 0x430 + n * regionShare b 0x430 +
      8 * (d * (lane b n).stride + u / 8 * planesOf b (dieFamily b n d) + u % 8))

/-- Where a job's transfer lies as it starts: a record access goes to the region in force then, and none is made where the unit has no
record there (R299). -/
def jobAddr (b : Block) (n : Nat) (j : Job) : Option Nat :=
  match j.use with
  | .recordFetch _ _ key | .recordWrite key => recordAddr b n (key / 65536) (key % 65536)
  | _ => some j.addr

/-- A burst of a lane's job has its response, and is out of the list (R337, R350). -/
def jobBurstDone (x : Burst) (b : Block) : Block :=
  match x.owner with
  | .job n inbound part =>
    let l := lane b n
    match (if inbound then l.inJobs else l.outJobs) with
    | [] => b
    | j :: r =>
      let j' : Job :=
        { j with
          left := j.left - 1
          bad := j.bad || x.bad
          got := if inbound && !x.bad then j.got ++ x.data.zipIdx.map (fun y => (part + y.2, y.1)) else j.got }
      let b := updLane b n (fun l => if inbound then { l with inJobs := j' :: r } else { l with outJobs := j' :: r })
      if x.bad then latchBad b (n / 8) (jobChan n inbound) 0 0 x.write x.timeout x.addr (!j.bad) else b
  | _ => b

/-- The bytes an inbound job has brought. -/
def Job.bytes (j : Job) : List Byte :=
  let beats := (j.addr % 64 + j.len + 63) / 64
  ((((List.range beats).flatMap (fun i =>
    beatBytes (((j.got.find? (fun y => decide (y.1 = i))).map (·.2)).getD 0)))).drop (j.addr % 64)).take j.len

/-- The slots of a lane's staging share that the lane uses (R284, R469). -/
def stageSlots (b : Block) (n : Nat) : Nat :=
  let f := (lane b n).frameSz
  if f = 0 then 0 else min 65535 (regionShare b 0x300 / f)

/-- The address of a staging slot (R284). -/
def slotAddr (b : Block) (n k : Nat) : Nat := regionBase b 0x300 + n * regionShare b 0x300 + k * (lane b n).frameSz

/-- The staging slot at an address of a lane's share (R284). -/
def addrSlot (b : Block) (n a : Nat) : Nat := (a - (regionBase b 0x300 + n * regionShare b 0x300)) / (lane b n).frameSz

/-- The slots of a lane in use (R285, R286): those of staged or reserved pages, and those still being read. -/
def usedSlots (b : Block) (n : Nat) : List Nat :=
  (((lane b n).pages.flatMap (fun p => p.cws)).map (fun c => (cw b c).slot) ++
    (lane b n).inJobs.filterMap (fun j => match j.use with
      | .stageRead _ => some (addrSlot b n j.addr)
      | _ => none)).dedup

/-- k free slots of a lane, none where there are too few (R285): which of the free ones is the block's own choice, so a free value
says where in the share it starts (log entry 13, DESIGN CHOICE). -/
def freeSlots (b : Block) (n k : Nat) : Option (List Nat × Block) :=
  let used := usedSlots b n
  let all := stageSlots b n
  if all < used.length + k then none
  else
    let (v, b) := freeOf 16 b
    some ((((List.range (used.length + k)).map (fun s => (v.toNat + s) % all)).filter (fun s => !used.contains s)).take k, b)

/-- The page of a lane that staging holds, or that an instruction is writing. -/
def stPage (b : Block) (n d u p : Nat) : Option StPage :=
  (lane b n).pages.find? (fun x => decide (x.die = d ∧ x.unit = u ∧ x.page = p) && !x.gone)

/-- The page is held in staging (R222). -/
def pageStaged (b : Block) (n d u p : Nat) : Bool :=
  match stPage b n d u p with
  | some x => x.staged
  | none => false

/-- The open unit of a lane (R143). -/
def openUnit (b : Block) (n d u : Nat) : Option OpenUnit :=
  (lane b n).opens.find? (fun x => decide (x.die = d ∧ x.unit = u))

/-- Updates an open unit. -/
def updOpen (b : Block) (n d u : Nat) (f : OpenUnit → OpenUnit) : Block :=
  updLane b n (fun l => { l with opens := l.opens.map (fun x => if x.die = d ∧ x.unit = u then f x else x) })

/-- The open units that count against the 128 of R143: those of multi-pass families. -/
def openCount (b : Block) (n : Nat) : Nat :=
  ((lane b n).opens.filter (fun x => decide (1 < passesOf b (dieFamily b n x.die)))).length

/-- Pages leave staging, or reservations end: their slots and codewords are freed (R286). -/
def dropPages (b : Block) (n : Nat) (gone : StPage → Bool) : Block :=
  let ids := ((lane b n).pages.filter gone).flatMap (fun p => p.cws)
  let b := updLane b n (fun l => { l with
    pages := l.pages.filter (fun p => !gone p), heldFrames := l.heldFrames.filter (fun c => !ids.contains c) })
  { b with cws := b.cws.filter (fun x => !ids.contains x.1) }

/-- The page after `p` of a unit that no page in staging holds (R143). -/
def nextFree : Nat → Block → Nat → Nat → Nat → Nat → Nat
  | 0, _, _, _, _, p => p
  | k + 1, b, n, d, u, p => if (stPage b n d u p).isSome then nextFree k b n d u (p + 1) else p

/-- LN_BUF_CFG.READ_MIN in force. -/
def readMin (b : Block) (n : Nat) : Nat := max 3 (min 16 (rfld b (laneReg n 0x240) 12 8))

/-- LN_BUF_CFG.SOFT_MAX in force (R276). -/
def softMax (b : Block) (n : Nat) : Nat := max 1 (min 4 (rfld b (laneReg n 0x240) 18 16))

/-- LN_BUF_CFG.HOLD in force (R281). -/
def holdMax (b : Block) (n : Nat) : Nat :=
  min (rfld b (laneReg n 0x240) 4 0) ((lane b n).frames - readMin b n - 3 * softMax b n)

/-- The codeword exists. -/
def cwLive (b : Block) (id : Nat) : Bool := b.cws.any (fun x => decide (x.1 = id))

/-- The frames a codeword takes (R268, R275 to R277, R281). -/
def cwFrames (c : Cw) : Nat :=
  match c.stage with
  | .transfer | .hard | .hostWrite | .loading | .stagingWrite | .stagingRead => 1
  | .softSense | .softQueued | .softDecode => 3
  | .done => ofBool c.kept
  | _ => 0

/-- The frames of the codewords of a lane for which a test holds. -/
def framesOf (b : Block) (n : Nat) (p : Cw → Bool) : Nat :=
  ((b.cws.filter (fun x => decide (x.2.lane = n) && p x.2)).map (fun x => cwFrames x.2)).foldl (· + ·) 0

/-- The frames of a lane in use (R279 to R281): of its codewords, of those held, and of the pass being issued. -/
def framesUsed (b : Block) (n : Nat) : Nat :=
  framesOf b n (fun _ => true) + (lane b n).heldFrames.length + (((lane b n).passes.map (fun p => p.frames.length)).foldl (· + ·) 0)

/-- The codeword is being written (R280): its data comes into its frame, or its staging write is out. -/
def Cw.writing (c : Cw) : Bool := decide (c.stage = .loading) || decide (c.stage = .stagingWrite)

/-- Frames free at present (LN_BUF_STAT.FREE). -/
def framesFree (b : Block) (n : Nat) : Nat := (lane b n).frames - framesUsed b n

/-- The frames that writes may still take (R280): those being written and those held together stay within FRAMES − READ_MIN. -/
def writeRoom (b : Block) (n : Nat) : Nat :=
  min (framesFree b n) ((lane b n).frames - readMin b n - (framesOf b n Cw.writing + (lane b n).heldFrames.length))

/-- Codewords of a lane being sensed, queued or in soft decode (R276). -/
def softCount (b : Block) (n : Nat) : Nat :=
  (b.cws.filter (fun x => decide (x.2.lane = n) && decide (cwFrames x.2 = 3))).length

/-- Held codewords are released until a test of the lane's frames holds, whole wordlines, the longest held first (R281). -/
def releaseUntil (enough : Block → Bool) : Nat → Nat → Block → Block
  | 0, _, b => b
  | fuel + 1, n, b =>
    let l := lane b n
    match l.heldFrames with
    | [] => b
    | c :: _ =>
      if enough b then b
      else
        let w := wlPages b (dieFamily b n (paDie (cw b c).pa))
        let same (x : Nat) : Bool :=
          decide (paDie (cw b x).pa = paDie (cw b c).pa ∧ paUnit (cw b x).pa = paUnit (cw b c).pa ∧
            paPage (cw b x).pa / w = paPage (cw b c).pa / w)
        let gone := (l.heldFrames.filter same).length
        let b := updLane b n (fun l => { l with heldFrames := l.heldFrames.filter (fun x => !same x) })
        releaseUntil enough fuel n (rinc b (laneReg n 0x248) 31 16 gone)

/-- Held codewords are released until k frames are free (R281). -/
def releaseHeld (n k : Nat) (b : Block) : Block := releaseUntil (fun b => decide (k ≤ framesFree b n)) (lane b n).heldFrames.length n b

/-- Held codewords are released until a write finds a frame (R280, R281), also where it waits for READ_MIN alone (log entry 113, DEDUCED). -/
def releaseForWrite (n : Nat) (b : Block) : Block := releaseUntil (fun b => decide (0 < writeRoom b n)) (lane b n).heldFrames.length n b

/-- An inbound job gets the frame that its data comes into (R264, R280, R281), none where it must wait: of a codeword being written, of
one read from staging, or of one read back for the pass being issued. -/
def jobFrame (b : Block) (n : Nat) (j : Job) : Option Block :=
  match j.use with
  | .hostIn _ _ c =>
    if (cw b c).stage = .encode then
      let b := releaseForWrite n b
      if writeRoom b n = 0 then none else some (updCw b c (fun x => { x with stage := .loading }))
    else some b
  | .stageRead c =>
    if (cw b c).stage = .stagingQueued then
      let b := releaseHeld n 1 b
      if framesFree b n = 0 then none else some (updCw b c (fun x => { x with stage := .stagingRead }))
    else if (lane b n).passes.any (fun p => p.waits.contains c) then
      let b := releaseHeld n 1 b
      if framesFree b n = 0 then none
      else some (updLane b n (fun l => { l with
        passes := l.passes.map (fun p => if p.waits.contains c then { p with frames := p.frames ++ [c] } else p) }))
    else some b
  | _ => some b

/-- The beats of a job. -/
def Job.beats (x : Job) : Nat := (x.addr % 64 + x.len + 63) / 64

/-- The shadow set of a lane-bound channel keeps the job that the lane last handed over (R336, R346): its address in fabric memory and
its count. -/
def noteShadow (j c : Nat) (inbound : Bool) (x : Job) (b : Block) : Block :=
  let a := if inbound then 0x10 else 0x18
  rput (rput (rput b (chanReg j c a) (toWord x.addr)) (chanReg j c (a + 4)) (toWord (x.addr / 2 ^ 32))) (chanReg j c 0x20) (toWord x.beats)

/-- A lane-bound channel's job has run (R347, R341): its live fabric pointer stands past its last beat, and with no job handed over the
channel is IDLE with DONE set. -/
def noteDone (j c : Nat) (inbound last : Bool) (x : Job) (b : Block) : Block :=
  let a := if inbound then 0x30 else 0x38
  let e := x.addr / 64 * 64 + 64 * x.beats
  let b := rput (rput (rput b (chanReg j c a) (toWord e)) (chanReg j c (a + 4)) (toWord (e / 2 ^ 32))) (chanReg j c 0x24) 0
  if last then rset1 b (chanReg j c 8) 16 else b

/-- The job at the head of a lane's channel starts (R336, R346), an inbound one once its data has a frame (R24, R264): its bursts are
issued in address order. -/
def startJob (b : Block) (n : Nat) (inbound : Bool) : Block :=
  match (if inbound then (lane b n).inJobs else (lane b n).outJobs) with
  | [] => b
  | j :: r =>
    match if j.started then none else if inbound then jobFrame b n j else some b with
    | none => b
    | some b =>
      let c := jobChan n inbound
      let prio := rfld b (chanReg (n / 8) c 0) 1 0
      let at_ := jobAddr b n j
      let j := { j with started := true, addr := at_.getD j.addr }
      let base := j.addr / 64 * 64
      let b := updLane b n (fun l => if inbound then { l with inJobs := j :: r } else { l with outJobs := j :: r })
      let b := noteShadow (n / 8) c inbound j (rinc b (chanReg (n / 8) c 8) 31 24 1)
      if at_.isNone then b
      else if inbound then
        let beats := (j.addr % 64 + j.len + 63) / 64
        each (cutBursts beats base beats) (fun b p =>
          jobBurst n true b (mkRead (n / 8) c prio (.job n true ((p.1 - base) / 64)) p.1 p.2 j.sec)) b
      else
        let beats := outBeats j.addr j.data
        each (cutBursts beats.length base beats.length) (fun b p =>
          let part := (beats.drop ((p.1 - base) / 64)).take p.2
          jobBurst n false b (mkWrite (n / 8) c prio (.job n false ((p.1 - base) / 64)) p.1 (part.map (·.1)) (part.map (·.2))
            j.sec)) b

/-- Hands a job to the lane's inbound channel. -/
def pushIn (b : Block) (n : Nat) (j : Job) : Block := startJob (updLane b n (fun l => { l with inJobs := l.inJobs ++ [j] })) n true

/-- Hands a job to the lane's outbound channel. -/
def pushOut (b : Block) (n : Nat) (j : Job) : Block :=
  startJob (updLane b n (fun l => { l with outJobs := l.outJobs ++ [j] })) n false

/-- How many dies of a lane have records (R296). -/
def recordDies (b : Block) (n : Nat) : Nat := ((validDies b n).filter (recordsFit b n)).length

/-- A record's fields as read from its burst: VALID, PBAND and PEPOCH (R296). -/
def recordOf (addr : Nat) (l : List Byte) : Option (Nat × Word) :=
  let w := fieldAt l (addr % 64) 8
  if w.testBit 63 then some (bitsOf w 34 32, BitVec.ofNat 32 w) else none

/-- Writes a unit's record (R297). -/
def writeRecord (b : Block) (n d u : Nat) (valid : Bool) (pband : Nat) (pepoch : Word) : Block :=
  match recordAddr b n d u with
  | none => b
  | some a =>
    let w := if valid then pepoch.toNat + pband % 8 * 2 ^ 32 + 2 ^ 63 else 0
    pushOut b n (mkJob (.recordWrite (65536 * d + u)) a 8 true (leBytes 8 w))

/-- PEPOCH of a codeword written now (R141). -/
def pepochNow (b : Block) : Word := epochStamp b

/-- The age band of a program epoch against a kept SYS_EPOCH (R293): none where it is unknown. The boundaries are those of SYS_ABANDj as the
band is worked out (R474; log entry 111, DESIGN CHOICE). -/
def ageBandAt (b : Block) (at_ p : Word) : Option Nat :=
  let e := at_.toNat
  if at_ = 0xFFFFFFFF ∨ p = 0xFFFFFFFF ∨ e < p.toNat then none
  else some (((List.range' 1 7).filter (fun j => decide (rfld b (0x410 + 4 * (j - 1)) 23 0 ≤ e - p.toNat))).foldl max 0)

/-- The age band of a program epoch against SYS_EPOCH. -/
def ageBand (b : Block) (p : Word) : Option Nat := ageBandAt b (epochStamp b) p

/-- LN_STAGE_STAT.PEAK follows the slots in use. -/
def noteStage (b : Block) (n : Nat) : Block := rmax b (laneReg n 0x250) 15 0 (usedSlots b n).length

/-- LN_OPEN_UNITS.PEAK follows the units tracked. -/
def noteOpen (b : Block) (n : Nat) : Block := rmax b (laneReg n 0xD0) 15 8 (openCount b n)

/-- The codewords of an instruction, in layout order. -/
def instrCws (b : Block) (e i : Nat) : List (Nat × Cw) :=
  let l := b.cws.filter (fun x => decide (x.2.e = e ∧ x.2.i = i) && decide (x.2.stage ≠ .staged) && decide (x.2.stage ≠ .encode) &&
    !x.2.writing)
  (List.range l.length).filterMap (fun k => l.find? (fun x => decide (x.2.k = k)))

/-- A job of the lane carries data of an instruction. -/
def jobOf (e i : Nat) (j : Job) : Bool :=
  match j.use with
  | .hostIn e' i' _ | .rawIn e' i' => decide (e' = e ∧ i' = i)
  | u => u.writesFor e i

end Sys2Proof.Machine
end

