-- ==== Sys2Proof/Machine/Place.lean ====
section
/-! DEFINITION. The lane scheduler: what a routine needs to be placed (R205, R213, R219), read-offset lookup and trim sets at
placement (R303 to R306), the order of placement (R206 to R210), top-ups (R204), and suspension (R216 to R221). -/

namespace Sys2Proof.Machine

open Sys2Proof

/-- A routine that starts, suspends or resumes an operation on its die, or keeps the die busy. -/
def Routine.takesDie (r : Routine) : Bool :=
  match r.purpose with
  | .readIssue _ | .pass .. | .eraseIssue .. | .verifyIssue .. | .suspendOp | .resumeOp | .lunReset | .rawCycle .. | .featSet ..
  | .featGet .. => true
  | _ => false

/-- The routines of a lane placed and not yet ended. -/
def placedRoutines (b : Block) (n : Nat) : List Routine :=
  let l := lane b n
  (match l.seq with
    | some q => [q.routine]
    | none => []) ++ l.frame ++ l.next

/-- A placed routine already takes the die. -/
def dieClaimed (b : Block) (n d : Nat) : Bool := (placedRoutines b n).any (fun r => decide (r.die = d) && r.takesDie)

/-- A resume of the die waits to be placed (R220). -/
def resumeDue (b : Block) (n d : Nat) : Bool :=
  ((lane b n).todo ++ placedRoutines b n).any (fun r => decide (r.die = d) && decide (r.purpose = .resumeOp))

/-- The instruction that a routine belongs to: its opcode. -/
def routineOp (b : Block) (r : Routine) : Nat :=
  match r.purpose with
  | .readIssue (c :: _) => iOp (instr b (cw b c).e (cw b c).i).bytes
  | _ => 0

/-- An operation runs on the die. -/
def dieRuns (x : Die) : Bool :=
  match x.op with
  | some o => !o.ready
  | none => false

/-- The units a die's suspended erase holds. -/
def suspUnit (x : Die) (u : Nat) : Bool :=
  match x.susp with
  | some o => decide (o.kind = .erase) && decide (o.unit / 8 = u / 8) && (o.mask.testBit (u % 8))
  | none => false

/-- The routine of a DIE.STATUS, which never waits for the die (R187). -/
def Routine.isStatus (r : Routine) : Bool :=
  match r.purpose with
  | .status .. => true
  | _ => false

/-- The TRAIN that now trains die d. -/
def trainInstr (b : Block) (n d : Nat) : Option (Nat × Nat) :=
  ((lane b n).pool.flatMap (fun e => (List.range (entry b e).instrs.length).filterMap (fun i =>
    let r := instr b e i
    if iOp r.bytes = opTrain ∧ r.phase = .active ∧ (r.place.map (fun m => m.die)) = some d then some (e, i) else none))).head?

/-- A die's retraining is to run now (R249): its deferral is over, or no READ with a deadline of it is unfinished. -/
def retrainDue (b : Block) (n d : Nat) : Bool :=
  match (die b n d).retrain with
  | none => false
  | some t =>
    (die b n d).training || decide (t + rfld b (laneReg n 0x220) 15 8 ≤ now b) ||
      !((lane b n).pool.any (fun e => (entryDue b e).isSome && (entry b e).instrs.any (fun r =>
        decide (iOp r.bytes = opRead ∧ paDie (iPa r.bytes) = d ∧ r.phase ≠ .finished))))

/-- The die's state admits a routine (R213, R214, R219, R237, R243). -/
def dieAdmits (b : Block) (n : Nat) (r : Routine) : Bool :=
  let x := die b n r.die
  let idle := x.op.isNone && !x.suspending && !x.raw && !x.training && !dieClaimed b n r.die
  let clear := idle && x.susp.isNone
  if x.needReset then r.isStatus || (decide (r.purpose = .lunReset) && !dieClaimed b n r.die)
  else
    match r.purpose with
    | .readIssue cws =>
      dieInService b n r.die && idle && !resumeDue b n r.die &&
        (x.susp.isNone ||
          ((decide (routineOp b r = opRead) || decide (routineOp b r = opSample)) &&
            !(cws.any (fun c => suspUnit x (paUnit (cw b c).pa)))))
    | .readOut _ => (match x.op with
        | some o => o.ready && decide (o.kind = .read)
        | none => false)
    | .pass .. | .eraseIssue .. | .verifyIssue .. => dieInService b n r.die && clear
    | .verifyOut .. => (match x.op with
        | some o => o.ready
        | none => false)
    | .suspendOp => (match x.op with
        | some o => !o.ready && decide (o.kind ≠ .read) && !x.suspending && !dieClaimed b n r.die
        | none => false)
    | .resumeOp => x.susp.isSome && x.op.isNone && !dieClaimed b n r.die
    | .poll => dieRuns x || x.suspending
    | .opStatus => (match x.op with
        | some o => o.ready
        | none => false)
    | .status .. => true
    | .featSet .. => dieInService b n r.die && clear
    | .featGet .. => dieInService b n r.die && idle
    | .lunReset => true
    | .rawCycle _ _ k => if k = 0 then dieInService b n r.die && clear else !dieClaimed b n r.die

/-- A supply warning holds the confirm of the routine back (R429). -/
def warnStops (b : Block) (r : Routine) : Bool :=
  warned b && (match r.purpose with
    | .pass .. | .eraseIssue .. => true
    | _ => false)

/-- A supply warning keeps the routine from being placed (R429, R191). -/
def warnHolds (b : Block) (r : Routine) : Bool :=
  warned b && (match r.purpose with
    | .pass .. | .eraseIssue .. => true
    | .rawCycle _ _ k => decide (k = 0)
    | _ => false)


/-- The lane has left PS1 early enough (R212). -/
def awake (b : Block) (n : Nat) (next : Bool) : Bool :=
  !(lane b n).ps1 && decide ((lane b n).wakeTick ≤ now b + ofBool next)

/-- Sums a list of offsets and deltas, saturating (R308). -/
def addOffs (a d : List Int) : List Int := (a.zip d).map (fun p => max (-128) (min 127 (p.1 + p.2)))

/-- A delta for every level in use of a family (R309). -/
def levelDelta (b : Block) (f : Nat) (x : Int) : List Int :=
  (List.range 15).map (fun i => if i < nLevels b f then x else 0)

/-- The delta of soft sense s, from 1 (R309). -/
def senseDelta (b : Block) (f s : Nat) : Int :=
  if s ≤ 1 then 0
  else
    let d : Int := (softD b f (s / 2) : Nat)
    if s % 2 = 0 then -d else d

/-- The offsets that the next read of a codeword needs (R303, R308, R309). -/
def cwOffsets (b : Block) (c : Cw) : List Int :=
  let f := dieFamily b c.lane (paDie c.pa)
  if 1 ≤ c.sense then
    let centre := match c.best with
      | some x => x.2
      | none => c.offs
    addOffs centre (levelDelta b f (senseDelta b f c.sense))
  else if c.step = 0 then c.offs
  else addOffs c.offs (ladderStep b f c.ladder c.step)

/-- A codeword with its lookup made now (R292, R293, R303). -/
def lookedUp (b : Block) (c : Cw) : Cw :=
  if c.looked then c
  else
    let d := paDie c.pa
    let f := dieFamily b c.lane d
    let rb := dieBand b c.lane d
    let p := if c.recOk then c.pband else rb
    let age := if c.recOk then ageBand b c.pepoch else none
    let x := instr b c.e c.i
    let wear := iWear x.bytes
    let (offs, lad) := rotEntry b f p rb (age.getD (rec8 b f 0x8006)) wear
    let nopred := decide (iOp x.bytes = opSample) && iOpt x.bytes 0
    { c with
      looked := true, epoch := epochStamp b, rband := rb, pband := p, pepoch := if c.recOk then c.pepoch else 0xFFFFFFFF
      aband := age, offs := if nopred then List.replicate 15 0 else offs, ladder := lad }

/-- The lookup of a codeword (R292, R293, R303), made once, when its first array read is placed. -/
def lookup (b : Block) (id : Nat) : Block :=
  let c := cw b id
  if c.looked then b
  else
    rinc (updCw b id (fun c => lookedUp b c)) (laneReg c.lane 0x260) (if c.recOk then 15 else 31) (if c.recOk then 0 else 16) 1

/-- The SET FEATURES that a set of offsets needs on a die (R304). -/
def offsetFeats (b : Block) (n d : Nat) (offs : List Int) : List (Nat × Word) :=
  let f := dieFamily b n d
  let par (i : Nat) : Word := BitVec.ofNat 32 (leNat ((List.range 4).map (fun k =>
    BitVec.ofInt 8 (offs.getD (4 * i + k) 0))))
  ((List.range 4).map (fun i => (ofsFaddr b f i, par i))).filter (fun x =>
    !((die b n d).feats.any (fun y => decide (y = x))))

/-- The die will hold these feature values. -/
def noteFeats (b : Block) (n d : Nat) (l : List (Nat × Word)) : Block :=
  updDie b n d (fun x => { x with feats := l.foldl (fun t y => tput t y.1 y.2) x.feats })

/-- A feature address in M14 (R318), in the LUN form where the family sets LUN_FEAT (R234). -/
def featForm (b : Block) (n d a : Nat) : Nat := a + 256 * ofBool (famOption b (dieFamily b n d) 1)

/-- The codewords whose soft read may begin now on a lane (R276): held codewords give up their frames for them (R281). -/
def softRoom (b : Block) (n : Nat) : Nat := min (softMax b n - softCount b n) ((framesFree b n + (lane b n).heldFrames.length) / 3)

/-- The codewords of a group that one array read serves now (R237, R276, R303 to R305): those whose offsets are those of the first, on
one plane only while the die holds a suspended operation, and of soft reads that begin as many as the lane has room for. -/
def readTogether (b : Block) (n d : Nat) (cws : List Nat) : List Nat :=
  match cws with
  | [] => []
  | c0 :: _ =>
    let first := lookedUp b (cw b c0)
    let offs := cwOffsets b first
    let alone := (die b n d).susp.isSome
    let same := cws.filter (fun c =>
      decide (cwOffsets b (lookedUp b (cw b c)) = offs) && (!alone || decide (paUnit (cw b c).pa = paUnit first.pa)))
    let fresh := (same.filter (fun c => decide ((cw b c).sense = 1) && decide ((cw b c).stage = .issue))).drop (softRoom b n)
    same.filter (fun c => !fresh.contains c)

/-- The codewords that a routine waiting to be placed would read, of a READ or SAMPLE of a die. -/
def Routine.joinable (b : Block) (d : Nat) (r : Routine) : List Nat :=
  match r.purpose with
  | .readIssue cws => if r.die = d ∧ (routineOp b r = opRead ∨ routineOp b r = opSample) then cws else []
  | _ => []

/-- Codewords of other READs and SAMPLEs of the same page, which a read may take with it (R215): while LN_SCHED_CFG.COMBINE is set, those
of its block's units, as long as the planes read stay within the family's MP_MAX (R125). That the lane always joins them is the model's
choice (log entry 12, DESIGN CHOICE). -/
def joined (b : Block) (n : Nat) (r : Routine) (cws : List Nat) : List Nat :=
  let first := cw b (cws.headD 0)
  let op := routineOp b r
  if !rbit b (laneReg n 0x140) 6 || !(decide (op = opRead) || decide (op = opSample)) then cws
  else
    let planes (l : List Nat) : Nat := maskCount (l.foldl (fun m c => m ||| 2 ^ (paUnit (cw b c).pa % 8)) 0)
    let near (c : Nat) : Bool := decide (paPage (cw b c).pa = paPage first.pa ∧ paUnit (cw b c).pa / 8 = paUnit first.pa / 8)
    ((lane b n).todo.flatMap (Routine.joinable b r.die)).foldl (fun l c =>
      if near c && !l.contains c && decide (planes (l ++ [c]) ≤ max (planes cws) (mpMax b (dieFamily b n r.die))) then l ++ [c] else l) cws

/-- A routine without some of the codewords it reads, none where nothing of it is left. -/
def Routine.dropCws (gone : Nat → Bool) (r : Routine) : Option Routine :=
  match r.purpose with
  | .readIssue cws => if cws.all gone then none else some { r with purpose := .readIssue (cws.filter (fun c => !gone c)) }
  | .readOut cws => if cws.all gone then none else some r
  | _ => some r

/-- The earlier of two due ticks (R207). -/
def dueMin (x y : Option Nat) : Option Nat := if dueKey y < dueKey x then y else x

/-- A read routine as it is placed: the codewords it reads, its own and those it takes with it, are looked up, and the rest stay to be
placed. It has the earliest due tick of them (R215). -/
def prepRead (b : Block) (n : Nat) (r : Routine) (cws : List Nat) : Routine × Block :=
  let mine := readTogether b n r.die (joined b n r cws)
  let rest := cws.filter (fun c => !mine.contains c)
  let b := updLane b n (fun l => { l with todo := l.todo.filterMap (Routine.dropCws (fun c => mine.contains c)) })
  let b := releaseHeld n (3 * (mine.filter (fun c => decide ((cw b c).sense = 1))).length) (each mine lookup b)
  let first := cw b (mine.headD 0)
  let f := dieFamily b n r.die
  let b := if rest.isEmpty then b else addTodo b n { r with purpose := .readIssue rest }
  let feats := offsetFeats b n r.die (cwOffsets b first)
  let b := noteFeats b n r.die feats
  let b := each mine (fun b c => updCw b c (fun x => { x with stage := if x.sense = 0 then .array else .softSense })) b
  ({ r with
      purpose := .readIssue mine, due := (mine.map (fun c => entryDue b (cw b c).e)).foldl dueMin r.due
      mask := mine.foldl (fun m c => m ||| 2 ^ (paUnit (cw b c).pa % 8)) 0
      row := BitVec.ofNat 32 (rowAddress b f (dieLun b n r.die) (paUnit first.pa) (paPage first.pa))
      col := BitVec.ofNat 32 (paSlot first.pa * cwLen b f)
      feats := feats.map (fun x => (featForm b n r.die x.1, x.2)) }, b)

/-- The routine begins a soft read and finds no room for any codeword of it (R276). -/
def softBlocked (b : Block) (n : Nat) (r : Routine) : Bool :=
  match r.purpose with
  | .readIssue cws => (readTogether b n r.die cws).isEmpty
  | _ => false

/-- The pass that a routine or an operation runs, while it waits to be reported. -/
def passOf (b : Block) (n d : Nat) (p : Purpose) : Option Pass :=
  match p with
  | .pass e i unit wl num => (lane b n).passes.find? (fun q =>
      decide (q.die = d ∧ q.unit = unit ∧ q.wl = wl ∧ q.num = num ∧ q.e = e ∧ q.i = i))
  | _ => none

/-- The WEAR of a pass that waits to be reported (R295). -/
def passWear (b : Block) (n : Nat) (r : Routine) : Nat := ((passOf b n r.die r.purpose).map (fun p => p.wear)).getD 0

/-- The trim set of a pass (R306): the first pass of a wordline picks it by the die's band and WEAR; later ones keep it. -/
def passTrim (b : Block) (n : Nat) (r : Routine) (unit wl num : Nat) : Nat :=
  let pick := dieBand b n r.die * 4 + passWear b n r
  let lead := (List.range 8).find? (fun p => r.mask.testBit p)
  match openUnit b n r.die (onPlane unit (lead.getD 0)) with
  | some o => if num = 1 then pick else tget 0 o.trims wl
  | none => pick

/-- The records of a pass's trim set that the die does not hold yet. -/
def passFeats (b : Block) (n : Nat) (r : Routine) (unit wl num : Nat) : List (Nat × Word) :=
  let idx := passTrim b n r unit wl num
  (trimSet b (dieFamily b n r.die) (idx / 4) (idx % 4)).filter (fun x => !((die b n r.die).feats.any (fun y => decide (y = x))))

/-- The FSETs of a routine, in the form of its die. -/
def Routine.withFeats (r : Routine) (b : Block) (n : Nat) (l : List (Nat × Word)) : Routine :=
  { r with feats := l.map (fun x => (featForm b n r.die x.1, x.2)) }

/-- A routine as it is issued: a pass takes its trim set by the die's band now (R306, R291). -/
def issuePass (b : Block) (n : Nat) (r : Routine) : Routine × Block :=
  match r.purpose with
  | .pass _ _ unit wl num =>
    let idx := passTrim b n r unit wl num
    let feats := passFeats b n r unit wl num
    let b := if num = 1 then
        each (planeList r.mask unit) (fun b p => updOpen b n r.die (onPlane unit p) (fun o => { o with trims := tput o.trims wl idx })) b
      else b
    (r.withFeats b n feats, noteFeats b n r.die feats)
  | _ => (r, b)

/-- A verify read as it is placed: at the family's erase-verify offsets (R303). -/
def prepVerify (b : Block) (n : Nat) (r : Routine) : Routine × Block :=
  let f := dieFamily b n r.die
  let feats := offsetFeats b n r.die ((List.range 15).map (fun i => sbyte (fam8 b f (0x1C8 + i))))
  (r.withFeats b n feats, noteFeats b n r.die feats)

/-- A routine as it is placed; a pass with the FSETs that it would need now, by which its length is declared (R318). -/
def prep (b : Block) (n : Nat) (r : Routine) : Routine × Block :=
  match r.purpose with
  | .readIssue cws => prepRead b n r cws
  | .pass _ _ unit wl num => (r.withFeats b n (passFeats b n r unit wl num), b)
  | .verifyIssue .. => prepVerify b n r
  | _ => (r, b)

/-- A running build of a lane's frame: the frame it places into, its budget, and the cycles carried into it. -/
structure Placing where
  blk : Block
  next : Bool
  budget : Nat
  carried : Nat

/-- The cycles placed in the frame being built. -/
def Placing.used (p : Placing) (n : Nat) : Nat := if p.next then (lane p.blk n).nextUsed else (lane p.blk n).used

/-- The cycles that the routines of the frame may fill: the budget less what is carried in (R55). The running frame counts the cycles
carried in among those placed. -/
def Placing.limit (p : Placing) : Nat := if p.next then p.budget - p.carried else p.budget

/-- The frame has met a token stall. -/
def Placing.stalled (p : Placing) (n : Nat) : Bool := if p.next then (lane p.blk n).nextStall else (lane p.blk n).stallFrame

/-- The length fits the frame (R205, R53, R54): on a lane that takes the tick as a trap, the routine must start before the
boundary; otherwise its whole length must fit, or it stands first in its frame. -/
def fits (b : Block) (n used len limit budget : Nat) : Bool :=
  if laneTraps b n then decide (used < limit) else decide (used + len ≤ limit) || decide (used = 0 ∧ budget < len)

/-- The routine as it would be placed now, its declared length with that of its FSETs, and the block after it (R318). -/
def readied (b : Block) (n : Nat) (r : Routine) : Routine × Block :=
  let (r', b') := prep (updLane b n (fun l => { l with todo := l.todo.erase r })) n r
  ({ r' with len := declLen b' n r' }, b')

/-- What of R205 does not depend on the frame: the hazards, the die, soft-read room, and the lane's wake. -/
def mayPlace (b : Block) (n : Nat) (next : Bool) (r : Routine) : Bool :=
  (lane b n).todo.contains r && awake b n next && dieAdmits b n r && !warnHolds b r && !softBlocked b n r

/-- The junction bucket holds the routine's cost (R210). -/
def paysFor (b : Block) (n : Nat) (r : Routine) : Bool :=
  match r.charge with
  | some c => canPay b (n / 8) c r.below
  | none => true

/-- A routine meets a token stall in the frame: it is not placed in it, and the frame counts once (R210). -/
def noteStall (n : Nat) (p : Placing) (r : Routine) : Placing :=
  let b := p.blk
  let b := if p.stalled n then b else rinc b (laneReg n 0x154) 15 0 1
  { p with blk := updLane b n (fun l =>
      { l with
        nextStall := l.nextStall || p.next, stallFrame := l.stallFrame || !p.next
        todo := l.todo.map (fun x => if x = r then { x with stalled := some (now b + ofBool p.next) } else x) }) }

/-- try_place of R206: a routine is placed when it is placeable, and skipped otherwise. One that met a token stall in the frame waits
for the next. -/
def tryPlace (n : Nat) (p : Placing) (r : Routine) : Placing :=
  let b := p.blk
  if !mayPlace b n p.next r || decide (r.stalled = some (now b + ofBool p.next)) then p
  else
    let (x, b') := readied b n r
    if !fits b n (p.used n) x.len p.limit p.budget then p
    else if !paysFor b n r then noteStall n p r
    else
      let b' := match r.charge with
        | some c => chargeBucket b' (n / 8) c r.below
        | none => b'
      { p with blk := updLane b' n (fun l =>
          if p.next then { l with next := l.next ++ [x], nextUsed := l.nextUsed + x.len }
          else { l with frame := l.frame ++ [x], used := l.used + x.len }) }

/-- A routine comes before another in the order of R207. -/
def routineLe (x y : Routine) : Bool :=
  decide (dueKey x.due < dueKey y.due) || (decide (dueKey x.due = dueKey y.due) && decide (x.order ≤ y.order))

/-- Puts a routine in its place. -/
def insRoutine (x : Routine) : List Routine → List Routine
  | [] => [x]
  | y :: r => if routineLe y x then y :: insRoutine x r else x :: y :: r

/-- Routines in the order of R207. -/
def sortRoutines (l : List Routine) : List Routine := l.foldl (fun acc r => insRoutine r acc) []

/-- The entry that a service routine belongs to, by its place in pool order. -/
def routineEntry (b : Block) (n : Nat) (r : Routine) : Option Nat :=
  (lane b n).pool.find? (fun e => (entry b e).instrs.any (fun x => decide (x.order = r.order) && decide (x.phase ≠ .held)))

/-- Service entries of a class that hold a released instruction and no turn has taken (R209). -/
def wrrEntries (b : Block) (n cls : Nat) : List Nat :=
  (lane b n).pool.filter (fun e =>
    decide (entryClass b e = some cls) && !(lane b n).wrrOrder.contains e &&
      (entry b e).instrs.any (fun x => decide (x.phase ≠ .held) && decide (x.phase ≠ .finished)))

/-- One visit of the weighted round robin (R209): the class whose turn it is takes its entries; after the last class with credits
and entries, a new round gives WEIGHT credits to each class with an entry. -/
def wrrVisit (n : Nat) (b : Block) : Block :=
  let l := lane b n
  let cfg (c : Nat) : Nat := laneReg n (0x100 + 4 * c)
  let ready (c : Nat) : Bool := decide (0 < tget 0 l.wrrCredit c) && !(wrrEntries b n c).isEmpty
  match (List.range' l.wrrClass (8 - l.wrrClass)).find? ready with
  | some c =>
    let k := min (max 1 (min 64 (rfld b (cfg c) 14 8))) (tget 0 l.wrrCredit c)
    let taken := (wrrEntries b n c).take k
    updLane b n (fun l => { l with
      wrrOrder := l.wrrOrder ++ taken
      wrrCredit := tset 0 l.wrrCredit c (tget 0 l.wrrCredit c - taken.length)
      wrrClass := (c + 1) % 8 })
  | none =>
    if (List.range l.wrrClass).any ready then updLane b n (fun l => { l with wrrClass := 0 })
    else
      updLane b n (fun l => { l with
        wrrClass := 0
        wrrCredit := (List.range 8).filterMap (fun c =>
          if (wrrEntries b n c).isEmpty then none else some (c, max 1 (rfld b (cfg c) 7 0))) })

/-- The service routines whose entries a turn has taken, in the order of the round robin (R209). -/
def takenService (b : Block) (n : Nat) : List Routine :=
  (lane b n).wrrOrder.flatMap (fun e => (lane b n).todo.filter (fun r => r.service.isSome && decide (routineEntry b n r = some e)))

/-- Step 3 of R206: the routines of the entries taken, in the order of the round robin, and further visits while cycles and entries are
left. Each visit takes an entry or goes on to the next, so that a class's credits bound the visits. -/
def placeService : Nat → Nat → Placing → Placing
  | 0, _, p => p
  | k + 1, n, p =>
    let p := (takenService p.blk n).foldl (tryPlace n) p
    if p.limit ≤ p.used n ∨ (List.range 8).all (fun c => (wrrEntries p.blk n c).isEmpty) then p
    else placeService k n { p with blk := wrrVisit n p.blk }

/-- Visits enough to take every entry of the pool: each takes one or more, but for the starts of rounds between. -/
def serviceVisits (b : Block) (n : Nat) : Nat := 2 + 2 * (lane b n).pool.length

/-- Tenant routines of a lane, in the order of R207; the lane's own routines follow. -/
def tenantRoutines (b : Block) (n : Nat) : List Routine := sortRoutines ((lane b n).todo.filter (fun r => r.service.isNone))

/-- A service routine is placeable in the frame (R208, R205). -/
def servicePending (n : Nat) (p : Placing) : Bool :=
  (lane p.blk n).todo.any (fun r => r.service.isSome && mayPlace p.blk n p.next r && paysFor p.blk n r &&
    fits p.blk n (p.used n) (readied p.blk n r).1.len p.limit p.budget)

/-- A lane may place work: it runs, its start has finished, no reload waits (R229, R331), and the block is not shut down. -/
def lanePlaces (b : Block) (n : Nat) : Bool :=
  laneRuns b n && laneStarted b n && !rbit b (laneReg n 0x304) 3

/-- The READs of a lane that wait on a die (R217): tenant READs with a deadline, being carried out, with a codeword whose record is being
fetched or whose array read has not been placed. -/
def waitingReads (b : Block) (n d : Nat) : List (Nat × Nat) :=
  let unplaced := (lane b n).todo.flatMap (fun r => match r.purpose with
    | .readIssue cws => cws
    | _ => [])
  ((b.cws.filter (fun x => decide (x.2.lane = n ∧ paDie x.2.pa = d) && (decide (x.2.stage = .record) || unplaced.contains x.1) &&
    decide (iOp (instr b x.2.e x.2.i).bytes = opRead) && (entryClass b x.2.e).isNone && (entryDue b x.2.e).isSome)).map
      (fun x => (x.2.e, x.2.i))).dedup

/-- Ticks an operation has run (R217). -/
def opElapsed (b : Block) (o : DieOp) : Nat := o.ran + (now b - o.since)

/-- Which half of the suspend fields an operation uses: 0 program, 1 erase. -/
def suspKind (o : DieOp) : Nat := if o.kind = .erase then 1 else 0

/-- The typical time of an array read in ns: T_SREAD for a sense of a soft read, else T_READ (R214, R255, R309). -/
def purposeReadNs (b : Block) (f : Nat) (p : Purpose) : Nat :=
  match p with
  | .readIssue (c :: _) => fam32 b f (if 1 ≤ (cw b c).sense then 0x148 else 0x140)
  | _ => fam32 b f 0x140

/-- The typical time of an operation in ns (R217, R214). -/
def typicalNs (b : Block) (f : Nat) (o : DieOp) : Nat :=
  match o.kind with
  | .erase => fam32 b f 0x158
  | .pass k => tPass b f k
  | .read => purposeReadNs b f o.purpose

/-- The core cycles of a hard decode (R271): 1,600 at HARD_ITER 20 or fewer, and 80 for each further iteration. -/
def hardCycles (b : Block) (n : Nat) : Nat := 1600 + 80 * (rfld b (laneReg n 0x254) 5 0 - 20)

/-- The core cycles of the data-outs of a READ's codewords (R217, R320): one on each plane that has some. -/
def outCycles (b : Block) (n e i : Nat) : Nat :=
  let l := (instrCws b e i).filter (fun x => decide (x.2.stage ≠ .done))
  (((l.map (fun x => paUnit x.2.pa)).dedup).map (fun u =>
    entryLen b n { mkRoutine b n 2 (paDie (iPa (instr b e i).bytes)) e i (.readOut []) with
      mask := 2 ^ (u % 8), ncw := (l.filter (fun x => decide (paUnit x.2.pa = u))).length })).foldl (· + ·) 0

/-- read_t of R217 for an instruction. -/
def readTicks (b : Block) (n e i : Nat) : Nat :=
  let f := dieFamily b n (paDie (iPa (instr b e i).bytes))
  ticksOfNs b (fam32 b f 0x140) + max 1 (ticksOfNs b ((outCycles b n e i + hardCycles b n) * 5 / 8))

/-- earliest_suspend of R218. -/
def earliestSuspend (b : Block) (f : Nat) (o : DieOp) : Nat :=
  if o.susps = 0 then now b else max (now b) (o.since + ticksOfNs b (fam32 b f (0x18C + 4 * suspKind o)))

/-- A suspension of the operation is supported and enabled (R216). -/
def suspendable (b : Block) (n f : Nat) (o : DieOp) : Bool :=
  decide (o.kind ≠ .read) && !o.ready && rbit b (laneReg n 0x144) (suspKind o) && (fam8 b f 0x180).testBit (suspKind o)

/-- The test of R217 for READ i of entry e. -/
def suspendTest (b : Block) (n d e i : Nat) (o : DieOp) : Bool :=
  let f := dieFamily b n d
  let read := readTicks b n e i
  let margin := rfld b (laneReg n 0x144) 15 8
  let wait := now b + ticksOfNs b (typicalNs b f o - opElapsed b o * (rfld b 0x200 5 0 * 1000)) + read + margin
  let susp := max (now b) (earliestSuspend b f o) + ticksOfNs b (fam32 b f (0x184 + 4 * suspKind o)) + read + margin
  match entryDue b e with
  | some due => decide (due < wait) && decide (susp < wait)
  | none => false

/-- permitted of R218: the operation's suspensions, a supply warning, and the bucket. -/
def suspendPermitted (b : Block) (n d : Nat) (o : DieOp) : Bool :=
  let f := dieFamily b n d
  decide (o.susps < fam8 b f (0x194 + suspKind o)) && !warned b && canPay b (n / 8) (tokenCost b f 0) true

/-- A READ's suspension was refused or deferred (R218): it counts once. -/
def barRead (b : Block) (n e i : Nat) : Block :=
  if (instr b e i).barred then b
  else rinc (updInstr b e i (fun r => { r with barred := true })) (laneReg n 0x150) 31 16 1

/-- The running frame as top-ups place into it (R204). -/
def topPlacing (b : Block) (n : Nat) : Placing := ⟨b, false, (lane b n).budget, (lane b n).carried⟩

/-- The suspend command is placed in the current frame, ahead of any routine of the die not yet started (R219), where it fits (R52,
R54); otherwise the READ is evaluated again at the next frame build. -/
def placeSuspend (b : Block) (n d : Nat) (o : DieOp) : Block :=
  let r := laneRoutine b n 6 d .suspendOp
  let r := { r with m14 := BitVec.ofNat 32 (suspKind o) }
  let r := { r with len := declLen b n r }
  let p := topPlacing b n
  if !fits b n (p.used n) r.len p.limit p.budget then b
  else
    updDie (updLane b n (fun l =>
      let pre := l.frame.takeWhile (fun x => decide (x.die ≠ d))
      { l with frame := pre ++ [r] ++ l.frame.drop pre.length, used := l.used + r.len })) n d (fun x => { x with waitSusp := none })

/-- A placed routine that is not yet on the die takes it; the routine that has started the running operation does not count. -/
def claimedAhead (b : Block) (n d : Nat) : Bool :=
  ((lane b n).frame ++ (lane b n).next).any (fun r => decide (r.die = d) && r.takesDie) ||
    (match (lane b n).seq with
      | some q => decide (q.routine.die = d) && q.routine.takesDie && !q.confirmed
      | none => false)

/-- SUSPEND_DECISION for one READ (R217, R218). -/
def suspendFor (n d : Nat) (b : Block) (x : Nat × Nat) : Block :=
  let y := die b n d
  match y.op with
  | none => b
  | some o =>
    let f := dieFamily b n d
    if y.suspending || y.noSusp || y.susp.isSome || !suspendable b n f o || claimedAhead b n d then b
    else if !suspendTest b n d x.1 x.2 o then b
    else if !suspendPermitted b n d o then barRead b n x.1 x.2
    else if now b < earliestSuspend b f o then
      barRead (updDie b n d (fun z => { z with waitSusp := some (earliestSuspend b f o) })) n x.1 x.2
    else placeSuspend b n d o

/-- SUSPEND_DECISION for every die of a lane (R217). -/
def suspendCheck (n : Nat) (b : Block) : Block :=
  if !lanePlaces b n then b
  else each ((validDies b n).filter (fun d => dieRuns (die b n d))) (fun b d => each (waitingReads b n d) (suspendFor n d) b) b

/-- SUSPEND_DECISION after a step of R206. -/
def Placing.suspend (n : Nat) (p : Placing) : Placing := { p with blk := suspendCheck n p.blk }

/-- The service reserve of R206 and R208. -/
def reserveOf (n : Nat) (p : Placing) : Nat :=
  if servicePending n p then (p.budget - p.carried) * rfld p.blk (laneReg n 0x140) 5 0 / 64 else 0

/-- A training of die d can run now: it is due, and the die has nothing running, suspended or placed (R246). -/
def trainRuns (b : Block) (n d : Nat) : Bool :=
  let x := die b n d
  lanePlaces b n && dieInService b n d && x.op.isNone && x.susp.isNone && !x.raw && !x.needReset && !dieClaimed b n d &&
    (retrainDue b n d || (trainInstr b n d).isSome)

/-- A training that can run begins: its die is out of service until it has ended (R189, R249), and its first cycle is the confirm of the
TRAIN that it is for (R194). -/
def beginTrain (n : Nat) (b : Block) (d : Nat) : Block :=
  if !trainRuns b n d then b
  else
    let b := updDie b n d (fun x => { x with training := true })
    match trainInstr b n d with
    | some (e, i) => updInstr b e i (fun r => { r with confirmed := true })
    | none => b

/-- The trainings of a lane that can run begin, before anything is placed on their dies. -/
def beginTrains (n : Nat) (b : Block) : Block := each (validDies b n) (beginTrain n) b

/-- Steps 2 to 4 of R206 over the routines not yet placed, with SUSPEND_DECISION after each. -/
def placeAll (n : Nat) (p : Placing) : Placing :=
  let p := { p with blk := beginTrains n p.blk }
  let reserve := reserveOf n p
  let p := ((tenantRoutines p.blk n).foldl (fun p r =>
    if p.used n + (readied p.blk n r).1.len ≤ p.limit - reserve then tryPlace n p r else p) p).suspend n
  let p := (placeService (serviceVisits p.blk n) n p).suspend n
  ((tenantRoutines p.blk n).foldl (tryPlace n) p).suspend n

/-- The running frame is topped up (R204). -/
def topUp (n : Nat) (b : Block) : Block := if lanePlaces b n then (placeAll n (topPlacing b n)).blk else b

/-- A routine of its own that is placed as a top-up (R220, R239): into the running frame where it fits, else with the next frame. -/
def topUpOne (n : Nat) (r : Routine) (b : Block) : Block :=
  let b := addTodo b n r
  if lanePlaces b n then (tryPlace n (topPlacing b n) r).blk else b

/-- The suspend command is on the pads (R219): the operation's elapsed time stops, unless the command came too late. -/
def suspendIssued (n d : Nat) (b : Block) : Block :=
  match (die b n d).op with
  | none => b
  | some o =>
    if o.ready ∨ o.kind = .read ∨ (die b n d).suspending then b
    else
      let b := updDie b n d (fun x => { x with
        suspending := true, suspAt := now b, op := some { o with ran := opElapsed b o, since := now b, susps := o.susps + 1 } })
      rinc b (laneReg n 0x150) 15 0 1

/-- The resume command is on the pads: the suspended operation runs on (R220). -/
def resumeIssued (n d : Nat) (b : Block) : Block :=
  match (die b n d).susp with
  | none => b
  | some o => updDie b n d (fun x => { x with op := some { o with since := now b, ready := false }, susp := none })

/-- The tokens of a resume, and the command it is ordered with (R210, R220). -/
def placeResume (b : Block) (n d : Nat) : Block :=
  match (die b n d).susp with
  | none => b
  | some o =>
    if resumeDue b n d then b
    else
      let f := dieFamily b n d
      let r := laneRoutine b n 7 d .resumeOp
      topUpOne n { r with
        m14 := BitVec.ofNat 32 (suspKind o), due := o.due, order := o.order, service := o.service, charge := some (tokenCost b f 7) } b

/-- The routine reads for a tenant READ with a deadline. -/
def deadlineRead (b : Block) (r : Routine) : Bool :=
  let of (cws : List Nat) : Bool := cws.any (fun c =>
    decide (iOp (instr b (cw b c).e (cw b c).i).bytes = opRead) && (entryDue b (cw b c).e).isSome && (entryClass b (cw b c).e).isNone)
  match r.purpose with
  | .readIssue cws | .readOut cws => of cws
  | _ => false

/-- The routine is a data-out. -/
def Routine.isOut (r : Routine) : Bool :=
  match r.purpose with
  | .readOut _ | .verifyOut .. => true
  | _ => false

/-- A READ with a deadline of the die is placed and its data-out has not ended, or could be placed in the next frame (R220). -/
def deadlineReads (b : Block) (n d : Nat) : Bool :=
  (placedRoutines b n).any (fun r => decide (r.die = d) && deadlineRead b r) ||
    (lane b n).todo.any (fun r => decide (r.die = d) && deadlineRead b r && (r.isOut || (mayPlace b n true r && paysFor b n r))) ||
    (match (die b n d).op with
      | some o => decide (o.kind = .read) && deadlineRead b { laneRoutine b n 0 d o.purpose with due := none }
      | none => false)

/-- A FEATURE.SET waits on the die (R185, R220). -/
def featWaits (b : Block) (n d : Nat) : Bool :=
  (lane b n).todo.any (fun r => decide (r.die = d) && (match r.purpose with
    | .featSet .. => true
    | _ => false))

/-- RESUME_DECISION (R220): a suspended die with no READ with a deadline left is resumed. -/
def resumeCheck (n d : Nat) (b : Block) : Block :=
  let x := die b n d
  if x.susp.isSome && x.op.isNone && !x.suspending && (!deadlineReads b n d || featWaits b n d) then placeResume b n d else b

/-- The suspended dies of a lane with no READ with a deadline left to place are resumed (R220). -/
def resumeAll (n : Nat) (b : Block) : Block := each (validDies b n) (fun b d => resumeCheck n d b) b

/-- FRAME_BUILD (R204, R206): the next frame is built from the pool, the cycles a straddling routine will carry coming first, with
SUSPEND_DECISION after them as after every other step. The frame has the budget of the period in force as it is built (log entry 83,
DESIGN CHOICE). -/
def frameBuild (n : Nat) (b : Block) : Block :=
  if !lanePlaces b n || (lane b n).built then b
  else
    let l := lane b n
    let b := updLane b n (fun l =>
      { l with built := true, next := [], nextUsed := 0, nextBudget := frameBudget b, nextStall := false })
    resumeAll n (placeAll n (Placing.suspend n ⟨b, true, frameBudget b, l.used - l.budget⟩)).blk

/-- FRAME_BUILD. -/
def execFrameBuild (n : Nat) (s : State) : Host.Outcome State Fault Refusal := s.act (frameBuild n)

/-- SUSPEND_EARLIEST_REACHED (R218): the deferred suspension takes place where the test still holds. -/
def suspendEarliest (n d : Nat) (b : Block) : Block :=
  match (die b n d).waitSusp with
  | none => b
  | some t =>
    if now b < t ∨ !lanePlaces b n then b
    else each (waitingReads b n d) (suspendFor n d) (updDie b n d (fun x => { x with waitSusp := none }))

/-- SUSPEND_EARLIEST_REACHED. -/
def execSuspendEarliestReached (n d : Nat) (s : State) : Host.Outcome State Fault Refusal := s.act (suspendEarliest n d)

/-- SUSPEND_HOLD_EXPIRY (R220): a suspension that has lasted HOLD_MAX ticks is resumed, after the reads placed. -/
def suspendHold (n d : Nat) (b : Block) : Block :=
  let x := die b n d
  if x.susp.isSome && decide (x.suspAt + max 1 (rfld b (laneReg n 0x144) 23 16) ≤ now b) && lanePlaces b n then placeResume b n d
  else b

/-- SUSPEND_HOLD_EXPIRY. -/
def execSuspendHoldExpiry (n d : Nat) (s : State) : Host.Outcome State Fault Refusal := s.act (suspendHold n d)

/-- The cycles of the routine that a lane's sequencer has not yet spent. -/
def seqRest (l : Lane) : Nat :=
  match l.seq with
  | some q => q.routine.len - q.spent
  | none => 0

/-- Updates a pass of a lane. -/
def updPass (b : Block) (n : Nat) (p : Pass) (f : Pass → Pass) : Block :=
  updLane b n (fun l => { l with passes := l.passes.map (fun q =>
    if q.die = p.die ∧ q.unit = p.unit ∧ q.wl = p.wl ∧ q.num = p.num ∧ q.e = p.e ∧ q.i = p.i then f q else q) })

/-- A pass is no longer being issued: its frames are free, and its read-backs not yet begun are dropped (R281). -/
def unloadPass (n : Nat) (r : Routine) (b : Block) : Block :=
  match passOf b n r.die r.purpose with
  | none => b
  | some p =>
    updLane (updPass b n p (fun q => { q with frames := [], waits := [] })) n (fun l => { l with
      inJobs := l.inJobs.filter (fun j => j.started || (match j.use with
        | .stageRead c => !p.waits.contains c
        | _ => true)) })

/-- The routine of a FEATURE.SET: an FSET entry and the GET directly after it (R186). -/
def Routine.isFeatSet (r : Routine) : Bool :=
  match r.purpose with
  | .featSet .. => true
  | _ => false

/-- A routine that was placed and has had no confirm goes back to those to be placed (R429, R241, R55). -/
def putBack (n : Nat) (r : Routine) (b : Block) : Block :=
  let b := match r.purpose with
    | .readIssue cws => each (cws.filter (cwLive b)) (fun b c => updCw b c (fun x =>
        { x with stage := if x.stage = .array ∨ (x.stage = .softSense ∧ x.sense ≤ 1) then .issue else x.stage })) b
    | _ => b
  addTodo (updDie (unloadPass n r b) n r.die (fun x => { x with feats := [] })) n { r with
    feats := if r.isFeatSet then r.feats else [], len := 0, stalled := none }

/-- The routines built for the next frame that fit it behind `used` cycles, and those that go on to the frame after (R54, R55). -/
def keepFitting (b : Block) (n budget : Nat) (used : Nat) (l : List Routine) : List Routine × List Routine :=
  l.foldl (fun acc r =>
    if fits b n (used + (acc.1.map (fun x => x.len)).foldl (· + ·) 0) r.len budget budget then (acc.1 ++ [r], acc.2) else (acc.1, acc.2 ++ [r]))
    ([], [])

/-- The tick handler commits the frame built for the new tick (R52, R55): work not finished at the boundary stands at its head, and
its cycles come out of the frame's budget. A routine built for the frame that no longer fits goes back, its tokens paid (log entry 84,
DESIGN CHOICE). -/
def commitNext (n : Nat) (b : Block) : Block :=
  let l := lane b n
  let budget := if l.built then l.nextBudget else frameBudget b
  let carry := (if l.tickDue then l.lateCarry else seqRest l) + restOf l.frame
  let (keep, back) := keepFitting b n budget carry l.next
  let b := updLane b n (fun l => { l with
    frame := l.frame ++ keep, used := carry + restOf keep, next := [], nextUsed := 0, built := false
    budget := budget, carried := carry, stallFrame := l.nextStall, nextStall := false, tickDue := false, lateCarry := 0 })
  each back (fun b r => putBack n { r with charge := none } b) b

/-- A routine has ended or been abandoned: the cycles that it was placed with and has not spent are free again (R204, R324). -/
def freeCycles (n : Nat) (r : Routine) (spent : Nat) (b : Block) : Block :=
  updLane b n (fun l => { l with used := l.used - (r.len - spent) })

/-- A LUN reset of a die is due before any other operation on it (R238, R241). -/
def needLunReset (b : Block) (n d : Nat) : Block :=
  if (die b n d).needReset then b
  else addTodo (updDie b n d (fun x => { x with needReset := true, feats := [] })) n (laneRoutine b n 11 d .lunReset)

/-- The running micro-routine is abandoned (R238): it issues nothing further; a page-load or plane byte that has been on the pads
brings a LUN reset, and the feature values on their way are forgotten. A tick that waited for its end is taken (R54). -/
def abandonSeq (n : Nat) (b : Block) : Block :=
  match (lane b n).seq with
  | none => b
  | some q =>
    let d := q.routine.die
    let b := freeCycles n q.routine q.spent (unloadPass n q.routine b)
    let b := updDie (updLane b n (fun l => { l with seq := none })) n d (fun x => { x with feats := [] })
    let b := if q.pageLoad then needLunReset b n d else b
    if (lane b n).tickDue then commitNext n b else b

/-- Codewords leave the array reads of a lane that other codewords share (R215). -/
def unjoin (n : Nat) (gone : Nat → Bool) (b : Block) : Block :=
  let cut (l : List Routine) : List Routine := l.map (fun r => (r.dropCws gone).getD r)
  updLane b n (fun l => { l with
    todo := cut l.todo, frame := cut l.frame, next := cut l.next
    seq := l.seq.map (fun q => { q with routine := (q.routine.dropCws gone).getD q.routine }) })

/-- Routines not yet started are taken back; feature values they were to write are forgotten. -/
def dropRoutines (n : Nat) (p : Routine → Bool) (b : Block) : Block :=
  let l := lane b n
  let b := each ((l.frame ++ l.next).filter (fun r => p r && !r.feats.isEmpty)) (fun b r => updDie b n r.die (fun x => { x with feats := [] })) b
  updLane b n (fun l => { l with
    todo := l.todo.filter (fun r => !p r)
    frame := l.frame.filter (fun r => !p r)
    used := l.used - restOf (l.frame.filter p)
    next := l.next.filter (fun r => !p r)
    nextUsed := l.nextUsed - restOf (l.next.filter p) })

end Sys2Proof.Machine
end

