-- ==== Sys2Proof/Machine/Program.lean ====
section
/-! DEFINITION. Programming and erasing (R140 to R157, R250 to R252, R259, R260): the pages an instruction names, reserving staging,
encoding, staging writes, the passes of a unit, their results, failed units, and erases. -/

namespace Sys2Proof.Machine

open Sys2Proof

/-- The PA of the page that an instruction programs: its own, or the one it was given (R152). -/
def destPa (b : Block) (e i : Nat) : Option Nat :=
  let r := instr b e i
  if places r.bytes then r.place.map (fun m => mkPa m.lane m.die m.unit m.next 0)
  else if programs r.bytes then some (iPa r.bytes) else none

/-- The pages that an instruction programs, as (die, unit, page), plane by plane. -/
def progPages (b : Block) (e i : Nat) : List (Nat × Nat × Nat) :=
  let x := (instr b e i).bytes
  match destPa b e i with
  | none => []
  | some a => (unitsOn a (if iOp x = opProg then byteAt x 4 else 0)).map (fun u => (u.1, u.2, paPage a))

/-- The pages that an instruction reads. -/
def readPages (x : List Byte) : List (Nat × Nat × Nat) :=
  if iOp x = opRead ∨ iOp x = opSample then (unitsOn (iPa x) (byteAt x 4)).map (fun u => (u.1, u.2, paPage (iPa x)))
  else if iOp x = opReloc then (relocSrcs x).map (fun a => (paDie a, paUnit a, paPage a))
  else []

/-- The units that an instruction names (R156, R222). -/
def namedUnits (b : Block) (e i : Nat) : List (Nat × Nat) :=
  let x := (instr b e i).bytes
  (progPages b e i).map (fun p => (p.1, p.2.1)) ++ (readPages x).map (fun p => (p.1, p.2.1)) ++ eraseUnits x ++
    (if iOp x = opVerify then [(paDie (iPa x), paUnit (iPa x))] else [])

/-- The unfinished instructions of a lane that come earlier in pool order (R222). -/
def earlierOf (b : Block) (n e i : Nat) : List (Nat × Nat) :=
  let o := (instr b e i).order
  (lane b n).pool.flatMap (fun e' => (List.range (entry b e').instrs.length).filterMap (fun i' =>
    let r := instr b e' i'
    if r.phase ≠ .held ∧ r.phase ≠ .finished ∧ r.order < o then some (e', i') else none))

/-- A unit has an unfinished earlier-pooled ERASE (R138). -/
def erasePending (b : Block) (n e i d u : Nat) : Bool :=
  (earlierOf b n e i).any (fun y => (eraseUnits (instr b y.1 y.2).bytes).contains (d, u))

/-- A page is the target of an earlier-pooled unfinished program that has not staged it (R222). -/
def beingWritten (b : Block) (n e i d u p : Nat) : Bool :=
  !pageStaged b n d u p && (earlierOf b n e i).any (fun y => (progPages b y.1 y.2).contains (d, u, p))

/-- The instruction ends its unit (R145, R153). -/
def isFinal (b : Block) (e i : Nat) : Bool :=
  let r := instr b e i
  if places r.bytes then (match r.place with
    | some m => decide (m.next = m.last)
    | none => false)
  else decide (iOp r.bytes = opProg) && iOpt r.bytes 0

/-- A program of the unit is being carried out. -/
def unitBusy (b : Block) (n d u : Nat) : Bool :=
  (lane b n).pool.any (fun e => (List.range (entry b e).instrs.length).any (fun i =>
    decide ((instr b e i).phase = .active) && (progPages b e i).any (fun y => decide (y.1 = d ∧ y.2.1 = u))))

/-- Units leave the open-unit table (R143, R145): of a multi-pass family with nothing staged, of a single-pass one with no program
running. One that has failed stays (R148). -/
def closeSpent (b : Block) (n : Nat) : Block :=
  updLane b n (fun l => { l with
    opens := l.opens.filter (fun x => x.failed ||
      (if 1 < passesOf b (dieFamily b n x.die) then l.pages.any (fun p => decide (p.die = x.die ∧ p.unit = x.unit))
      else unitBusy b n x.die x.unit)) })

/-- WEAR of the page an instruction programs (R295). -/
def destWear (x : List Byte) : Nat := if iOp x = opReloc then byteAt x 5 / 4 % 4 else iWear x

/-- The page belongs to an instruction. -/
def ownsPage (b : Block) (e i : Nat) (p : StPage) : Bool := p.cws.any (fun c => decide ((cw b c).e = e ∧ (cw b c).i = i))

/-- A page is reserved in staging, with its codewords and their slots; `y` is the page and its place among the pages reserved. -/
def addPage (n e i cpp : Nat) (slots : List Nat) (b : Block) (y : (Nat × Nat × Nat) × Nat) : Block :=
  let ids := (List.range cpp).map (fun k => b.nextId + k)
  let mk (k : Nat) : Cw :=
    { Cw.none with
      lane := n, e := e, i := i, k := y.2 * cpp + k, pa := mkPa n y.1.1 y.1.2.1 y.1.2.2 k, stage := .encode
      slot := slots.getD (y.2 * cpp + k) 0 }
  let b := { b with nextId := b.nextId + cpp, cws := ids.zipIdx.foldl (fun t z => tput t z.1 (mk z.2)) b.cws }
  updLane b n (fun l => { l with
    pages := l.pages ++ [⟨y.1.1, y.1.2.1, y.1.2.2, ids, destWear (instr b e i).bytes, false, false⟩] })

/-- The pages an instruction programs take their places in their units (R143). -/
def openPages (n : Nat) (final : Bool) (b : Block) (y : Nat × Nat × Nat) : Block :=
  let next := nextFree 16384 b n y.1 y.2.1 (y.2.2 + 1)
  if (openUnit b n y.1 y.2.1).isSome then updOpen b n y.1 y.2.1 (fun o => { o with next := next, final := o.final || final })
  else updLane b n (fun l => { l with opens := l.opens ++ [⟨y.1, y.2.1, y.2.2, next, final, false, 0, [], []⟩] })

/-- The staging reservation of a program (R285): CPP slots per page, and those of the fillers of its wordline where it ends its
unit; none where the share lacks them. -/
def reserveStaging (b : Block) (n e i : Nat) : Option Block :=
  let pages := progPages b e i
  let f := dieFamily b n ((pages.head?.map (·.1)).getD 0)
  let p := (pages.head?.map (·.2.2)).getD 0
  let cpp := cppOf b f
  let w := wlPages b f
  let fill := if isFinal b e i then (List.range (w - 1 - p % w)).map (fun k => p + 1 + k) else []
  let all := pages ++ fill.flatMap (fun q => pages.map (fun y => (y.1, y.2.1, q)))
  match freeSlots b n (all.length * cpp) with
  | none => none
  | some (slots, b) =>
    let b := all.zipIdx.foldl (addPage n e i cpp slots) b
    some (noteOpen (noteStage (pages.foldl (openPages n (isFinal b e i)) b) n) n)

/-- Updates the member of a stripe that holds a page of an instruction. -/
def updMember (b : Block) (st : Nat) (m : Member) (f : Member → Member) : Block :=
  updStripe b st (fun s => { s with members := s.members.map (fun x =>
    if x.lane = m.lane ∧ x.die = m.die ∧ x.unit = m.unit then f x else x) })

/-- A page given to an APPEND is returned, with its reservation (R153, R154). -/
def unplace (b : Block) (n e i : Nat) : Block :=
  let r := instr b e i
  match r.place with
  | none => b
  | some m =>
    if (stripe b (iStripe r.bytes)).opening = r.opening then
      giveBack (updMember b (iStripe r.bytes) m (fun x => { x with taken := false })) (iStripe r.bytes) n
    else b

/-- A program ends before its pages are staged (R143, R154, R286): its slots are freed, its pages returned, its transfers not yet
started dropped. -/
def returnPages (b : Block) (n e i : Nat) : Block :=
  let staged := (lane b n).pages.any (fun p => ownsPage b e i p && p.staged)
  let mine (j : Job) : Bool := !j.started && jobOf e i j
  let b := updLane b n (fun l => { l with inJobs := l.inJobs.filter (fun j => !mine j), outJobs := l.outJobs.filter (fun j => !mine j) })
  let holds := (lane b n).pages.any (ownsPage b e i)
  let b := if holds then
      each (progPages b e i) (fun b y => updOpen b n y.1 y.2.1 (fun o =>
        { o with next := min o.next y.2.2, final := o.final && !isFinal b e i })) b
    else b
  let b := if staged then b else unplace b n e i
  closeSpent (dropPages b n (ownsPage b e i)) n

/-- Forgets the codewords that an instruction read. -/
def dropReaders (b : Block) (e i : Nat) : Block :=
  let ids := (instrCws b e i).map (·.1)
  { b with cws := b.cws.filter (fun x => !ids.contains x.1) }

/-- A program ends with a failure before its pages are staged. -/
def failProg (b : Block) (n e i st det : Nat) (aux : Word64) : Block :=
  closeSpent (finishAux (dropReaders (returnPages b n e i) e i) e i st det aux) n

/-- Steps 3 to 5 of R260 for one codeword, given its 4,128 bytes: its raw bytes are written to its staging slot. -/
def encodeCw (n : Nat) (b : Block) (id : Nat) (info : List Byte) : Block :=
  let c := cw b id
  let out := ldpcEncode info (cwLen b (dieFamily b n (paDie c.pa)))
  let raw := randomise c.pa out
  let b := updCw b id (fun c => { c with raw := raw, out := out, stage := .stagingWrite })
  pushOut b n (mkJob (.stageWrite c.e c.i id) (slotAddr b n c.slot) raw.length true raw)

/-- Codewords of the lane whose bytes the lane has itself, relocated ones and fillers, and that wait for a frame (R280). -/
def unencoded (b : Block) (n : Nat) : List Nat :=
  (b.cws.filter (fun x => decide (x.2.lane = n ∧ x.2.stage = .encode) && !x.2.out.isEmpty)).map (·.1)

/-- A relocated codeword takes over the frame that its source has kept (R277). -/
def takeKept (b : Block) (c : Nat) : Block :=
  each (((instrCws b (cw b c).e (cw b c).i).filter (fun x => x.2.kept && decide (x.2.k = (cw b c).k))).map (·.1))
    (fun b s => updCw b s (fun x => { x with kept := false })) b

/-- A codeword of the lane's own bytes is encoded where it finds a frame: its source's, or one that is free, held codewords being released
for it (R264, R280, R281). -/
def encodeOne (n : Nat) (b : Block) (c : Nat) : Block :=
  if 0 < writeRoom (takeKept b c) n then encodeCw n (takeKept b c) c (cw b c).out
  else
    let b := releaseForWrite n b
    if writeRoom (takeKept b c) n = 0 then b else encodeCw n (takeKept b c) c (cw b c).out

/-- Each of them is encoded once it finds a frame (R264, R280, R281). -/
def encodeReady (n : Nat) (b : Block) : Block := each (unencoded b n) (encodeOne n) b

/-- The codewords an instruction writes, by their place in layout order. -/
def destCws (b : Block) (n e i : Nat) : List Nat := ((lane b n).pages.filter (ownsPage b e i)).flatMap (fun p => p.cws)

/-- Steps 1 and 2 of R260 for a codeword of host data (R141, R261). -/
def hostInfo (b : Block) (n e i k : Nat) (pa : Nat) (data : List Byte) : List Byte :=
  let x := (instr b e i).bytes
  let ks := (entry b e).key
  let htag := (iWord3 x + k) % 2 ^ 64
  (if ks = 0 then data else xts true (keySlot b ks).key htag data) ++
    metaBytes htag (fieldAt x 32 4) (pepochNow b).toNat ks (dieBand b n (paDie pa)) 1

/-- The host data of a codeword of a PROG or APPEND is in its frame (R142): the codeword is encoded and written to staging. One whose
key is lost completes INVALID_FIELD, reason 4, at offset 0 (R456). -/
def hostData (b : Block) (n e i c : Nat) (bytes : List Byte) : Block :=
  let (found, b) := readKey b (entry b e).key
  if !found then failProg b n e i stInvalid 0 (invalidAux 4 (i + 1))
  else encodeCw n b c (hostInfo b n e i (cw b c).k (cw b c).pa bytes)

/-- The 4,128 bytes of a filler codeword (R259). -/
def fillerInfo (b : Block) (n pa : Nat) : List Byte :=
  zeros 4096 ++ metaBytes (2 ^ 64 - 1) 0 (pepochNow b).toNat 0 (dieBand b n (paDie pa)) 2

/-- A page of an open unit, or a wordline of it, is in the passes being made of the unit. -/
def Pass.covers (p : Pass) (d u : Nat) : Bool := decide (p.die = d ∧ p.unit / 8 = u / 8) && p.mask.testBit (u % 8)

/-- The first pass of a wordline has been made possible (R250). -/
def firstMade (b : Block) (n d u w : Nat) : Bool :=
  (lane b n).passes.any (fun p => p.covers d u && decide (p.wl = w ∧ p.num = 1)) ||
    (match openUnit b n d u with
      | some o => o.conf.contains w
      | none => false)

/-- The passes (wordline, number) that follow a wordline's arrival (R250); those of wordlines below `lo` are skipped. -/
def passesAfter (order lo w : Nat) : List (Nat × Nat) :=
  let back (k num : Nat) : List (Nat × Nat) := if lo + k ≤ w then [(w - k, num)] else []
  if order = 0 then [(w, 1)]
  else if order = 1 then (w, 1) :: back 1 2
  else if order = 2 then (w, 1) :: back 2 2
  else (w, 1) :: (back 1 2 ++ back 2 3)

/-- The tail that FINAL issues after the last wordline (R250). -/
def passTail (order lo w : Nat) : List (Nat × Nat) :=
  let prev (num : Nat) : List (Nat × Nat) := if lo + 1 ≤ w then [(w - 1, num)] else []
  if order = 0 then []
  else if order = 1 then [(w, 2)]
  else if order = 2 then prev 2 ++ [(w, 2)]
  else (w, 2) :: (prev 3 ++ [(w, 3)])

/-- The passes that are possible in a unit and not yet made (R144, R145, R250): those of its wordlines in order, as far as they are complete
in staging, and, where that reaches the end of a unit that FINAL has ended, the tail. -/
def newPasses (b : Block) (n d u : Nat) : List (Nat × Nat) :=
  match openUnit b n d u with
  | none => []
  | some o =>
    let f := dieFamily b n d
    let w := wlPages b f
    let lo := o.first / w
    let top := (((lane b n).pages.filter (fun p => decide (p.die = d ∧ p.unit = u) && p.staged)).map (fun p => p.page / w)).foldl max lo
    let complete (x : Nat) : Bool := (List.range w).all (fun k => decide (x * w + k < o.first) || pageStaged b n d u (x * w + k))
    let fresh := ((List.range' lo (top + 1 - lo)).dropWhile (firstMade b n d u)).takeWhile complete
    fresh.flatMap (passesAfter (orderOf b f) lo) ++ (if o.final && decide (fresh.getLast? = some top) then passTail (orderOf b f) lo top else [])

/-- The staged pages of a wordline of the units of a pass. -/
def passPages (b : Block) (n : Nat) (p : Pass) : List StPage :=
  let w := wlPages b (dieFamily b n p.die)
  (lane b n).pages.filter (fun x => p.covers x.die x.unit && decide (x.page / w = p.wl) && x.staged)

/-- The first pages of a unit's wordline, on the lowest plane of a pass. -/
def passFirst (b : Block) (n : Nat) (p : Pass) : Nat := mkPa n p.die p.unit (p.wl * wlPages b (dieFamily b n p.die)) 0

/-- A pass becomes its micro-routine (R236, R251, R314). -/
def passRoutine (b : Block) (n : Nat) (p : Pass) : Routine :=
  let f := dieFamily b n p.die
  let r := mkRoutine b n 4 p.die p.e p.i (.pass p.e p.i p.unit p.wl p.num)
  { r with
    row := BitVec.ofNat 32 (rowAddress b f (dieLun b n p.die) p.unit (p.wl * wlPages b f))
    mask := p.mask
    bytes := BitVec.ofNat 32 (pageBytes b f)
    ncw := cppOf b f * maskCount p.mask * wlPages b f
    m14 := BitVec.ofNat 32 p.num
    charge := some (tokenCost b f (2 + p.num)) }

/-- A pass whose predecessors have reported starts (R251): its routine waits to be placed. -/
def startPass (n : Nat) (b : Block) (p : Pass) : Block :=
  addTodo (updPass b n p (fun q => { q with stage := 1 })) n (passRoutine b n p)

/-- The codewords of a pass in the order its cycles send them (R236), none for one that staging does not hold: page by page of the
wordline, plane by plane, slot by slot. -/
def passFrames (b : Block) (n : Nat) (p : Pass) : List (Option Nat) :=
  let f := dieFamily b n p.die
  let w := wlPages b f
  (List.range w).flatMap (fun k => (planeList p.mask p.unit).flatMap (fun pl =>
    match (passPages b n p).find? (fun x => decide (x.unit = onPlane p.unit pl ∧ x.page = p.wl * w + k)) with
    | some x => x.cws.map some
    | none => List.replicate (cppOf b f) none))

/-- A pass is issued (R281): a first pass takes its held codewords, the others are read back from staging in the order they are sent. -/
def loadPass (n : Nat) (r : Routine) (b : Block) : Block :=
  match passOf b n r.die r.purpose with
  | none => b
  | some p =>
    let held := if p.num = 1 then (lane b n).heldFrames else []
    let ids := (passFrames b n p).filterMap id
    let back := ids.filter (fun c => !held.contains c)
    let b := if p.num = 1 then rinc b (laneReg n 0x248) 15 0 back.length else b
    let b := updPass b n p (fun q => { q with frames := ids.filter (fun c => held.contains c), waits := back })
    let b := if p.num = 1 then updLane b n (fun l => { l with heldFrames := l.heldFrames.filter (fun c => !ids.contains c) }) else b
    each back (fun b c => pushIn b n (mkJob (.stageRead c) (slotAddr b n (cw b c).slot) (cw b c).raw.length true [])) b

/-- The bytes that a DIN of a pass sends (R316): `k` bytes from codeword `start` on, the page's tail filled by its last codeword's
generator (R266). A page of the wordline below the one the unit was opened at has no data, so a free value stands for it (log entry 85,
DESIGN CHOICE). -/
def passBytes (b : Block) (n : Nat) (p : Pass) (k start : Nat) : List Byte × Block :=
  let f := dieFamily b n p.die
  let len := cwLen b f
  let ids := ((passFrames b n p).drop start).take (min (cppOf b f) ((k + len - 1) / len))
  let (l, b) := ids.foldl (fun (acc : List Byte × Block) c =>
    match c with
    | some c => (acc.1 ++ (cw acc.2 c).raw, acc.2)
    | none =>
      let (v, b) := freeOf (8 * len) acc.2
      (acc.1 ++ leBytes len v.toNat, b)) ([], b)
  let planes := planeList p.mask p.unit
  let at_ := start + ids.length - 1
  let pa := mkPa n p.die (onPlane p.unit (planes.getD (at_ / cppOf b f % planes.length) 0))
    (p.wl * wlPages b f + at_ / (cppOf b f * planes.length)) (at_ % cppOf b f)
  ((l ++ pageTail pa len (k - l.length)).take k, b)

/-- The codewords of a pass that `k` bytes from codeword `start` on lie in. -/
def passUses (b : Block) (n : Nat) (p : Pass) (k start : Nat) : List Nat :=
  let f := dieFamily b n p.die
  (((passFrames b n p).drop start).take (min (cppOf b f) ((k + cwLen b f - 1) / cwLen b f))).filterMap id

/-- Starts every pass of the lane that no earlier one of its units holds back. -/
def startPasses (n : Nat) (b : Block) : Block :=
  let l := (lane b n).passes
  let clash (p q : Pass) : Bool := decide (p.die = q.die ∧ p.unit / 8 = q.unit / 8 ∧ p.mask &&& q.mask ≠ 0)
  each ((l.zipIdx.filter (fun x => decide (x.1.stage = 0) && !((l.take x.2).any (clash x.1)))).map (·.1)) (startPass n) b

/-- A program finishes where its pages are staged and every pass it made possible has reported (R144). RESULT is its PA; OK_WARN
where a source of a RELOCATE warned (R164). -/
def progCheck (n e i : Nat) (b : Block) : Block :=
  let r := instr b e i
  let mine := (lane b n).pages.filter (ownsPage b e i)
  if r.phase ≠ .active ∨ r.left ≠ 0 ∨ !mine.all (fun p => p.staged) then b
  else
    let warn := (instrCws b e i).any (fun x => decide (x.2.status = some (stWarn, 0)))
    let res := (destPa b e i).map (BitVec.ofNat 64)
    let b := dropReaders b e i
    closeSpent (finishInstr (updInstr b e i (fun r => { r with result := res })) e i (if warn then stWarn else stOk) 0) n

/-- The lowest of some pages. -/
def firstPage (l : List StPage) : Option StPage :=
  l.foldl (fun m p => match m with
    | some q => if p.page < q.page then some p else m
    | none => some p) none

/-- The passes that a program's pages make possible are queued (R144, R250), each with the WEAR of its wordline's first page (R306); on a
failed unit the program fails instead (R148). -/
def makePasses (n e i : Nat) (b : Block) : Block :=
  let pages := progPages b e i
  let f := dieFamily b n ((pages.head?.map (·.1)).getD 0)
  let w := wlPages b f
  let per := pages.map (fun y => (y, newPasses b n y.1 y.2.1))
  let all := (per.flatMap (·.2)).dedup
  let bad := per.find? (fun y => !y.2.isEmpty && ((openUnit b n y.1.1 y.1.2.1).map (·.failed)).getD false)
  match bad with
  | some y =>
    let at_ := ((openUnit b n y.1.1 y.1.2.1).map (·.failAt)).getD 0
    closeSpent (finishAux (dropReaders b e i) e i stProgFailed 1 (BitVec.ofNat 64 at_)) n
  | none =>
    let mk (x : Nat × Nat) : Pass :=
      let us := (per.filter (fun y => y.2.contains x)).map (fun y => y.1)
      let lead := us.head?.getD (0, 0, 0)
      let wear := ((firstPage ((lane b n).pages.filter (fun p => decide (p.die = lead.1 ∧ p.unit = lead.2.1 ∧ p.page / w = x.1)))).map
        (fun p => p.wear)).getD (destWear (instr b e i).bytes)
      ⟨lead.1, lead.2.1, us.foldl (fun m y => m ||| 2 ^ (y.2.1 % 8)) 0, x.1, x.2, e, i, wear, 0, [], []⟩
    let b := updLane b n (fun l => { l with passes := l.passes ++ all.map mk })
    let b := updInstr b e i (fun r => { r with left := r.left + all.length })
    progCheck n e i (startPasses n b)

/-- A page of an instruction has become staged (R222): it is confirmed (R149), a member's page is used up (R153), fillers follow the
last data page (R252), and the last page brings its passes. -/
def pageArrived (n e i : Nat) (page : StPage) (b : Block) : Block :=
  let data := progPages b e i
  let isData := data.contains (page.die, page.unit, page.page)
  let b := updInstr b e i (fun r => { r with confirmed := true })
  let r := instr b e i
  let b := match r.place with
    | some m =>
      if isData && decide ((stripe b (iStripe r.bytes)).opening = r.opening) then
        updMember b (iStripe r.bytes) m (fun x => { x with taken := false, next := x.next + 1 })
      else b
    | none => b
  let mine := (lane b n).pages.filter (ownsPage b e i)
  let dataIn := mine.all (fun p => p.staged || !data.contains (p.die, p.unit, p.page))
  let fresh := (mine.flatMap (fun p => p.cws)).filter (fun c => decide ((cw b c).stage = .encode))
  if dataIn && !fresh.isEmpty then
    encodeReady n (each fresh (fun b c => updCw b c (fun x => { x with out := fillerInfo b n x.pa })) b)
  else if mine.all (fun p => p.staged) then makePasses n e i b
  else b

/-- A page's codewords are all written, and no earlier page of its unit is still to be staged: pages are staged in increasing order
(R250). -/
def pageReady (b : Block) (n : Nat) (p : StPage) : Bool :=
  !p.staged && p.cws.all (fun c => decide ((cw b c).stage = .staged)) &&
    !(lane b n).pages.any (fun q => decide (q.die = p.die ∧ q.unit = p.unit ∧ q.page < p.page) && !q.staged)

/-- The pages that are ready become staged, one after another (R222, R250). -/
def settlePages : Nat → Nat → Block → Block
  | 0, _, b => b
  | k + 1, n, b =>
    match (lane b n).pages.find? (pageReady b n) with
    | none => b
    | some p =>
      let c := cw b (p.cws.headD 0)
      settlePages k n (pageArrived n c.e c.i p (updLane b n (fun l => { l with
        pages := l.pages.map (fun q => if q.cws = p.cws then { q with staged := true } else q) })))

/-- What waits for a lane-buffer frame goes on: codewords to be encoded, and the inbound job at the head (R264, R280). So does a page that
waited for an earlier one of its unit, where that one has been returned (R250, R143). -/
def framesFreed (n : Nat) (b : Block) : Block :=
  let b := encodeReady n b
  startJob (settlePages (lane b n).pages.length n b) n true

/-- The response of a staging write (R142, R222, R281, R287). -/
def stagingWritten (n id : Nat) (bad : Bool) (b : Block) : Block :=
  let c := cw b id
  if c.stage ≠ .stagingWrite then b
  else if bad then failProg (rinc b (laneReg n 0x250) 31 28 1) n c.e c.i stDma 5 0
  else
    let b := updCw b id (fun c => { c with stage := .staged })
    let b := if (lane b n).heldFrames.length < holdMax b n then
        updLane b n (fun l => { l with heldFrames := l.heldFrames ++ [id] })
      else b
    settlePages (lane b n).pages.length n b

/-- Pages that a pooled ERASE has released leave once no pass uses them (R156, R286). -/
def dropGone (b : Block) (n : Nat) : Block :=
  dropPages b n (fun x => x.gone && !(lane b n).passes.any (fun p =>
    p.covers x.die x.unit && decide (x.page / wlPages b (dieFamily b n x.die) = p.wl)))

/-- The units of a pass. -/
def passUnits (p : Pass) : List (Nat × Nat) := (planeList p.mask p.unit).map (fun k => (p.die, onPlane p.unit k))

/-- A member whose unit fails leaves its stripe, and the pavilion's count follows what the lane has left (R153, R154). -/
def dropMember (n : Nat) (b : Block) (y : Nat × Nat) : Block :=
  let has (s : Stripe) : Bool := s.members.any (fun m => decide (m.lane = n ∧ m.die = y.1 ∧ m.unit = y.2))
  each ((b.stripes.filter (fun s => has s.2)).map (·.1)) (fun b st =>
    let rest := (stripe b st).members.filter (fun m => !decide (m.lane = n ∧ m.die = y.1 ∧ m.unit = y.2))
    let left := ((rest.filter (fun m => decide (m.lane = n))).map (fun m => m.last + 1 - m.next - ofBool m.taken)).foldl (· + ·) 0
    let routed := ((b.entries.filter (fun x => decide (x.2.lane = some n))).map (fun x =>
      (x.2.instrs.filter (fun r => places r.bytes && decide (iStripe r.bytes = st) && decide (r.phase ≠ .finished) &&
        r.place.isNone)).length)).foldl (· + ·) 0
    updStripe b st (fun s => { s with members := rest, counts := tput s.counts n (left - routed) })) b

/-- The AUX of a program whose unit fails in a pass (R148). -/
def failAux (b : Block) (n e i : Nat) (p : Pass) : Nat × Nat :=
  let w := wlPages b (dieFamily b n p.die)
  match destPa b e i with
  | some a =>
    if (progPages b e i).any (fun y => p.covers y.1 y.2.1 && decide (y.2.2 / w = p.wl)) then (0, a)
    else (1, passFirst b n p)
  | none => (1, passFirst b n p)

/-- A pass fails, times out (DETAIL 0x02), or meets a staging read error (R148, R287): its units are failed, and every program
that waits on a pass of them completes. -/
def failUnits (b : Block) (n : Nat) (p : Pass) (own : Nat × Nat × Nat) : Block :=
  let first := passFirst b n p
  let b := each (passUnits p) (fun b y => updOpen b n y.1 y.2 (fun o => { o with failed := true, failAt := first })) b
  let b := each (passUnits p) (dropMember n) b
  let hit (q : Pass) : Bool := (passUnits p).any (fun y => q.covers y.1 y.2)
  let others := (((lane b n).passes.filter (fun q => hit q && !decide (q.e = p.e ∧ q.i = p.i))).map (fun q => (q.e, q.i))).dedup
  let dropped (r : Routine) : Bool := match r.purpose with
    | .pass e i _ _ _ => decide (e = p.e ∧ i = p.i) || others.contains (e, i)
    | _ => false
  let b := match (lane b n).seq with
    | some q => if dropped q.routine && !q.confirmed then abandonSeq n b else b
    | none => b
  let b := dropRoutines n dropped b
  let b := updLane b n (fun l => { l with
    passes := l.passes.filter (fun q => !(hit q || decide (q.e = p.e ∧ q.i = p.i) || others.contains (q.e, q.i))) })
  let b := finishAux (dropReaders b p.e p.i) p.e p.i own.1 own.2.1 (BitVec.ofNat 64 own.2.2)
  let b := each others (fun b y => finishAux (dropReaders b y.1 y.2) y.1 y.2 stProgFailed 1 (BitVec.ofNat 64 first)) b
  startPasses n (dropGone b n)

/-- A pass reports fail (R148). -/
def passFailed (b : Block) (n : Nat) (p : Pass) : Block :=
  let x := failAux b n p.e p.i p
  failUnits b n p (stProgFailed, x.1, x.2)

/-- A pass exceeds its time limit (R148, R241). -/
def passExpired (b : Block) (n : Nat) (p : Pass) : Block := failUnits b n p (stProgFailed, 2, (failAux b n p.e p.i p).2)

/-- A pass reports pass (R144): the last pass of a wordline finalises its pages, and the program may be done. -/
def passPassed (b : Block) (n : Nat) (p : Pass) : Block :=
  let f := dieFamily b n p.die
  let b := updLane b n (fun l => { l with passes := l.passes.filter (fun q =>
    !decide (q.die = p.die ∧ q.unit = p.unit ∧ q.wl = p.wl ∧ q.num = p.num ∧ q.e = p.e ∧ q.i = p.i)) })
  let b := updInstr b p.e p.i (fun r => { r with left := r.left - 1 })
  let b := if p.num = passesOf b f then
      let last := ((passPages b n p).map (fun x => x.page)).foldl max 0
      let b := updInstr b p.e p.i (fun r => { r with aux := BitVec.ofNat 64 (mkPa n p.die p.unit last 0) })
      dropPages b n (fun x => p.covers x.die x.unit && decide (x.page / wlPages b f = p.wl) && x.staged)
    else b
  progCheck n p.e p.i (closeSpent (startPasses n (dropGone b n)) n)

/-- A codeword has been read back from staging for the pass being issued (R287). -/
def readBack (n id : Nat) (bytes : List Byte) (bad : Bool) (b : Block) : Block :=
  let c := cw b id
  match (lane b n).passes.find? (fun p => p.waits.contains id) with
  | none => b
  | some p =>
    let ok := !bad && ldpcValid (randomise c.pa bytes)
    let b := if bad then rinc b (laneReg n 0x250) 31 28 1 else if ok then b else rinc b (laneReg n 0x250) 27 24 1
    if !ok then failUnits b n p (stDma, 6, mkPa n (paDie c.pa) (paUnit c.pa) (paPage c.pa) 0)
    else updPass (updCw b id (fun c => { c with raw := bytes })) n p (fun q => { q with waits := q.waits.erase id })

/-- An ERASE is pooled (R156, R297): the staged pages of its units are released, a pass that uses one keeping its slots until it has
reported; their open and failed states are cleared, but that pages of an earlier program still to be staged open their unit anew; and
their records are marked not VALID. -/
def erasePooled (b : Block) (n e i : Nat) : Block :=
  let us := eraseUnits (instr b e i).bytes
  let b := updLane b n (fun l => { l with eraseAt := us.foldl (fun t y => tput t (65536 * y.1 + y.2) (instr b e i).order) l.eraseAt })
  let mine (x : StPage) : Bool := us.contains (x.die, x.unit) && x.staged
  let b := dropGone (updLane b n (fun l => { l with pages := l.pages.map (fun x => { x with gone := x.gone || mine x }) })) n
  let reserved (o : OpenUnit) : List Nat :=
    ((lane b n).pages.filter (fun x => decide (x.die = o.die ∧ x.unit = o.unit) && !x.staged)).map (fun x => x.page)
  let b := updLane b n (fun l => { l with
    opens := l.opens.filterMap (fun o =>
      if !us.contains (o.die, o.unit) then some o
      else match reserved o with
        | [] => none
        | p :: r => some { o with first := r.foldl min p, failed := false, conf := [] }) })
  each us (fun b y => writeRecord b n y.1 y.2 false 0 0) b

/-- The erase confirm is issued (R156): every page of its units leaves staging, pending passes are dropped, and their states are
cleared. -/
def eraseConfirmed (b : Block) (n : Nat) (us : List (Nat × Nat)) : Block :=
  let b := updLane b n (fun l => { l with passes := l.passes.filter (fun p => !us.any (fun y => p.covers y.1 y.2)) })
  let b := dropPages b n (fun x => us.contains (x.die, x.unit))
  updLane b n (fun l => { l with opens := l.opens.filter (fun o => !us.contains (o.die, o.unit)) })

/-- The micro-routine of an ERASE (R236). -/
def eraseRoutine (b : Block) (n e i : Nat) : Routine :=
  let x := (instr b e i).bytes
  let a := iPa x
  let f := dieFamily b n (paDie a)
  let mask := (planeList (byteAt x 4) (paUnit a)).foldl (fun m p => m ||| 2 ^ p) 0
  let lead := onPlane (paUnit a) (((List.range 8).find? (fun p => mask.testBit p)).getD 0)
  { mkRoutine b n 5 (paDie a) e i (.eraseIssue e i) with
    row := BitVec.ofNat 32 (rowAddress b f (dieLun b n (paDie a)) lead 0)
    mask := mask, charge := some (tokenCost b f 6) }

/-- An ERASE ends (R157): AUX holds the PA of the first of its units that failed, `u` being its place in plane order. -/
def eraseEnded (b : Block) (n e i st det u : Nat) : Block :=
  let us := eraseUnits (instr b e i).bytes
  let a := ((us[u]?).map (fun y => mkPa n y.1 y.2 0 0)).getD 0
  finishAux b e i st det (if st = stOk then 0 else BitVec.ofNat 64 a)

end Sys2Proof.Machine
end

