-- ==== Sys2Proof/Machine/ReadPath.lean ====
section
/-! DEFINITION. The read path (R132 to R138, R163 to R168, R267 to R278, R296 to R310): codewords from their record fetch to their
outcome, the hard and soft decoders, host writes, and the end of a READ, SAMPLE or RELOCATE. -/

namespace Sys2Proof.Machine

open Sys2Proof

/-- The sec attribute of an entry's host transfers (R130). -/
def entrySec (b : Block) (e : Nat) : Bool := pavSec b (entry b e).owner

/-- The status of several codewords (R132): the first failure in layout order, else OK_WARN where one warned, else OK. -/
def combine (l : List Cw) : Nat × Nat :=
  match l.find? (fun c => !success (c.status.getD (0, 0)).1) with
  | some c => c.status.getD (0, 0)
  | none => if l.any (fun c => decide ((c.status.getD (0, 0)).1 = stWarn)) then (stWarn, 0) else (stOk, 0)

/-- FAILMAP: the codewords whose outcome is neither OK nor OK_WARN (R137, R164). -/
def failMap (l : List Cw) : Nat :=
  (l.zipIdx.filter (fun x => !success (x.1.status.getD (0, 0)).1)).foldl (fun m x => m + 2 ^ x.2) 0

/-- A codeword was served from staging: it decoded without an array read (R138). -/
def Cw.fromStaging (c : Cw) : Bool := !c.looked && success (c.status.getD (0, 0)).1

/-- A codeword has decoded metadata. -/
def Cw.decoded (c : Cw) : Bool := !c.out.isEmpty

/-- PBAND, age band (0xFF unknown), read band and PEPOCH as a SAMPLE reports them (R474). -/
def sampleBands (b : Block) (c : Cw) : Nat × Nat × Nat × Nat :=
  if c.decoded then
    let p := BitVec.ofNat 32 (cwPepoch c.out)
    let ep := if c.looked then c.epoch else (instr b c.e c.i).epoch
    (cwPband c.out, (ageBandAt b ep p).getD 0xFF, c.rband, p.toNat)
  else if c.looked then (c.pband, c.aband.getD 0xFF, c.rband, c.pepoch.toNat)
  else (0, 0xFF, c.rband, 0xFFFFFFFF)

/-- A SAMPLE record (R168). -/
def sampleRecord (b : Block) (c : Cw) : List Byte :=
  let st := (c.status.getD (0, 0)).1
  let path := if success st then (if !c.looked then 2 else if 0 < c.sense then 1 else 0) else if st = stErased then 3 else 4
  let x := sampleBands b c
  leBytes 2 c.corr ++ leBytes 1 (min 255 c.retry) ++ leBytes 1 path ++ leBytes 1 x.1 ++ leBytes 1 x.2.1 ++ leBytes 1 x.2.2.1 ++
    zeros 1 ++ leBytes 4 x.2.2.2 ++ zeros 4

/-- AUX of a SAMPLE: the bands of codeword 0 (R168). -/
def sampleAux (b : Block) (l : List Cw) : Word64 :=
  match l with
  | [] => 0
  | c :: _ =>
    let x := sampleBands b c
    BitVec.ofNat 64 (x.1 + x.2.1 * 2 ^ 8 + x.2.2.1 * 2 ^ 16 + x.2.2.2 * 2 ^ 32)

/-- The 4,128 bytes of a relocated codeword or record (R165). -/
def relocInfo (b : Block) (n pa : Nat) (cw : List Byte) : List Byte :=
  cw.take 4096 ++ relocMeta cw (dieBand b n (paDie pa)) (pepochNow b).toNat

/-- The codewords read become the destination page's codewords (R162, R165), with their metadata, before they wait for a frame (R291; log
entry 114, DEDUCED). -/
def relocEncode (b : Block) (n e i : Nat) (src : List (List Byte)) : Block :=
  encodeReady n (each ((destCws b n e i).filter (fun c => decide ((cw b c).k < src.length ∧ (cw b c).stage = .encode))) (fun b c =>
    updCw b c (fun x => { x with out := relocInfo b n x.pa (src.getD x.k []) })) b)

/-- The end of a READ or SAMPLE (R132, R137, R138, R168). -/
def finishRead (b : Block) (e i : Nat) (l : List Cw) : Block :=
  let x := (instr b e i).bytes
  let st := combine l
  let st := if st = (stOk, 0) ∧ l.all Cw.fromStaging then (stOk, 1) else st
  let aux : Word64 := if iOp x = opRead then BitVec.ofNat 64 (failMap l) else sampleAux b l
  finishAux (dropReaders b e i) e i st.1 st.2 aux

/-- A RELOCATE whose sources are all read (R164, R166): a failed source ends it; in mode 0 the destination is encoded; in mode 1 the
records are written, that of a slot 0 source as zeros for a non-secure pavilion. Where some source fails no record is written, so that
none is held back either (log entry 110, DESIGN CHOICE). -/
def relocSourcesDone (b : Block) (n e i : Nat) (l : List (Nat × Cw)) : Block :=
  let x := (instr b e i).bytes
  let cws := l.map (·.2)
  let st := combine cws
  let written := decide ((instr b e i).left = 1) && decide (relocMode x = 1)
  if !success st.1 then failProg b n e i st.1 st.2 (BitVec.ofNat 64 (failMap cws))
  else if relocMode x = 0 then relocEncode b n e i (cws.map (fun c => c.out))
  else if written then finishInstr (dropReaders b e i) e i st.1 st.2
  else
    let b := updInstr b e i (fun r => { r with left := 1 })
    let sec := entrySec b e
    each l (fun b y =>
      let bare := decide (cwKslot y.2.out = 0) && !sec
      let b := updCw b y.1 (fun c => { c with stage := .hostWrite, kept := false, status := if bare then some (stMismatch, 3) else c.status })
      pushOut b n (mkJob (.hostOut e i y.1 true) (iAddr x + 4160 * y.2.k) 4160 sec (if bare then zeros 4160 else recordBytes y.2.out))) b

/-- Everything an instruction read has its outcome (R132, R164). -/
def readCheck (n e i : Nat) (b : Block) : Block :=
  let r := instr b e i
  let l := instrCws b e i
  if r.phase ≠ .active ∨ l.isEmpty ∨ !l.all (fun x => decide (x.2.stage = .done)) then b
  else
    let cws := l.map (·.2)
    let b := updInstr b e i (fun r => { r with
      retry := (cws.map (fun c => c.retry)).foldl max 0, maxCorr := (cws.map (fun c => c.corr)).foldl max 0 })
    if iOp r.bytes = opReloc then relocSourcesDone b n e i l else finishRead b e i cws

/-- A codeword has its outcome: a SAMPLE with REPORT writes its record (R168), otherwise it is done, a source of a RELOCATE that has decoded
keeping its frame (R277), and what waits for a frame goes on (R264). -/
def cwOutcome (id st det : Nat) (b : Block) : Block :=
  let c := cw b id
  let x := (instr b c.e c.i).bytes
  let b := updCw b id (fun c => { c with status := some (st, det), stage := .done, kept := decide (iOp x = opReloc) && success st })
  if iOp x = opSample ∧ iOpt x 1 then
    let b := updCw b id (fun c => { c with stage := .hostWrite })
    pushOut b c.lane (mkJob (.hostOut c.e c.i id true) (iAddr x + 16 * c.k) 16 (entrySec b c.e) (sampleRecord b (cw b id)))
  else framesFreed c.lane (readCheck c.lane c.e c.i b)

/-- An ERASE of a unit has been pooled since an instruction was, whatever has become of it (R297). -/
def eraseSince (b : Block) (n e i d u : Nat) : Bool := decide ((instr b e i).order < tget 0 (lane b n).eraseAt (65536 * d + u))

/-- A codeword read from the die has decoded: a unit without a VALID record gets one, once (R297). -/
def learn (b : Block) (id : Nat) : Block :=
  let c := cw b id
  let d := paDie c.pa
  let u := paUnit c.pa
  let known := c.recOk || (recordAddr b c.lane d u).isNone || eraseSince b c.lane c.e c.i d u ||
    (instrCws b c.e c.i).any (fun x => decide (x.1 ≠ id ∧ paUnit x.2.pa = u ∧ paDie x.2.pa = d) && x.2.looked && x.2.decoded)
  if known then b
  else rinc (writeRecord b c.lane d u true (cwPband c.out) (BitVec.ofNat 32 (cwPepoch c.out))) (laneReg c.lane 0x264) 23 16 1

/-- The routine serves instruction i of entry e. -/
def Routine.serves (b : Block) (e i : Nat) (r : Routine) : Bool :=
  match r.purpose with
  | .readIssue cws | .readOut cws => cws.any (fun c => decide ((cw b c).e = e ∧ (cw b c).i = i))
  | .pass e' i' _ _ _ | .eraseIssue e' i' | .verifyIssue e' i' _ | .verifyOut e' i' _ | .status e' i' | .featSet e' i'
  | .featGet e' i' | .rawCycle e' i' _ => decide (e' = e ∧ i' = i)
  | _ => false

/-- The routines of instruction i of entry e that have not started are taken back; a read that it shares goes on for the others (R215). -/
def dropServing (n e i : Nat) (b : Block) : Block :=
  let b := unjoin n (fun c => decide ((cw b c).e = e ∧ (cw b c).i = i)) b
  dropRoutines n (Routine.serves b e i) b

/-- Codewords leave a junction's soft arbiter, and the decoders that work on one stop (R278). -/
def dropSoft (b : Block) (j : Nat) (gone : Nat → Bool) : Block :=
  updJunc b j (fun q =>
    { q with
      soft := q.soft.filter (fun c => !gone c), dec := q.dec.filter (fun x => !gone (x.2 - 1))
      input := q.input.filter (fun x => !gone (tget 0 q.dec x.1 - 1)) })

/-- A READ whose key is lost completes INVALID_FIELD, reason 4, at offset 0, and writes no further data (R456). -/
def failRead (n e i : Nat) (b : Block) : Block :=
  let ids := (instrCws b e i).map (·.1)
  let b := dropServing n e i (dropSoft b (n / 8) (fun c => ids.contains c))
  framesFreed n (finishInvalid (dropReaders (returnPages b n e i) e i) e i 0 4)

/-- A READ's checks and host writes for a decoded codeword (R136, R268, R272, R273). -/
def deliver (b : Block) (id st : Nat) : Block :=
  let c := cw b id
  let x := (instr b c.e c.i).bytes
  let ks := (entry b c.e).key
  let format := decide (cwFormat c.out = 1) || decide (cwFormat c.out = 2)
  let res : Nat × Nat :=
    if !format ∨ cwKslot c.out ≠ ks % 4096 then (stMismatch, 1)
    else if iOpt x 4 ∧ cwHtag c.out ≠ (fieldAt x 32 8 + c.k) % 2 ^ 64 then (stMismatch, 2)
    else (st, 0)
  let ok := decide (res.1 ≠ stMismatch)
  let (found, b) := if ok then readKey b ks else (true, b)
  if !found then failRead c.lane c.e c.i b else
  let data := if !ok then zeros 4096
    else if ks = 0 then c.out.take 4096
    else xts false (keySlot b ks).key (cwHtag c.out) (c.out.take 4096)
  let sec := entrySec b c.e
  let withMeta := ok && iOpt x 0
  let b := updCw b id (fun c => { c with stage := .hostWrite, status := some res })
  let b := pushOut b c.lane (mkJob (.hostOut c.e c.i id (!withMeta)) (iAddr x + 4096 * c.k) 4096 sec data)
  if withMeta then
    pushOut b c.lane (mkJob (.hostOut c.e c.i id true) (iWord3 x + 32 * c.k) 32 sec ((c.out.drop 4096).take 32))
  else b

/-- A codeword has decoded with a corrected-bit count (R268 steps 5 and following, R270). -/
def cwDecoded (id corr : Nat) (out : List Byte) (b : Block) : Block :=
  let c := cw b id
  let warn := decide (fam16 b (dieFamily b c.lane (paDie c.pa)) 0x1E2 ≠ 0xFFFF) &&
    decide (fam16 b (dieFamily b c.lane (paDie c.pa)) 0x1E2 < corr)
  let b := if warn then rinc b (laneReg c.lane 0x258) 31 16 1 else b
  let b := updCw b id (fun c => { c with out := out, corr := corr })
  let b := if c.looked then learn b id else b
  let st := if warn then stWarn else stOk
  if iOp (instr b c.e c.i).bytes = opRead then deliver b id st else cwOutcome id st 0 b

/-- The recovery an instruction permits (R135, R164, R168). -/
def recoveryMode (x : List Byte) : Nat := if iOp x = opRead then readMode x else 0

/-- The ladder steps a codeword may take (R308). -/
def stepLimit (b : Block) (c : Cw) : Nat :=
  let f := dieFamily b c.lane (paDie c.pa)
  let x := (instr b c.e c.i).bytes
  let m := if iOp x = opReloc then 0 else byteAt x 6
  min (ladLen b f c.ladder) (if m = 0 then fam8 b f 0x1E1 else m)

/-- The routine that reads a group of codewords of one page (R210, R314). -/
def readRoutine (b : Block) (n : Nat) (ids : List Nat) : Routine :=
  let c := cw b (ids.head?.getD 0)
  let f := dieFamily b n (paDie c.pa)
  { mkRoutine b n 0 (paDie c.pa) c.e c.i (.readIssue ids) with
    charge := some (tokenCost b f (if 1 ≤ c.sense then 2 else 0))
    below := (entryClass b c.e).isNone && (entryDue b c.e).isSome }

/-- A group of codewords waits for its array read. -/
def issueRead (n : Nat) (b : Block) (ids : List Nat) : Block :=
  if ids.isEmpty then b else addTodo b n (readRoutine b n ids)

/-- The codewords that share a codeword's reads (R307): those of its page, on one plane only for a RELOCATE. -/
def pageMates (b : Block) (c : Cw) : List (Nat × Cw) :=
  let reloc := decide (iOp (instr b c.e c.i).bytes = opReloc)
  (instrCws b c.e c.i).filter (fun x => decide (paDie x.2.pa = paDie c.pa ∧ paPage x.2.pa = paPage c.pa) &&
    (!reloc || decide (paUnit x.2.pa = paUnit c.pa)))

/-- A codeword is still to be read or decoded in the present step of its page. -/
def Cw.inStep (c : Cw) : Bool :=
  match c.stage with
  | .record | .issue | .array | .transfer | .hard => true
  | _ => false

/-- The codewords of a page that failed their step go on together, once none is left in it (R307): to the next ladder step, or to a
soft read. -/
def escalate (n : Nat) (b : Block) (id : Nat) : Block :=
  let mates := pageMates b (cw b id)
  if !cwLive b id || mates.any (fun x => x.2.inStep) then b
  else
    let todo := mates.filter (fun x => decide (x.2.stage = .ladder))
    let onLadder := (todo.filter (fun x => decide (x.2.step < stepLimit b x.2))).map (·.1)
    let soft := (todo.filter (fun x => !decide (x.2.step < stepLimit b x.2))).map (·.1)
    let b := each onLadder (fun b c => updCw b c (fun x => { x with stage := .issue, step := x.step + 1, retry := x.retry + 1 })) b
    let b := each soft (fun b c => updCw b c (fun x => { x with stage := .issue, sense := 1, retry := x.retry + 1 })) b
    let b := rinc (rinc b (laneReg n 0x268) 15 0 onLadder.length) (laneReg n 0x268) 31 16 soft.length
    issueRead n (issueRead n b onLadder) soft

/-- A hard decode failed: the codeword's next step, or its end, by its MODE (R307, R309). -/
def hardFailed (id unsat : Nat) (b : Block) : Block :=
  let c := cw b id
  let b := rinc b (laneReg c.lane 0x258) 15 0 1
  let offs := cwOffsets b c
  let best := match c.best with
    | some x => if unsat < x.1 then some (unsat, offs) else some x
    | none => some (unsat, offs)
  let b := updCw b id (fun c => { c with best := best, stage := .ladder })
  let m := recoveryMode (instr b c.e c.i).bytes
  if m = 2 ∨ (m = 1 ∧ !decide (c.step < stepLimit b c)) then escalate c.lane (cwOutcome id stUncorr 1 b) id
  else escalate c.lane b id

/-- HARD_DECODE_DONE (R268, R271): the hard decoder's output for a codeword; it succeeds where every parity check holds. -/
def hardDecodeDone (n id : Nat) (out : List Byte) (unsat : Nat) (b : Block) : Block :=
  let c := cw b id
  if !cwLive b id ∨ c.lane ≠ n ∨ c.stage ≠ .hard ∨ !laneRuns b n then b
  else if ldpcValid out ∧ out.length = cwLen b (dieFamily b n (paDie c.pa)) then
    escalate n (cwDecoded id (bitDiff (randomise c.pa c.raw) out) out (updCw b id (fun c => { c with stage := .done }))) id
  else hardFailed id unsat b

/-- HARD_DECODE_DONE. -/
def execHardDecodeDone (n cw : Nat) (out : List Byte) (unsat : Nat) (s : State) : Host.Outcome State Fault Refusal :=
  s.act (hardDecodeDone n cw out unsat)

/-- The junction's queue changes (R276): JN_SOFT_STAT.PEAK follows. -/
def queueSoft (b : Block) (n id : Nat) : Block :=
  let b := updCw b id (fun c => { c with stage := .softQueued, arrival := b.order })
  let b := { b with order := b.order + 1 }
  let b := updJunc b (n / 8) (fun x => { x with soft := x.soft ++ [id] })
  rmax b (juncReg (n / 8) 0x208) 21 16 (junc b (n / 8)).soft.length

/-- A queued codeword before another (R277): due tick, arrival, lane. -/
def softBefore (b : Block) (x y : Nat) : Bool :=
  let dx := dueKey (entryDue b (cw b x).e)
  let dy := dueKey (entryDue b (cw b y).e)
  decide (dx < dy) || (decide (dx = dy) && decide ((cw b x).arrival ≤ (cw b y).arrival))

/-- The bytes in which both senses at one distance read as the centre does. -/
def senseAgrees (l : List (List Byte)) (k : Nat) : List Byte :=
  let c := l.getD 0 []
  List.zipWith3 (fun x y z => ~~~(x ^^^ y) &&& ~~~(x ^^^ z)) c (l.getD (2 * k - 1) []) (l.getD (2 * k) [])

/-- The soft input of a codeword from its seven senses (R275, R309): the reliability of a bit is the number of distances, from the
nearest on, at which both senses agree with the centre. -/
def softInput (b : Block) (c : Cw) : SoftIn :=
  let a1 := senseAgrees c.soft 1
  let a2 := List.zipWith (· &&& ·) a1 (senseAgrees c.soft 2)
  let a3 := List.zipWith (· &&& ·) a2 (senseAgrees c.soft 3)
  let w := juncReg (c.lane / 8) 0x204
  { hard := randomise c.pa (c.soft.getD 0 [])
    relLow := List.zipWith3 (fun x y z => (x ^^^ y) ||| z) a1 a2 a3
    relHigh := a2
    mags := [rfld b w 5 0, rfld b w 13 8, rfld b w 21 16, rfld b w 29 24] }

/-- SOFT_DECODE_START (R277): a free decoder takes the codeword with the earliest due tick. -/
def softDecodeStart (j d : Nat) (b : Block) : Block :=
  let q := junc b j
  match q.soft with
  | [] => b
  | y :: rest =>
    if tget 0 q.dec d ≠ 0 ∨ !running b ∨ 4 ≤ d then b
    else
      let best := rest.foldl (fun m x => if softBefore b m x then m else x) y
      let b := updJunc b j (fun q => { q with soft := q.soft.filter (· != best), dec := tput q.dec d (best + 1), input := tput q.input d (softInput b (cw b best)) })
      rinc (updCw b best (fun c => { c with stage := .softDecode })) (juncReg j 0x20C) 31 0 1

/-- SOFT_DECODE_START. -/
def execSoftDecodeStart (j d : Nat) (s : State) : Host.Outcome State Fault Refusal := s.act (softDecodeStart j d)

/-- SOFT_DECODE_DONE (R268, R269, R307): the soft decoder's output; the count is taken against the hard plane. -/
def softDecodeDone (j d : Nat) (out : List Byte) (b : Block) : Block :=
  let k := tget 0 (junc b j).dec d
  if k = 0 ∨ !running b then b
  else
    let id := k - 1
    let b := updJunc b j (fun q => { q with dec := terase q.dec d, input := terase q.input d })
    let c := cw b id
    if !cwLive b id ∨ c.stage ≠ .softDecode then b
    else if ldpcValid out ∧ out.length = cwLen b (dieFamily b c.lane (paDie c.pa)) then
      let b := rinc b (laneReg c.lane 0x25C) 15 0 1
      cwDecoded id (bitDiff (randomise c.pa (c.soft.headD [])) out) out b
    else
      let b := rinc b (laneReg c.lane 0x25C) 31 16 1
      cwOutcome id stUncorr (if recoveryMode (instr b c.e c.i).bytes = 3 then 1 else 0) b

/-- SOFT_DECODE_DONE. -/
def execSoftDecodeDone (j d : Nat) (out : List Byte) (s : State) : Host.Outcome State Fault Refusal :=
  s.act (softDecodeDone j d out)

/-- The raw bits show the erased pattern (R267). -/
def erasedPattern (b : Block) (c : Cw) (raw : List Byte) : Bool :=
  decide (zeroBits raw ≤ fam16 b (dieFamily b c.lane (paDie c.pa)) 0x1C6)

/-- The codewords of a page that are sensed together go on to their next sense once the last of them has landed (R307, R309). -/
def nextSense (n : Nat) (x : Block × List (Nat × Cw)) : Block :=
  let b := x.1
  let group := (x.2.map (·.1)).filter (fun c => cwLive b c && decide ((cw b c).stage = .softSense))
  if group.any (fun c => decide ((cw b c).soft.length < (cw b c).sense)) then b
  else issueRead n (each group (fun b c => updCw b c (fun y => { y with sense := y.sense + 1 })) b) group

/-- A codeword's bytes have landed in its frame, or, in a soft read, have been folded into its frames (R267, R268, R309). -/
def cwLanded (n : Nat) (b : Block) (y : Nat × List Byte) : Block :=
  let id := y.1
  let raw := y.2
  let c := cw b id
  if c.sense = 0 then
    let b := updCw b id (fun c => { c with raw := raw, stage := .hard })
    if c.step = 0 && erasedPattern b c raw then escalate n (cwOutcome id stErased 0 b) id else b
  else
    let b := updCw b id (fun c => { c with soft := c.soft ++ [raw] })
    let b := if c.sense = 1 && decide (recoveryMode (instr b c.e c.i).bytes = 3) && erasedPattern b c raw then cwOutcome id stErased 0 b
      else if c.sense = 7 then queueSoft b n id
      else b
    nextSense n (b, pageMates b c)

/-- The codewords of an instruction that are ready to be read are grouped by page, and their reads wait to be placed. -/
def issueReady (n : Nat) (ids : List Nat) (b : Block) : Block :=
  let heads := ids.filter (fun c => ((pageMates b (cw b c)).find? (fun x => ids.contains x.1)).map (·.1) = some c)
  heads.foldl (fun b c =>
    let mine := ((pageMates b (cw b c)).filter (fun x => ids.contains x.1)).map (·.1)
    if (pageMates b (cw b c)).any (fun x => decide (x.2.stage = .record)) then b else issueRead n b mine) b

/-- The codewords that an instruction reads from pages in layout order (R125): their PAs. -/
def readTargets (n : Nat) (x : List Byte) : List Nat :=
  if iOp x = opReloc then relocSrcs x
  else (readPages x).flatMap (fun p => (List.range (iCount x)).map (fun k =>
    mkPa n p.1 p.2.1 p.2.2 (paSlot (iPa x) + k)))

/-- The number of a unit of a lane among its records. -/
def recKey (pa : Nat) : Nat := 65536 * paDie pa + paUnit pa

/-- A codeword with its unit's record, VALID or not (R298). -/
def Cw.withRecord (c : Cw) (r : Option (Nat × Word)) : Cw :=
  { c with stage := .issue, recOk := r.isSome, pband := (r.map (·.1)).getD 0, pepoch := (r.map (·.2)).getD 0xFFFFFFFF }

/-- A unit's record has been fetched (R298): the read keeps it, and the codewords that waited for it go on. -/
def recordFetched (n e i key : Nat) (j : Job) (b : Block) : Block :=
  let b := if j.bad then rinc b (laneReg n 0x264) 15 8 1 else b
  if !(b.entries.any (fun x => decide (x.1 = e)) && (instr b e i).isOpen) then b
  else
    let r := if j.bad then none else recordOf 0 j.bytes
    let b := updInstr b e i (fun x => { x with recs := x.recs ++ [(key, r)] })
    let mine := (instrCws b e i).filter (fun x => decide (x.2.stage = .record ∧ recKey x.2.pa = key))
    let b := each mine (fun b x => updCw b x.1 (fun c => c.withRecord r)) b
    let pages := mine.map (fun x => (paDie x.2.pa, paPage x.2.pa))
    let ready := (instrCws b e i).filter (fun x => decide (x.2.stage = .issue) && pages.contains (paDie x.2.pa, paPage x.2.pa))
    issueReady n (ready.map (·.1)) b

/-- The units that a read's targets lie in, each once. -/
def readKeys (n : Nat) (x : List Byte) : List Nat := ((readTargets n x).map recKey).dedup

/-- A read is pooled (R298): the records of its units are fetched. -/
def fetchRecords (n e i : Nat) (b : Block) : Block :=
  if (instr b e i).phase ≠ .pooled then b
  else
    each ((readKeys n (instr b e i).bytes).filter (fun k => (recordAddr b n (k / 65536) (k % 65536)).isSome))
      (fun b k => pushIn b n (mkJob (.recordFetch e i k) 0 8 true [])) b

/-- A codeword read from staging has come back (R287): its parity checks decide. -/
def stagingReadDone (n id : Nat) (j : Job) (b : Block) : Block :=
  let c := cw b id
  let out := randomise c.pa j.bytes
  if c.stage = .staged then readBack n id j.bytes j.bad b
  else if c.stage ≠ .stagingRead then b
  else if j.bad then cwOutcome id stDma 6 (rinc b (laneReg n 0x250) 31 28 1)
  else if !ldpcValid out then cwOutcome id stDma 6 (rinc b (laneReg n 0x250) 27 24 1)
  else
    let b := updCw b id (fun c => { c with out := out })
    if iOp (instr b c.e c.i).bytes = opRead then deliver b id stOk else cwOutcome id stOk 0 b

/-- The host data of codeword c of a program has arrived, or failed (R130, R142, R162, R163). -/
def hostInDone (n e i c : Nat) (j : Job) (b : Block) : Block :=
  let r := instr b e i
  if r.phase ≠ .active then b
  else if j.bad then failProg b n e i stDma 3 0
  else if iOp r.bytes = opReloc then
    if cwFormat j.bytes = 1 ∨ cwFormat j.bytes = 2 then encodeCw n b c (relocInfo b n (cw b c).pa j.bytes)
    else failProg b n e i stInvalid 16 (invalidAux 6 (i + 1))
  else hostData b n e i c j.bytes

/-- A host write of a codeword's data, metadata, report or record has ended (R130, R174). -/
def hostOutDone (id : Nat) (last bad : Bool) (b : Block) : Block :=
  let c := cw b id
  if c.stage ≠ .hostWrite then b
  else
    let b := if bad then updCw b id (fun c => { c with status := some (stDma, 4) }) else b
    if last then readCheck c.lane c.e c.i (updCw b id (fun c => { c with stage := .done })) else b

/-- One codeword of a read begins (R138, R222, R287, R298): ERASE_PENDING, from the staged page, or from the die, once its unit's record
has been fetched. -/
def startCw (n e i : Nat) (b : Block) (y : Nat × Nat) : Block :=
  let a := y.1
  let d := paDie a
  let u := paUnit a
  let (id, b) := newId b
  let r := instr b e i
  let base : Cw :=
    { Cw.none with
      lane := n, e := e, i := i, k := y.2, pa := a, stage := .issue, rband := r.band, due := entryDue b e, pepoch := 0xFFFFFFFF }
  let put (c : Cw) (b : Block) : Block := { b with cws := tput b.cws id c }
  if erasePending b n e i d u then put { base with stage := .done, status := some (stErasePending, 0) } b
  else
    match (stPage b n d u (paPage a)).filter (fun p => p.staged) with
    | some p =>
      let s := cw b (p.cws.getD (paSlot a) 0)
      pushIn (put { base with stage := .stagingQueued, slot := s.slot } b) n
        (mkJob (.stageRead id) (slotAddr b n s.slot) (cwLen b (dieFamily b n d)) true [])
    | none =>
      let c := { base with sense := ofBool (decide (recoveryMode r.bytes = 3)) }
      match r.recs.find? (fun z => decide (z.1 = recKey a)) with
      | some z => put (c.withRecord z.2) b
      | none =>
        if (lane b n).inJobs.any (fun j => decide (j.use = .recordFetch e i (recKey a))) then put { c with stage := .record } b
        else put c b

/-- A read instruction's codewords begin (R138, R164, R298); a soft read of its own counts at once (R310). -/
def startReads (n e i : Nat) (b : Block) : Block :=
  let x := (instr b e i).bytes
  let b := (readTargets n x).zipIdx.foldl (startCw n e i) (setPhase b e i .active)
  let l := instrCws b e i
  let soft := (l.filter (fun y => decide (y.2.sense = 1))).length
  let b := if 0 < soft then rinc b (laneReg n 0x268) 31 16 soft else b
  let b := issueReady n ((l.filter (fun y => decide (y.2.stage = .issue))).map (·.1)) b
  let doneNow := (l.filter (fun y => decide (y.2.stage = .done))).map (·.1)
  let b := if iOp x = opSample ∧ iOpt x 1 then each doneNow (fun b c => cwOutcome c stErasePending 0 b) b else b
  readCheck n e i b

/-- Reading a page ended by its second expiry (R241): its codewords are UNCORRECTABLE. -/
def readsExpired (n : Nat) (ids : List Nat) (b : Block) : Block :=
  each (ids.filter (cwLive b)) (fun b c => escalate n (cwOutcome c stUncorr 0 b) c) b

end Sys2Proof.Machine
end

