-- ==== Sys2Proof/Machine/Control.lean ====
section
/-! DEFINITION. Taking up the instructions of a lane (R128, R172, R222, R229, R243, R285): the data instructions, and FENCE, WAIT,
SIGNAL, FEATURE.GET, FEATURE.SET, DIE.STATUS, TRAIN, RAW and NOP (R175 to R193). -/

namespace Sys2Proof.Machine

open Sys2Proof

/-- The offset of the PA by which an instruction names a die; 0 where it carries none (R229, R243). -/
def dieOffset (x : List Byte) : Nat := if hasPa x ∨ (iOp x = opReloc ∧ !places x) ∨ (iOp x = opReloc ∧ relocMode x = 0) then paOffset x else 0

/-- The dies that an instruction names, with the offsets of their PAs. -/
def namedDies (b : Block) (e i : Nat) : List (Nat × Nat) :=
  let x := (instr b e i).bytes
  if iOp x = opTrain ∧ iOpt x 0 then []
  else if iOp x = opReloc then
    (match destPa b e i with
      | some a => [(paDie a, 8)]
      | none => []) ++ (relocSrcs x).zipIdx.map (fun s => (paDie s.1, 32 + 8 * s.2))
  else if hasPa x then [(paDie (iPa x), 8)]
  else match destPa b e i with
    | some a => [(paDie a, 0)]
    | none => []

/-- Every page that an instruction reads is held in staging, and it does nothing else to a die (R243). -/
def allStaged (b : Block) (n e i : Nat) : Bool :=
  let x := (instr b e i).bytes
  !(readPages x).isEmpty && (readPages x).all (fun p => pageStaged b n p.1 p.2.1 p.2.2) && (progPages b e i).isEmpty

/-- The offset of the first die an instruction names that is offline (R243). -/
def offlineAt (b : Block) (n e i : Nat) : Option Nat :=
  if allStaged b n e i then none
  else
    let dies := (namedDies b e i).filter (fun y => !decide (y.2 ≥ 32) ||
      !((readPages (instr b e i).bytes).all (fun p => decide (p.1 ≠ y.1) || pageStaged b n p.1 p.2.1 p.2.2)))
    (dies.find? (fun y => dieOffline b n y.1)).map (·.2)

/-- The dies that an instruction works on: those it names, and for a TRAIN with ALL every die of the die map (R188). -/
def workDies (b : Block) (n e i : Nat) : List Nat :=
  let x := (instr b e i).bytes
  if iOp x = opTrain ∧ iOpt x 0 then validDies b n else (namedDies b e i).map (·.1)

/-- An earlier-pooled FEATURE.SET of a die has not finished (R185). -/
def featBarred (b : Block) (n e i : Nat) : Bool :=
  let dies := workDies b n e i
  (earlierOf b n e i).any (fun y =>
    let x := (instr b y.1 y.2).bytes
    decide (iOp x = opFeatSet) && dies.contains (paDie (iPa x)))

/-- An instruction that stood in phase `was` has been taken up: one just pooled has the running frame topped up (R204, R217). -/
def pooledTopUp (n : Nat) (was : Phase) (b : Block) : Block := if was = .pooled then topUp n b else b

/-- Lane n takes up instruction i of entry e, of the named opcode (R229, R128, R243): a failed start, an operand failure or an
offline die completes it; on a lane not yet started it waits unchecked. As it is pooled the running frame is topped up (R204, R217). -/
def takeInstr (n e i op : Nat) (f : Block → Block) (b : Block) : Block :=
  if !takeUp b n e i op then b
  else
    let x := (instr b e i).bytes
    if startFailed b n then finishInvalid b e i (dieOffset x) 4
    else if !laneStarted b n then b
    else
      let q := sq b (entry b e).sq
      match operandFail b n x (pavSec b q.owner) q.service with
      | some z =>
        let b := if places x then
            match (instr b e i).place with
            | some _ => unplace b n e i
            | none => b
          else b
        finishInvalid b e i z.1 z.2
      | none =>
        match offlineAt b n e i with
        | some o => finishInvalid (unplace b n e i) e i o 4
        | none => pooledTopUp n (instr b e i).phase (f b)

/-- An instruction waits (R222). -/
def waits (b : Block) (e i : Nat) : Block := setPhase b e i .waiting

/-- A read's sources must wait: a page of a unit without a pending ERASE is still being written (R222), or a FEATURE.SET is due. -/
def readWaits (b : Block) (n e i : Nat) : Bool :=
  featBarred b n e i || (readPages (instr b e i).bytes).any (fun p =>
    !erasePending b n e i p.1 p.2.1 && beingWritten b n e i p.1 p.2.1 p.2.2)

/-- READ and SAMPLE (R133 to R139, R167, R222). -/
def readStart (n e i op : Nat) (b : Block) : Block :=
  takeInstr n e i op (fun b =>
    let b := fetchRecords n e i b
    if readWaits b n e i then waits b e i else startReads n e i b) b

/-- READ. -/
def execRead (n e i : Nat) (s : State) : Host.Outcome State Fault Refusal := s.act (readStart n e i opRead)
/-- SAMPLE. -/
def execSample (n e i : Nat) (s : State) : Host.Outcome State Fault Refusal := s.act (readStart n e i opSample)

/-- The time in ns until a die is free, by the typical times of what it runs and what is placed on it and has not had its confirm
(R214). -/
def dieFreeNs (b : Block) (n d : Nat) : Nat :=
  let f := dieFamily b n d
  let t := rfld b 0x200 5 0 * 1000
  let run := match (die b n d).op with
    | some o => if o.ready then 0 else typicalNs b f o - opElapsed b o * t
    | none => 0
  let held := match (die b n d).susp with
    | some o => typicalNs b f o - o.ran * t
    | none => 0
  let begun : List Routine := match (lane b n).seq with
    | some q => if q.confirmed then [] else [q.routine]
    | none => []
  let placed := ((begun ++ (lane b n).frame ++ (lane b n).next).filter (fun r => decide (r.die = d))).map (fun r => match r.purpose with
    | .pass _ _ _ _ num => tPass b f num
    | .eraseIssue .. => fam32 b f 0x158
    | .readIssue _ => purposeReadNs b f r.purpose
    | .verifyIssue .. => fam32 b f 0x140
    | _ => 0)
  run + held + placed.foldl (· + ·) 0

/-- The placement of an APPEND, or of a RELOCATE with PLACE, in the stripe as it was routed in (R116, R152, R153): the page, or the status it ends with, or
that it waits for a member. -/
def choosePage (b : Block) (n st opening : Nat) : Option Member ⊕ Nat × Nat :=
  let s := stripe b st
  let open_ := (s.isOpen || (lane b n).closes.contains st) && decide (s.opening = opening)
  let mine := s.members.filter (fun m => decide (m.lane = n) && m.hasPage)
  let free := mine.filter (fun m => !m.taken && !decide (m.next = m.last + 1))
  let better (x y : Member) : Bool :=
    let tx := dieFreeNs b n x.die
    let ty := dieFreeNs b n y.die
    decide (tx < ty) || (decide (tx = ty) && (decide (x.die < y.die) || (decide (x.die = y.die) && decide (x.unit < y.unit))))
  if !open_ then .inr (stStripeClosed, 1)
  else if mine.isEmpty then .inr (stStripeFull, 0)
  else .inl (free.foldl (fun m x => match m with
    | none => some x
    | some y => if better x y then some x else some y) none)

/-- A program waits for an operation of its die that is suspended, and that has waited goes on waiting until it has finished
(R147, R222). -/
def suspWaits (b : Block) (n e i d : Nat) : Bool :=
  (die b n d).susp.isSome || (decide ((instr b e i).phase = .waiting) && (match (die b n d).op with
    | some o => decide (o.kind ≠ .read) && decide (0 < o.susps)
    | none => false))

/-- The checks of a program in the order of R285, once its page is known, and its start. -/
def progDecide (n e i : Nat) (b : Block) : Block :=
  let x := (instr b e i).bytes
  let pages := progPages b e i
  let f := dieFamily b n ((pages.head?.map (·.1)).getD 0)
  let a := (destPa b e i).getD 0
  let stop (st det : Nat) (aux : Word64) : Block := finishAux (unplace b n e i) e i st det aux
  let known (y : Nat × Nat × Nat) : Bool := (openUnit b n y.1 y.2.1).isSome
  let fresh := (pages.filter (fun y => !known y)).length
  if pages.any (fun y => (stPage b n y.1 y.2.1 y.2.2).isSome || beingWritten b n e i y.1 y.2.1 y.2.2) then stop stPageBusy 0 0
  else if pages.any (fun y => erasePending b n e i y.1 y.2.1) then waits b e i
  else if pages.any (fun y => (instr b e i).badUnits.contains (y.1, y.2.1)) then stop stEraseFailed 0x10 0
  else if pages.any (fun y => suspWaits b n e i y.1) || readWaits b n e i then waits b e i
  else if pages.any (fun y => ((openUnit b n y.1 y.2.1).map (·.failed)).getD false) then
    stop stProgFailed 3 (BitVec.ofNat 64 a)
  else if pages.any (fun y => ((openUnit b n y.1 y.2.1).map (fun o => decide (o.next ≠ y.2.2))).getD false) then
    stop stInvalid 8 (invalidAux 4 (i + 1))
  else if 1 < passesOf b f ∧ 128 < openCount b n + fresh then stop stNoResource 2 0
  else
    match reserveStaging b n e i with
    | none => rinc (stop stNoResource 3 0) (laneReg n 0x250) 23 16 1
    | some b =>
      let b := setPhase b e i .active
      if iOp x = opReloc ∧ relocMode x = 0 then startReads n e i b
      else
        let len := if iOp x = opReloc then 4160 else 4096
        let data := (destCws b n e i).filter (fun c => decide ((cw b c).k < cppOf b f * pages.length))
        each data (fun b c => pushIn b n (mkJob (.hostIn e i c) (iAddr x + len * (cw b c).k) len (entrySec b e) [])) b

/-- A placing instruction gets its page (R152, R162), and is then decided like a PROG of it. -/
def placeDecide (n e i : Nat) (b : Block) : Block :=
  let r := instr b e i
  if !places r.bytes ∨ r.place.isSome then progDecide n e i b
  else
    let st := iStripe r.bytes
    match choosePage b n st r.opening with
    | .inr z => finishInstr b e i z.1 z.2
    | .inl none => waits b e i
    | .inl (some m) =>
      let b := updMember b st m (fun x => { x with taken := true })
      let b := updInstr b e i (fun r => { r with place := some m })
      if iOp r.bytes = opReloc ∧ iCount r.bytes ≠ cppOf b (dieFamily b n m.die) then finishInvalid (unplace b n e i) e i 3 6
      else match offlineAt b n e i with
        | some o => finishInvalid (unplace b n e i) e i o 4
        | none => progDecide n e i b

/-- PROG and APPEND (R140 to R154, R285). -/
def progStart (n e i op : Nat) (b : Block) : Block :=
  takeInstr n e i op (fun b => if featBarred b n e i then waits b e i else placeDecide n e i b) b

/-- PROG. -/
def execProg (n e i : Nat) (s : State) : Host.Outcome State Fault Refusal := s.act (progStart n e i opProg)
/-- APPEND. -/
def execAppend (n e i : Nat) (s : State) : Host.Outcome State Fault Refusal := s.act (progStart n e i opAppend)

/-- RELOCATE (R161 to R166): mode 1 only reads; the others settle their destination first. -/
def relocStart (n e i : Nat) (b : Block) : Block :=
  takeInstr n e i opReloc (fun b =>
    let b := fetchRecords n e i b
    if featBarred b n e i then waits b e i
    else if relocMode (instr b e i).bytes = 1 then (if readWaits b n e i then waits b e i else startReads n e i b)
    else placeDecide n e i b) b

/-- RELOCATE. -/
def execRelocate (n e i : Nat) (s : State) : Host.Outcome State Fault Refusal := s.act (relocStart n e i)

/-- ERASE (R155, R156): at pooling it releases its units; it waits for earlier work on them; then its routine waits to be placed. -/
def eraseStart (n e i : Nat) (b : Block) : Block :=
  takeInstr n e i opErase (fun b =>
    let us := eraseUnits (instr b e i).bytes
    let b := if (instr b e i).phase = .pooled then erasePooled b n e i else b
    let busy := (earlierOf b n e i).any (fun y => (namedUnits b y.1 y.2).any (fun u => us.contains u))
    if busy || featBarred b n e i then waits b e i
    else addTodo (setPhase b e i .active) n (eraseRoutine b n e i)) b

/-- ERASE. -/
def execErase (n e i : Nat) (s : State) : Host.Outcome State Fault Refusal := s.act (eraseStart n e i)

/-- The page after one in an ERASE.VERIFY's set, none after the last (R159). -/
def nextVerify (b : Block) (f : Nat) (x : List Byte) (p : Nat) : Option Nat :=
  let last := pagesOf b f - 1
  let q := if iOpt x 0 then p + 1 else p + max 1 (fam16 b f 0x1C0)
  if p = last then none else if q ≤ last then some q else some last

/-- The read of a page by ERASE.VERIFY (R159): one array read at the erase-verify offsets. -/
def verifyRead (n e i page : Nat) (b : Block) : Block :=
  let a := iPa (instr b e i).bytes
  let d := paDie a
  let f := dieFamily b n d
  addTodo b n { mkRoutine b n 0 d e i (.verifyIssue e i page) with
    row := BitVec.ofNat 32 (rowAddress b f (dieLun b n d) (paUnit a) page), mask := 2 ^ (paUnit a % 8)
    charge := some (tokenCost b f 0), below := (entryClass b e).isNone && (entryDue b e).isSome }

/-- A page of an ERASE.VERIFY has its count (R159): AUX holds the highest, its lowest page, and the pages sampled. Counts are compared
as AUX shows them, saturated, so of two above 65,535 the lower page is shown (log entry 94, DEDUCED). -/
def verifyCounted (n e i page count : Nat) (b : Block) : Block :=
  let r := instr b e i
  let x := r.bytes
  let f := dieFamily b n (paDie (iPa x))
  if r.phase ≠ .active then b
  else
    let a := r.aux.toNat
    let c := min count 65535
    let high := max (a % 65536) c
    let pg := if a % 65536 < c then page else a / 65536 % 65536
    let aux := BitVec.ofNat 64 (high + pg * 2 ^ 16 + (a / 2 ^ 32 % 65536 + 1) * 2 ^ 32)
    let b := updInstr b e i (fun r => { r with aux := aux, left := 0 })
    match nextVerify b f x page with
    | some q => verifyRead n e i q b
    | none =>
      if high ≤ fam16 b f 0x1C2 then finishInstr b e i stOk 0
      else finishInstr b e i stEraseIncomplete (if high < fam16 b f 0x1C4 then 1 else 2)

/-- ERASE.VERIFY (R158, R159, R222). -/
def verifyStart (n e i : Nat) (b : Block) : Block :=
  takeInstr n e i opVerify (fun b =>
    let a := iPa (instr b e i).bytes
    let d := paDie a
    let u := paUnit a
    if erasePending b n e i d u then finishInstr b e i stErasePending 0
    else if featBarred b n e i ||
        (earlierOf b n e i).any (fun y => (progPages b y.1 y.2).any (fun p => decide (p.1 = d ∧ p.2.1 = u) && !pageStaged b n d u p.2.2)) then
      waits b e i
    else if (lane b n).pages.any (fun p => decide (p.die = d ∧ p.unit = u) && p.staged) then finishInstr b e i stEraseIncomplete 2
    else verifyRead n e i 0 (setPhase b e i .active)) b

/-- ERASE.VERIFY. -/
def execEraseVerify (n e i : Nat) (s : State) : Host.Outcome State Fault Refusal := s.act (verifyStart n e i)

/-- Every instruction of an entry from index j on completes ABORTED without issuing anything (R176, R180); an APPEND that has not been
placed returns its reservation (R154). -/
def abortRest (n e j : Nat) (b : Block) : Block :=
  abortFrom (each (unfinishedFrom b e j) (fun b i =>
    let r := instr b e i
    if places r.bytes ∧ r.place.isNone ∧ (formFail r.bytes).isNone then giveBackFor b r n else b) b) e j

/-- FENCE (R175, R176): it waits for every instruction before it; with STOPFAIL an earlier failure aborts what follows. -/
def fenceStart (n e i : Nat) (b : Block) : Block :=
  takeInstr n e i opFence (fun b =>
    let l := (entry b e).instrs
    if !earlierDone l i then waits b e i
    else if iOpt (instr b e i).bytes 0 && earlierFailed l i then abortRest n e (i + 1) (setStatus b e i stOk 0)
    else finishInstr b e i stOk 0) b

/-- FENCE. -/
def execFence (n e i : Nat) (s : State) : Host.Outcome State Fault Refusal := s.act (fenceStart n e i)

/-- A WAIT is satisfied (R179). -/
def waitMet (b : Block) (n e i : Nat) : Bool :=
  decide ((waymark b n (waymarkOf b e i) - BitVec.ofNat 32 (fieldAt (instr b e i).bytes 8 4)).toNat < 2 ^ 31)

/-- A WAIT is tested (R179). -/
def waitTest (n e i : Nat) (b : Block) : Block :=
  if waitMet b n e i then finishAux b e i stOk 0 (waymarkAux (waymark b n (waymarkOf b e i))) else waits b e i

/-- The waiting WAITs of a lane on a waymark, in pool order. -/
def waitersOn (b : Block) (n k : Nat) : List (Nat × Nat) :=
  (lane b n).pool.flatMap (fun e => (List.range (entry b e).instrs.length).filterMap (fun i =>
    if (instr b e i).phase = .waiting ∧ iOp (instr b e i).bytes = opWait ∧ waymarkOf b e i = k then some (e, i) else none))

/-- A waymark takes a value: the lane wakes (R212) and the WAITs on it are tested again (R179, R182). -/
def setWaymark (n k : Nat) (v : Word) (b : Block) : Block :=
  let b := wakeLane (updLane b n (fun l => { l with waymarks := tset 0 l.waymarks k v })) n
  each (waitersOn b n k) (fun b y => if (instr b y.1 y.2).phase = .waiting then waitTest n y.1 y.2 b else b) b

/-- WAIT (R178 to R180). -/
def waitStart (n e i : Nat) (b : Block) : Block := takeInstr n e i opWait (waitTest n e i) b

/-- WAIT. -/
def execWait (n e i : Nat) (s : State) : Host.Outcome State Fault Refusal := s.act (waitStart n e i)

/-- WAIT_TIMEOUT (R180): TIMEOUT ticks after it was pooled an unsatisfied WAIT completes ABORTED 0x01, and what follows it ABORTED. -/
def waitTimeout (n e i : Nat) (b : Block) : Block :=
  let r := instr b e i
  let t := fieldAt r.bytes 12 2
  if !laneRuns b n ∨ (entry b e).lane ≠ some n ∨ r.phase ≠ .waiting ∨ iOp r.bytes ≠ opWait ∨ t = 0 ∨ now b < r.started + t then b
  else
    let aux := waymarkAux (waymark b n (waymarkOf b e i))
    let b := rinc b (laneReg n 0xE8) 23 16 1
    abortRest n e (i + 1) (setStatus (updInstr b e i (fun r => { r with aux := aux })) e i stAborted 1)

/-- WAIT_TIMEOUT. -/
def execWaitTimeout (n e i : Nat) (s : State) : Host.Outcome State Fault Refusal := s.act (waitTimeout n e i)

/-- SIGNAL (R181): after every earlier instruction it adds to its waymark; with ONOK an earlier failure aborts it. -/
def signalStart (n e i : Nat) (b : Block) : Block :=
  takeInstr n e i opSignal (fun b =>
    let l := (entry b e).instrs
    let x := (instr b e i).bytes
    if !earlierDone l i then waits b e i
    else if iOpt x 0 && earlierFailed l i then finishInstr b e i stAborted 0
    else
      let k := waymarkOf b e i
      let v := waymark b n k + BitVec.ofNat 32 (byteAt x 5)
      setWaymark n k v (finishAux b e i stOk 0 (waymarkAux v))) b

/-- SIGNAL. -/
def execSignal (n e i : Nat) (s : State) : Host.Outcome State Fault Refusal := s.act (signalStart n e i)

/-- WAYMARK_WRITE (R182): the selected waymark takes the value written. -/
def waymarkWrite (n : Nat) (v : Word) (b : Block) : Block :=
  setWaymark n (rfld b (laneReg n 0xE0) 7 0) v b

/-- WAYMARK_WRITE. -/
def execWaymarkWrite (n : Nat) (v : Word) (sec : Bool) (s : State) : Host.Outcome State Fault Refusal :=
  (regWrite4 s (laneReg n 0xE4) sec (waymarkWrite n v)).settled

/-- A feature routine (R183, R318): a GET, which a SET has directly after its own entry (R186). -/
def featureRoutine (b : Block) (n e i : Nat) (set : Bool) : Routine :=
  let x := (instr b e i).bytes
  let a := byteAt x 3 + 256 * ofBool (iOpt x 0)
  { mkRoutine b n 9 (paDie (iPa x)) e i (if set then .featSet e i else .featGet e i) with
    feats := if set then [(a, BitVec.ofNat 32 (fieldAt x 16 4))] else []
    m14 := BitVec.ofNat 32 a }

/-- FEATURE.GET and FEATURE.SET (R183 to R186): the routine waits for its die; a FEATURE.SET brings about a resume (R220). -/
def featureStart (n e i op : Nat) (set : Bool) (b : Block) : Block :=
  takeInstr n e i op (fun b =>
    if featBarred b n e i then waits b e i
    else
      let b := addTodo (setPhase b e i .active) n (featureRoutine b n e i set)
      if set then resumeCheck n (paDie (iPa (instr b e i).bytes)) b else b) b

/-- FEATURE_GET. -/
def execFeatureGet (n e i : Nat) (s : State) : Host.Outcome State Fault Refusal := s.act (featureStart n e i opFeatGet false)
/-- FEATURE_SET. -/
def execFeatureSet (n e i : Nat) (s : State) : Host.Outcome State Fault Refusal := s.act (featureStart n e i opFeatSet true)

/-- DIE.STATUS (R187): a status read that waits for nothing. -/
def dieStatusStart (n e i : Nat) (b : Block) : Block :=
  takeInstr n e i opDieStatus (fun b =>
    addTodo (setPhase b e i .active) n (mkRoutine b n 10 (paDie (iPa (instr b e i).bytes)) e i (.status e i))) b

/-- DIE_STATUS. -/
def execDieStatus (n e i : Nat) (s : State) : Host.Outcome State Fault Refusal := s.act (dieStatusStart n e i)

/-- The dies a TRAIN trains, in increasing order (R188, R189). -/
def trainDies (b : Block) (n : Nat) (x : List Byte) : List Nat := if iOpt x 0 then validDies b n else [paDie (iPa x)]

/-- A die can be trained: it is in service and not offline (R245, R243). -/
def trainable (b : Block) (n d : Nat) : Bool := dieInService b n d && !dieOffline b n d

/-- Byte k of the AUX of a TRAIN's results, from 0 for completion byte 24 (R189). -/
def trainByte (a : Word64) (k : Nat) : Nat := a.toNat / 2 ^ (8 * k) % 256

/-- A die of a TRAIN has an outcome (R189): the counts, the narrowest eye, and the first failure. `left` says that an eye has been
found. -/
def trainNote (e i d : Nat) (ok : Bool) (windows : List (Nat × Nat)) (b : Block) : Block :=
  let r := instr b e i
  let f := trainByte r.aux
  let cur : Option (Nat × Nat × Nat) := if r.left = 0 then none else some (f 2, f 3, f 4)
  let low := windows.zipIdx.foldl (fun m w => match m with
    | some x => if w.1.2 < x.1 then some (min 255 w.1.2, w.2 % 9, d) else m
    | none => some (min 255 w.1.2, w.2 % 9, d)) cur
  let z := low.getD (0, 0, 0)
  let firstBad := if f 5 = 0xFF ∧ !ok then d else f 5
  let aux := BitVec.ofNat 64 (min 255 (f 0 + ofBool ok) + min 255 (f 1 + ofBool (!ok)) * 2 ^ 8 + z.1 * 2 ^ 16 + z.2.1 * 2 ^ 24 +
    z.2.2 * 2 ^ 32 + firstBad * 2 ^ 40)
  updInstr b e i (fun r => { r with aux := aux, left := ofBool low.isSome })

/-- A TRAIN ends (R189). Where no eye was found the spec gives no narrowest one: a free value (log entry 86, DESIGN CHOICE). -/
def trainOver (b : Block) (e i : Nat) : Block :=
  let b := if (instr b e i).left ≠ 0 then b
    else
      let (v, b) := freeOf 24 b
      updInstr b e i (fun r => { r with aux := r.aux ||| (BitVec.ofNat 64 (v.toNat * 2 ^ 16)) })
  if trainByte (instr b e i).aux 1 = 0 then finishInstr b e i stOk 0 else finishInstr b e i stAborted 3

/-- A TRAIN goes on to the first die of a list that can be trained; one that cannot answer counts as failed (R189; log entry 87,
DEDUCED). -/
def trainSeek (n e i : Nat) : List Nat → Block → Block
  | [], b => trainOver b e i
  | d :: l, b =>
    if trainable b n d then resumeCheck n d (updInstr b e i (fun r => { r with place := some ⟨n, d, 0, 0, 0, false⟩ }))
    else trainSeek n e i l (trainNote e i d false [] b)

/-- The die of a TRAIN has its outcome: the TRAIN goes on to the next die, or ends (R189). -/
def trainNext (n d : Nat) (ok : Bool) (windows : List (Nat × Nat)) (b : Block) : Block :=
  match trainInstr b n d with
  | none => b
  | some (e, i) =>
    let b := trainNote e i d ok windows b
    trainSeek n e i ((trainDies b n (instr b e i).bytes).filter (fun x => decide (d < x))) b

/-- TRAIN (R188, R189): its dies are trained one at a time, each by DIE_TRAIN; AUX starts with no eye and no failure. -/
def trainStart (n e i : Nat) (b : Block) : Block :=
  takeInstr n e i opTrain (fun b =>
    if featBarred b n e i then waits b e i
    else
      let b := updInstr (setPhase b e i .active) e i (fun r => { r with aux := BitVec.ofNat 64 (0xFF * 2 ^ 40), left := 0 })
      if iOpt (instr b e i).bytes 0 then trainSeek n e i (trainDies b n (instr b e i).bytes) b
      else
        let d := paDie (iPa (instr b e i).bytes)
        resumeCheck n d (updInstr b e i (fun r => { r with place := some ⟨n, d, 0, 0, 0, false⟩ }))) b

/-- TRAIN. -/
def execTrain (n e i : Nat) (s : State) : Host.Outcome State Fault Refusal := s.act (trainStart n e i)

/-- TYPE and VALUE of cycle record k of a RAW (R190). -/
def rawRec (x : List Byte) (k : Nat) : Nat × Nat := (byteAt x (32 + 2 * k), byteAt x (33 + 2 * k))

/-- The offset within BUF of record k's data: that of the data cycles before it (R191). -/
def rawOffset (x : List Byte) (k : Nat) : Nat :=
  ((List.range k).map (fun j => if (rawRec x j).1 = 3 ∨ (rawRec x j).1 = 4 then 64 * (rawRec x j).2 else 0)).foldl (· + ·) 0

/-- The token cost of a RAW (R191; log entry 32, DESIGN CHOICE): the program cost in proportion to its die time over the typical program time. -/
def rawCost (b : Block) (f : Nat) (x : List Byte) : Nat :=
  let ns := ((List.range (iCount x)).map (fun k =>
    let r := rawRec x k
    if r.1 = 6 then 100 * r.2 else if r.1 = 5 then fam32 b f 0x140 else 0)).foldl (· + ·) 0
  let t := max 1 (tPass b f 1)
  (tokenCost b f 3 * ns + t - 1) / t

/-- The routine of record k of a RAW (R318 kind 19). -/
def rawRoutine (b : Block) (n e i k : Nat) : Routine :=
  let x := (instr b e i).bytes
  let d := paDie (iPa x)
  let r := rawRec x k
  { mkRoutine b n 19 d e i (.rawCycle e i k) with
    bytes := BitVec.ofNat 32 (if r.1 = 3 ∨ r.1 = 4 then 64 * r.2 else 0)
    m14 := BitVec.ofNat 32 (r.1 * 256 + r.2)
    charge := if k = 0 then some (rawCost b (dieFamily b n d) x) else none }

/-- The data of a RAW's DWRITE is forgotten. -/
def dropRawData (b : Block) (e i : Nat) : Block :=
  { b with cws := b.cws.filter (fun x => !decide (x.2.e = e ∧ x.2.i = i ∧ x.2.stage = .encode)) }

/-- A RAW no longer holds its die. -/
def endRaw (b : Block) (n d e i : Nat) : Block := updDie (dropRawData b e i) n d (fun y => { y with raw := false })

/-- Record k of a RAW: a DWRITE first fetches its data; any other is ready to be placed, a later one at once, as the lane keeps the die's
chip enable (R191); after the last the RAW is done. -/
def rawStep (n e i k : Nat) (b : Block) : Block :=
  let x := (instr b e i).bytes
  let d := paDie (iPa x)
  let b := updInstr b e i (fun r => { r with left := k })
  if iCount x ≤ k then finishInstr (endRaw b n d e i) e i stOk 0
  else if (rawRec x k).1 = 3 then
    pushIn b n (mkJob (.rawIn e i) (iAddr x + rawOffset x k) (64 * (rawRec x k).2) (entrySec b e) [])
  else if k = 0 then addTodo b n (rawRoutine b n e i k) else topUpOne n (rawRoutine b n e i k) b

/-- The data of a DWRITE has arrived, or failed (R192). -/
def rawInDone (n e i : Nat) (j : Job) (b : Block) : Block :=
  let r := instr b e i
  if r.phase ≠ .active then b
  else if j.bad then
    finishInstr (endRaw b n (paDie (iPa r.bytes)) e i) e i stDma 3
  else
    let (id, b) := newId b
    let c : Cw := { Cw.none with lane := n, e := e, i := i, k := r.left, stage := .encode, raw := j.bytes }
    topUpOne n (rawRoutine b n e i r.left) { b with cws := tput b.cws id c }

/-- The host write of a DREAD has ended (R192). -/
def rawOutDone (n e i : Nat) (bad : Bool) (b : Block) : Block :=
  let r := instr b e i
  if r.phase ≠ .active then b
  else if bad then finishInstr (endRaw b n (paDie (iPa r.bytes)) e i) e i stDma 4
  else rawStep n e i (r.left + 1) b

/-- RAW (R190 to R192). -/
def rawStart (n e i : Nat) (b : Block) : Block :=
  takeInstr n e i opRaw (fun b =>
    let d := paDie (iPa (instr b e i).bytes)
    if (entryWord b n 19).isNone then finishInvalid b e i 0 4
    else if featBarred b n e i then waits b e i
    else resumeCheck n d (rawStep n e i 0 (setPhase b e i .active))) b

/-- RAW. -/
def execRaw (n e i : Nat) (s : State) : Host.Outcome State Fault Refusal := s.act (rawStart n e i)

/-- NOP (R193). -/
def nopStart (n e i : Nat) (b : Block) : Block := takeInstr n e i opNop (fun b => finishInstr b e i stOk 0) b

/-- NOP. -/
def execNop (n e i : Nat) (s : State) : Host.Outcome State Fault Refusal := s.act (nopStart n e i)

/-- The record fetched for the first pass of a unit's first page (R297): where it is not VALID, the lane writes the record that the
job carries, at the unit's place in the region as the write starts (R299), unless an ERASE of the unit has been pooled since. `k` is
65,536 × die + unit. -/
def programRecord (n e i k : Nat) (j : Job) (b : Block) : Block :=
  let b := if j.bad then rinc b (laneReg n 0x264) 15 8 1 else b
  if (!j.bad && (recordOf 0 j.bytes).isSome) || eraseSince b n e i (k / 65536) (k % 65536) ||
      (recordAddr b n (k / 65536) (k % 65536)).isNone then b
  else pushOut b n (mkJob (.recordWrite k) 0 8 true j.data)

/-- The channel of a lane has finished a job (R337): what the job was for goes on, and an instruction whose status is known finishes with
the last of its writes (R174). -/
def jobEnded (n : Nat) (j : Job) (b : Block) : Block :=
  match j.use with
  | .hostIn e i c => hostInDone n e i c j b
  | .rawIn e i => rawInDone n e i j b
  | .stageRead c => if cwLive b c then stagingReadDone n c j b else b
  | .stageWrite e i c => endWrites (if cwLive b c then stagingWritten n c j.bad b else b) e i
  | .recordFetch e i k => if !j.data.isEmpty then programRecord n e i k j b else recordFetched n e i k j b
  | .recordWrite _ => if j.bad then rinc b (laneReg n 0x264) 15 8 1 else b
  | .hostOut e i c last => endWrites (if cwLive b c then hostOutDone c last j.bad b else b) e i
  | .rawOut e i => endWrites (rawOutDone n e i j.bad b) e i

/-- CW_JOB_FINISH (R336, R337): the job at the head of a lane-bound channel has every response; the next job starts, and what waited for
a frame goes on (R264). -/
def cwJobFinish (j c : Nat) (b : Block) : Block :=
  let n := 8 * j + c / 2
  let inbound := decide (c % 2 = 0)
  match (if inbound then (lane b n).inJobs else (lane b n).outJobs) with
  | [] => b
  | x :: r =>
    if !x.started ∨ x.left ≠ 0 ∨ 16 ≤ c ∨ !engineRuns b then b
    else
      let b := noteDone j c inbound r.isEmpty x (updLane b n (fun l => if inbound then { l with inJobs := r } else { l with outJobs := r }))
      framesFreed n (startJob (jobEnded n x b) n inbound)

/-- CW_JOB_FINISH. -/
def execCwJobFinish (j c : Nat) (s : State) : Host.Outcome State Fault Refusal := s.act (cwJobFinish j c)

end Sys2Proof.Machine
end

