-- ==== Sys2Proof/Machine/Discard.lean ====
section
/-! DEFINITION. Abandoning and dropping work: a stopped sequence (R238), an abort (R120), the at-risk list's holds (R432, R433), the
discard of a scope (R437, R440, R441, R472), the halt of a lane (R328, R438), and the resets of a lane and of a pavilion (R436,
R443). -/

namespace Sys2Proof.Machine

open Sys2Proof

/-- Instruction i of entry e issues nothing further (R120): its routines, reads, transfers not started and reservations go. -/
def dropInstr (n e : Nat) (b : Block) (i : Nat) : Block :=
  let r := instr b e i
  if !r.isOpen then b
  else
    let b := unjoin n (fun c => decide ((cw b c).e = e ∧ (cw b c).i = i)) b
    let b := match (lane b n).seq with
      | some q => if q.routine.serves b e i then abandonSeq n b else b
      | none => b
    let b := dropRoutines n (Routine.serves b e i) b
    let b := if iOp r.bytes = opRaw ∧ r.phase = .active then endRaw b n (paDie (iPa r.bytes)) e i else b
    let b := if places r.bytes ∧ r.place.isNone ∧ (formFail r.bytes).isNone then giveBackFor b r n else b
    let ids := (instrCws b e i).map (·.1)
    dropReaders (returnPages (dropSoft b (n / 8) (fun c => ids.contains c)) n e i) e i

/-- A member has had a die confirm (R120, R149). -/
def memberConfirmed (b : Block) (e : Nat) : Bool := (entry b e).instrs.any (fun r => r.confirmed)

/-- After work of a lane has been taken back: suspended operations no READ waits for are resumed (R220, R221), held passes start, and what
waits for lane-buffer frames goes on (R264). -/
def afterDrop (n : Nat) (b : Block) : Block :=
  framesFreed n <| startPasses n (resumeAll n b)

/-- A member is aborted (R120): its unfinished instructions complete ABORTED. -/
def abortMember (n e : Nat) (b : Block) : Block :=
  let b := (List.range (entry b e).instrs.length).foldl (dropInstr n e) b
  afterDrop n (abortFrom b e 0)

/-- The outcome of one member of an ABORT (R120, R121). -/
def abortDecided (b : Block) (p e : Nat) (aborted : Bool) : Block :=
  abortEnd (updExec b p (fun x => { x with abort := x.abort.map (fun a =>
    if a.left.contains e then
      { a with left := a.left.erase e, aborted := a.aborted + ofBool aborted, late := a.late + ofBool (!aborted) }
    else a) })) p

/-- Tick, die-ready and abort events wait while a micro-routine runs on a lane that samples at boundaries, or inside a TMASK region
(R323, R326). -/
def eventsWait (b : Block) (n : Nat) : Bool :=
  match (lane b n).seq with
  | none => false
  | some q => !laneTraps b n || decide (q.tmask ≠ 0)

/-- The number of cycle entries that hold, and the words of the save frame (R325); `inWrb` says that the microword is a WRB. What is left of a transfer or wait in progress
depends on the cycle of the stop: a free value (log entry 3, DESIGN CHOICE). A stack word above the depth and the chip enable of a
routine that holds none are 0 (log entry 115, DESIGN CHOICE). -/
def saveWords (b : Block) (inWrb : Bool) (q : Seq) : Tab Word × Block :=
  let ce := q.ce.getD (0, 0)
  let (data, wait_) := match q.queue with
    | .din .. :: _ | .dout .. :: _ => (true, false)
    | .wait _ :: _ | .ce .. :: _ | .ceOff :: _ => (false, true)
    | [] => (false, inWrb)
    | _ => (false, false)
  let (x, b) := if data then freeOf 32 b else (0, b)
  let (y, b) := if wait_ then freeOf 32 b else (0, b)
  let put (t : Tab Word) (i : Nat) (v : Word) : Tab Word := tset 0 t i v
  let t := put [] 0 (BitVec.ofNat 32 (q.pc % 8192 + ofBool q.z * 2 ^ 16 + q.stack.length * 2 ^ 17 + min q.tmask (24 - q.tmaskAge) * 2 ^ 23))
  let t := (q.stack.reverse.zipIdx).foldl (fun t p => put t (1 + p.2) (BitVec.ofNat 32 p.1)) t
  let t := (List.range 16).foldl (fun t i => put t (9 + i) (tget 0 q.m i)) t
  let t := put t 25 (BitVec.ofNat 32 (q.queue.length + ofBool q.ce.isSome * 8 + ce.1 * 16 + ce.2 * 256 + fld (tget 0 q.m 15) 7 0 * 2 ^ 16))
  (put (put t 26 x) 27 y, b)

/-- The save frame takes the running micro-routine's state. -/
def saveFrame (n : Nat) (b : Block) : Block :=
  match (lane b n).seq with
  | none => b
  | some q =>
    let (t, b) := saveWords b (decide (bitsOf (tget endWord (lane b n).cs q.pc).toNat 29 24 = 0x2E)) q
    updLane b n (fun l => { l with save := t, saveValid := true })

/-- A micro-trap (R323): a native lane of the 64-lane build that runs a micro-routine saves and restores it around the handler. -/
def takeTrap (n : Nat) (b : Block) : Block :=
  if laneTraps b n && (lane b n).seq.isSome then rinc (saveFrame n b) (laneReg n 0x310) 15 0 1 else b

/-- ABORT_REQUEST (R120, R51, R322): the lane's event arbiter takes the request at its head, after every die-ready event, and decides the
member's outcome; a lane
that samples at boundaries takes it only between micro-routines. -/
def abortRequest (n : Nat) (b : Block) : Block :=
  match (lane b n).aborts with
  | [] => b
  | x :: rest =>
    if !laneRuns b n || eventsWait b n || !(lane b n).events.isEmpty then b
    else
      let b := takeTrap n (updLane b n (fun l => { l with aborts := rest }))
      let known := b.entries.any (fun y => decide (y.1 = x.2 ∧ y.2.lane = some n))
      if known && !entryDone b x.2 && !memberConfirmed b x.2 then abortDecided (abortMember n x.2 b) x.1 x.2 true
      else abortDecided b x.1 x.2 false

/-- ABORT_REQUEST. -/
def execAbortRequest (n : Nat) (s : State) : Host.Outcome State Fault Refusal := s.act (abortRequest n)

/-- A die operation that programs. -/
def opPrograms (o : Option DieOp) : Bool :=
  match o with
  | some x => (match x.kind with
    | .pass _ => true
    | _ => false)
  | none => false

/-- A die operation that erases. -/
def opErases (o : Option DieOp) : Bool :=
  match o with
  | some x => decide (x.kind = .erase)
  | none => false

/-- PROG of die d (R432): a pass confirmed and not reported, or an open unit with a page whose first pass is confirmed and whose
last has not reported pass. -/
def riskProg (b : Block) (n d : Nat) : Bool :=
  opPrograms (die b n d).op || opPrograms (die b n d).susp ||
    (lane b n).opens.any (fun o => decide (o.die = d) && (lane b n).pages.any (fun p =>
      decide (p.die = d ∧ p.unit = o.unit) && p.staged && o.conf.contains (p.page / wlPages b (dieFamily b n d))))

/-- ERASE of die d (R432). -/
def riskErase (b : Block) (n d : Nat) : Bool := opErases (die b n d).op || opErases (die b n d).susp

/-- PM_ATRISK_HOLD of lane n (R433). -/
def laneHeld (b : Block) (n : Nat) : Bool := rbit b (0x38044 + 4 * (n / 32)) (n % 32)

/-- A mask of the dies for which a test holds. -/
def dieMask (f : Nat → Bool) : Nat := (List.range 64).foldl (fun m d => if f d then m + 2 ^ d else m) 0

/-- The PROG bits that the at-risk list shows for a lane: those kept where it is held (R433). -/
def progBits (b : Block) (n : Nat) : Nat := if laneHeld b n then tget 0 b.atRisk (2 * n) else dieMask (riskProg b n)

/-- The ERASE bits that the at-risk list shows for a lane. -/
def eraseBits (b : Block) (n : Nat) : Nat := if laneHeld b n then tget 0 b.atRisk (2 * n + 1) else dieMask (riskErase b n)

/-- A lane is held (R433): its bits keep their values. -/
def holdLane (b : Block) (n : Nat) : Block :=
  if laneHeld b n then b
  else
    let pb := progBits b n
    let eb := eraseBits b n
    rset1 { b with atRisk := tset 0 (tset 0 b.atRisk (2 * n) pb) (2 * n + 1) eb } (0x38044 + 4 * (n / 32)) (n % 32)

/-- A lane is released: its bits follow its state again. -/
def releaseLane (b : Block) (n : Nat) : Block :=
  rclr1 { b with atRisk := terase (terase b.atRisk (2 * n)) (2 * n + 1) } (0x38044 + 4 * (n / 32)) (n % 32)

/-- Every lane is held, and GEN rises (R433). -/
def holdAll (b : Block) : Block := rputF (each (laneNums b) holdLane b) 0x38040 15 8 ((rfld b 0x38040 15 8 + 1) % 256)

/-- The commands with an instruction on one of some lanes, not finished and not discarded before (R437 step 3). -/
def cmdsOnLanes (b : Block) (on : Nat → Bool) : List Nat :=
  (b.cmds.filter (fun x => !x.2.offered && !x.2.discarded && x.2.entries.any (fun e => match (entry b e).lane with
    | some n => on n
    | none => false))).map (·.1)

/-- The commands of a pavilion's tenant and service queues that are not finished. -/
def cmdsOfPav (b : Block) (p : Nat) : List Nat :=
  (b.cmds.filter (fun x => !x.2.offered && !x.2.discarded && decide (x.2.sq < 4096) && decide (sqPav b x.2.sq = p))).map (·.1)

/-- Commands that are unarmed chains. -/
def unarmedOf (b : Block) (cs : List Nat) : List Nat := cs.filter (fun c => !(cmd b c).armed)

/-- A command is discarded (R437 step 3, R472). `wiped` says which lanes lose everything anyway. -/
def discardCmd (wiped : Nat → Bool) (stop : Bool) (b : Block) (c : Nat) : Block :=
  let k := cmd b c
  let b := updCmd b c (fun k => { k with discarded := true })
  if k.armed then
    each k.entries (fun b e =>
      match (entry b e).lane with
      | none => dropEntry b e
      | some n =>
        if wiped n then b
        else if entryDone b e then dropEntry b e
        else if memberConfirmed b e then b
        else afterDrop n (dropEntry ((List.range (entry b e).instrs.length).foldl (dropInstr n e) b) e)) b
  else
    let q := sq b k.sq
    let b := each k.entries (fun b e => dropEntry (giveBackEntry b e) e) b
    match q.chain with
    | some ch => if stop then stopQueue b k.sq ch.slot else updSq b k.sq (fun q => { q with chain := none, short := 0 })
    | none => b

/-- The command that a waiting ABORT of pavilion p has found and whose chain is not armed (R119). -/
def abortWaitsFor (b : Block) (p : Nat) : Option Nat :=
  match (pav b p).exec with
  | none => none
  | some x =>
    let w := x.instrs.getD x.idx []
    if x.started ∧ x.abort.isNone ∧ iOp w = 0x88 then
      (b.cmds.find? (fun y => decide (y.2.sq = aId w ∧ y.2.cid = fieldAt w 4 2) && !y.2.discarded)).map (·.1)
    else none

/-- The ABORTs that found a discarded command before (R441): every member not yet decided counts as aborted. -/
def discardAborts (cs : List Nat) (b : Block) : Block :=
  each (List.range 16) (fun b p =>
    match (pav b p).exec.bind (fun x => x.abort) with
    | some a =>
      if cs.contains a.cmd then
        let b := each (laneNums b) (fun b n =>
          if (lane b n).aborts.any (fun y => decide (y.1 = p)) then
            updLane b n (fun l => { l with aborts := l.aborts.filter (fun y => decide (y.1 ≠ p)) })
          else b) b
        abortEnd (updExec b p (fun x => { x with abort := some { a with left := [], aborted := a.aborted + a.left.length } })) p
      else b
    | none =>
      match abortWaitsFor b p with
      | some c =>
        if cs.contains c then
          abortEnd (updExec b p (fun x => { x with abort := some ⟨c, [], (cmd b c).entries.length, 0⟩ })) p
        else b
      | none => b) b

/-- One FAULT_DISCARD for each submission queue that had a command discarded (R437 step 6, R440, R441). -/
def postDiscard (cs stopped : List Nat) (det cause laneNo : Nat) (b : Block) : Block :=
  each ((cs.map (fun c => (cmd b c).sq)).dedup) (fun b q =>
    let mine := cs.filter (fun c => decide ((cmd b c).sq = q))
    let word := BitVec.ofNat 64 (min mine.length 65535 + laneNo * 2 ^ 16 + ofBool (stopped.contains q) * 2 ^ 22 + cause * 2 ^ 24 +
      now b % 2 ^ 32 * 2 ^ 32)
    if (cq b (sq b q).cq).broken then each mine retire b
    else offer b (sq b q).cq (queueEvent q 0xFFFF stDiscard det word mine)) b

/-- A lane-bound channel drops its work (R338, R353): the shadow set and LOAD keep their values, and the live pointer and count are
undefined: free values. -/
def dropChannel (n : Nat) (b : Block) (inbound : Bool) : Block :=
  let j := n / 8
  let c := jobChan n inbound
  let b := match (if inbound then (lane b n).inJobs else (lane b n).outJobs)[1]? with
    | some x => rset1 (noteShadow j c inbound x b) (chanReg j c 4) 0
    | none => b
  let (p, b) := freeOf 48 b
  let (k, b) := freeOf 24 b
  let a := if inbound then 0x30 else 0x38
  rput (rput (rput b (chanReg j c a) (p.extractLsb' 0 32)) (chanReg j c (a + 4)) ((p.extractLsb' 32 16).setWidth 32)) (chanReg j c 0x24)
    (k.setWidth 32)

/-- The die whose sequence a lane stops in the middle of a multi-plane or page-load sequence (R238). -/
def loadingDie (b : Block) (n : Nat) : Option Nat := ((lane b n).seq.filter (fun q => q.pageLoad)).map (fun q => q.routine.die)

/-- A lane loses everything it has in flight (R437 steps 1, 2 and 4): its pool, routines, jobs, codewords, staged pages and open
units; its held completions stay (step 5). A LUN reset that a die still needs, or now needs, stays due (R238). -/
def wipeLane (b : Block) (n : Nat) : Block :=
  let mine := (b.entries.filter (fun x => decide (x.2.lane = some n))).map (·.1)
  let takenBack (b : Block) (e : Nat) : Block := (List.range (entry b e).instrs.length).foldl (fun b i =>
    let r := instr b e i
    if r.phase = .finished ∨ !places r.bytes ∨ (formFail r.bytes).isSome then b
    else match r.place with
      | some _ => if r.confirmed then b else unplace b n e i
      | none => giveBackFor b r n) b
  let b := each mine takenBack b
  let b := dropSoft b (n / 8) (fun c => decide ((cw b c).lane = n))
  let b := dropBursts (fun x => match x.owner with
    | .job m _ _ => decide (m = n)
    | _ => false) b
  let b := each [true, false] (dropChannel n) b
  let b := { b with
    entries := b.entries.filter (fun x => decide (x.2.lane ≠ some n)), cws := b.cws.filter (fun x => decide (x.2.lane ≠ n)) }
  let b := each (List.range 64) (fun b d =>
    if b.dies.any (fun x => decide (x.1 = 64 * n + d)) then
      updDie b n d (fun x => { x with
        op := none, susp := none, suspending := false, noSusp := false, feats := [], waitSusp := none, raw := false, training := false
        needReset := x.needReset || decide (loadingDie b n = some d) })
    else b) b
  updLane b n (fun l => { l with
    arrive := [], pool := [], todo := [], frame := [], next := [], used := 0, nextUsed := 0, carried := 0, built := false
    stallFrame := false, nextStall := false, tickDue := false, lateCarry := 0, seq := none, idle := 0, wrrCredit := [], wrrClass := 0, wrrOrder := [], opens := [], pages := [], passes := []
    inJobs := [], outJobs := [], aborts := [], events := [], heldFrames := [] })

/-- The discard of a set of lanes (R437). -/
def discardLanes (lanes : List Nat) (det cause laneNo : Nat) (b : Block) : Block :=
  let on (n : Nat) : Bool := lanes.contains n
  let cs := cmdsOnLanes b on
  let stopped := (unarmedOf b cs).map (fun c => (cmd b c).sq)
  let b := each lanes holdLane b
  let b := { b with warnHeld := b.warnHeld.filter (fun n => !on n) }
  let b := discardAborts cs b
  let b := cs.foldl (discardCmd on true) b
  wipeReleased (postDiscard cs stopped det cause laneNo (each lanes wipeLane b))

/-- A lane halts (R328, R438): LN_FAULT records the cause, the lane-error event is raised, and its work is discarded. -/
def haltLane (n cause : Nat) (b : Block) : Block :=
  let b := rputF b (laneReg n 0xAC) 2 0 cause
  if laneHalted b n then b
  else discardLanes [n] 1 cause n (raiseLaneErr (rset1 b (laneReg n 0xAC) 3) n)

/-- A lane returns to its state before its start (R436, R444): only its control store, its held completions, its open closes and what was
routed to it since it halted are kept; a halt, or `reload`, makes it load again (R330, R444). A start that failed for an entry kind
(R321) may be tried again. -/
def resetLane (reload : Bool) (n : Nat) (b : Block) : Block :=
  let again := reload || laneHalted b n
  let b := updLane b n (fun l =>
    { Lane.init with
      arrive := l.arrive
      cs := l.cs, words := l.words, ent := l.ent, slot := l.slot, holding := l.holding, closes := l.closes, save := l.save, saveValid := l.saveValid
      loadPend := again || l.loadPend })
  let b := { b with
    dies := b.dies.filterMap (fun x =>
      if x.1 / 64 ≠ n then some x else if x.2.needReset then some (x.1, { Die.init with needReset := true }) else none)
    planted := b.planted.filter (fun x => !decide (x.lane = n ∧ x.mem < 3)) }
  let b := each (List.range 64) (fun b d =>
    let a := laneReg n (0x400 + 4 * d)
    if rget b a = 0 then b else rputF (rputF b a 15 13 0) a 18 16 (rfld b 0x408 10 8)) b
  let b := rput b (laneReg n 0x204) (resetWord (laneReg n 0x204))
  let b := rclr1 b (laneReg n 0xAC) 3
  let b := rclr1 b (laneReg n 0x304) 2
  let b := startLap n (if again then rclr1 b (laneReg n 0x304) 3 else b)
  let b := if again then rclr1 b (laneReg n 0x304) 0 else b
  let b := if again || decide (rfld b (laneReg n 0x304) 11 8 = 4) then rputF b (laneReg n 0x304) 11 8 0 else b
  rputF b (laneReg n 0x224) 23 16 0xFF

/-- A write of LN_CTRL (R436, R447): RESET starts a lane reset, unless a block fault has halted the block. -/
def laneCtrlWrite (n : Nat) (v : Word) (sec : Bool) (b : Block) : Block :=
  if !sec || !v.getLsbD 0 || faulted b || decide (b.build.lanes ≤ n) then b
  else
    let b := wakePs2 b
    let b := if laneHalted b n then b else discardLanes [n] 1 2 n b
    resetLane (rbit b (laneReg n 0x300) 2) n b

/-- LANE_RESET. -/
def execLaneReset (n : Nat) (v : Word) (sec : Bool) (s : State) : Host.Outcome State Fault Refusal :=
  (regWrite4 s (laneReg n 0xA8) sec (laneCtrlWrite n v sec)).settled

/-- REFCLK_FAIL (R39, R438): phy_refclk of junction j has failed, and each of its eight lanes halts; in PS3 it is not watched. -/
def refclkFail (j : Nat) (b : Block) : Block :=
  if b.inReset || decide (b.build.juncs ≤ j) || faulted b || decide (powerState b = 3) then b
  else each ((List.range 8).map (fun k => 8 * j + k)) (fun b n => haltLane n 3 b) (rset1 b 0x120 (6 + j))

/-- REFCLK_FAIL. -/
def execRefclkFail (j : Nat) (s : State) : Host.Outcome State Fault Refusal := s.act (refclkFail j)

/-- The admin executor stops (R103): the commands that wait for it are gone, and the one executing runs to its end with no
completion. -/
def stopExec (p : Nat) (b : Block) : Block :=
  let b := each ((pav b p).queue.map (·.1)) dropAdmin b
  let b := match (pav b p).exec with
    | some x => dropAdmin b x.cmd
    | none => b
  updPav b p (fun v => { v with queue := [] })

/-- A pavilion stops (R437 step 1). -/
def stopPav (p : Nat) (b : Block) : Block := stopExec p (dropFetch p b)

/-- A block fault overrides a pavilion reset in progress (R453): it ends without its event (log entry 105, DEDUCED). -/
def endPavReset (p : Nat) (b : Block) : Block :=
  if (pav b p).resetting then rclr1 (updPav b p (fun v => { v with resetting := false })) 0x38038 p else b

/-- A block fault (R439): every lane and pavilion stops, everything is discarded with FAULT_DISCARD 0x03, and the block stays
halted. -/
def blockFault (cause : Nat) (b : Block) : Block :=
  if faulted b then b
  else
    let b := rputF (rset1 b 0x40000 1) 0x38034 1 0 cause
    let b := holdAll b
    let b := each (List.range 16) (fun b p => endPavReset p (stopPav p b)) b
    discardLanes (laneNums b) 3 8 0 b

/-- A write of 1 to PV_CFG.RESET (R436, R437, R443): the pavilion stops, its commands are discarded, and its reset lasts until
PV_RESET_DONE. -/
def pavResetStart (p : Nat) (b : Block) : Block :=
  if (pav b p).resetting ∨ faulted b then b
  else
    let b := wakePs2 b
    let b := updPav (rset1 b 0x38038 p) p (fun v => { v with resetting := true })
    let cs := cmdsOfPav b p
    let b := stopPav p b
    let b := discardAborts cs b
    wipeReleased (postDiscard cs [] 2 6 0 (cs.foldl (discardCmd (fun _ => false) false) b))

/-- A ring of a resetting pavilion has nothing left that it has room for (R443). -/
def ringDone (b : Block) (c : Nat) : Bool :=
  let q := cq b c
  q.inFlight.isEmpty && (q.blocked || (q.wait.isEmpty && !((laneNums b).any (fun n => (lane b n).holding.any (fun y => decide (y.1 = c))))))

/-- PV_RESET_DONE (R443): with no completion left that has room, those still held are dropped, and the pavilion's queues,
stripes, waymarks and enables go. -/
def pavResetDone (p : Nat) (b : Block) : Block :=
  let cqs := (b.cqs.filter (fun x => x.2.live && decide (x.2.owner = p))).map (·.1)
  if !(pav b p).resetting || b.inReset || faulted b || !cqs.all (ringDone b) then b
  else
    let b := each cqs removeCq b
    let sqs := (b.sqs.filter (fun x => x.2.live && decide (x.2.owner = p))).map (·.1)
    let b := each sqs (fun b q => removeSq (each ((b.cmds.filter (fun y => decide (y.2.sq = q))).map (·.1)) retire b) q) b
    let sts := (b.stripes.filter (fun x => decide (x.2.owner = p))).map (·.1)
    let b := each sts (fun b st => { b with stripes := terase b.stripes st }) b
    let b := each (laneNums b) (fun b n => updLane b n (fun l =>
      { l with
        waymarks := l.waymarks.filter (fun x => decide (x.1 / 16 ≠ p)), closes := l.closes.filter (fun st => !sts.contains st) })) b
    let b := updPav b p (fun v => { Pav.init with exec := v.exec.filter (fun x => decide (x.left ≠ 0)), errRaised := v.errRaised })
    let b := rclr1 (rclr1 b (pavReg p 0xD000) 0) (pavReg p 0xC210) 0
    rset1 (rclr1 b 0x38038 p) 0x38010 3

/-- PV_RESET_DONE. -/
def execPvResetDone (p : Nat) (s : State) : Host.Outcome State Fault Refusal := s.act (pavResetDone p)

end Sys2Proof.Machine
end

