-- ==== Sys2Proof/Machine/Protect.lean ====
section
/-! DEFINITION. The protection of the block's own memories (R451 to R461): errors found by a reader or a scrubber, their scope actions,
the laps, and the test mode. The words' layout within a memory is not in the spec: which resource a word belongs to is a constant of
Config (log entry 9, DESIGN CHOICE). -/

namespace Sys2Proof.Machine

open Sys2Proof

/-- The number of ones of a 33-bit word is odd (R315). -/
def parityOk (w : BitVec 33) : Bool := decide (((List.range 33).filter (fun i => w.getLsbD i)).length % 2 = 1)

/-- A queue context by the owner number of its word: submission queues from 0, the admin ones behind them, completion queues from
4112. The answer is its pavilion, none where no such queue exists. -/
def contextPav (b : Block) (k : Nat) : Option Nat :=
  if k < 4112 then (if (sq b k).live then some (sq b k).owner else none)
  else if (cq b (k - 4112)).live then some (cq b (k - 4112)).owner
  else none

/-- A pool or holding entry of a lane is in use: certain where all or none are, the block's own choice of entries otherwise. -/
def entryUsed (used all : Nat) (b : Block) : Bool × Block :=
  if used = 0 then (false, b)
  else if all ≤ used then (true, b)
  else
    let (v, b) := freeOf 1 b
    (v.getLsbD 0, b)

/-- A word holds live state (R452); key slot 0 is always LIVE (R394). -/
def liveWord (mem n index : Nat) (b : Block) : Bool × Block :=
  let o := Config.memWordOwner mem n index
  if mem = 1 then
    if o = 1 then entryUsed (poolCount b n) 256 b
    else if o = 2 then entryUsed (lane b n).holding.length 64 b
    else (true, b)
  else if mem = 3 then (decide (index < (lane b n).words), b)
  else if mem = 4 then ((contextPav b o).isSome, b)
  else if mem = 5 then (decide (o = 0) || decide ((keySlot b o).st ≠ .empty), b)
  else if mem = 8 then (!([0, 4, 5].contains (chan b (o / 256 % 8) (o / 32 % 8)).run), b)
  else (true, b)

/-- The scope action of an uncorrectable error in live state (R451, R453, R456, R331); a halted block takes none. -/
def scopeAction (mem n index : Nat) (b : Block) : Block :=
  let o := Config.memWordOwner mem n index
  if faulted b then b
  else if mem = 1 ∨ mem = 2 then haltLane n 4 b
  else if mem = 3 then rset1 b (laneReg n 0x304) 3
  else if mem = 4 then
    match contextPav b o with
    | some p => pavResetStart p b
    | none => b
  else if mem = 5 then loseSlot b o
  else if mem = 8 then chanError b (o / 256 % 8) (o / 32 % 8) 1 (chan b (o / 256 % 8) (o / 32 % 8)).pc
  else blockFault 2 b

/-- The register address of the word of a program area that a word of MEM 8 holds. -/
def progAddr (index : Nat) : Nat :=
  let o := Config.memWordOwner 8 0 index
  juncReg (o / 256 % 8) (0x2000 + 0x100 * (o / 32 % 8) + 8 * (o % 32))

/-- The scrubber rewrites a word without live state with zeros and correct check bits (R452); a control-store word and a word of a
program area show it. -/
def zeroWord (mem n index : Nat) (b : Block) : Block :=
  if mem = 3 then updLane b n (fun l => { l with cs := tset endWord l.cs index 0x100000000 })
  else if mem = 8 then rput64 b (progAddr index) 0
  else b

/-- An uncorrectable word (UNCORRECTABLE_ERROR, R452, R455): without live state it is counted and rewritten with zeros. A bad word of
a program area stays, and its channel, in ERROR, leaves it without live state. -/
def uncorrectable (mem n index synd : Nat) (scrub : Bool) (b : Block) : Block :=
  let (live, b) := liveWord mem n index b
  if live then scopeAction mem n index (noteUncorrectable mem n index synd scrub (if mem = 8 then b else unplant mem n index b))
  else latchMemErr mem n index synd scrub (rinc (zeroWord mem n index (unplant mem n index b)) 0x80C 27 24 1)

/-- What the scrubber finds in a word (R457): in a planted word, or a control-store word of wrong parity, what stands there. -/
def scrubFinding (mem n index synd : Nat) (f : Finding) (b : Block) : Finding × Nat :=
  if mem = 3 then
    if f = .good ∧ parityOk (tget endWord (lane b n).cs index) then (.good, synd) else (.uncorrectable, synd)
  else
    match b.planted.find? (fun x => decide (x.mem = mem ∧ x.lane = n ∧ x.index = index)) with
    | some x => plantedFinding x (decide (f = .correctable true))
    | none => (f, synd)

/-- A control-store word that the scrubber has found bad has wrong parity from then on: until the reload a fetch of it is a machine check
(R331). -/
def spoilWord (mem n index : Nat) (b : Block) : Block :=
  if mem = 3 ∧ parityOk (tget endWord (lane b n).cs index) then
    updLane b n (fun l => { l with cs := tset endWord l.cs index (tget endWord l.cs index ^^^ 0x100000000) })
  else b

/-- The word at (mem, index) is the next that a scrubber reads (R457): its memories in increasing order, and each from its first word up. How
many words a memory has is not stated, so the command says where one ends (log entry 9, DESIGN CHOICE). -/
def scrubNext (p : ScrubPos) (mem index : Nat) : Bool :=
  decide (mem = p.mem ∧ index = p.index) || decide (mem = p.mem + 1 ∧ index = 0 ∧ p.index ≠ 0)

/-- The memory that a scrubber's lap ends with (R457). -/
def scrubLast (k : Nat) : Nat := if k = 64 then 8 else 3

/-- A scrubber goes on behind a word, or ends its lap with it (R457, R460): the lap's length in ticks is recorded, one above LAP_WARN sets
LAP_LATE, and a new lap begins. -/
def scrubOn (k mem index : Nat) (lapEnd : Bool) (b : Block) : Block :=
  if lapEnd && decide (mem = scrubLast k) then
    let t := now b - (scrubPos b k).start
    let b := startLap k { b with lapLen := tset 0 b.lapLen k (min t 0xFFFFFFFF) }
    if rfld b 0x808 31 16 < t then rset1 b 0x800 2 else b
  else { b with scrub := tput b.scrub k { scrubPos b k with mem := mem, index := index + 1 } }

/-- What a scrubber does with the word it has read (R457 to R459). -/
def scrubFound (n : Nat) (f : Finding) (mem index synd : Nat) (b : Block) : Block :=
  match scrubFinding mem n index synd f b with
  | (.good, _) => b
  | (.correctable written, _) =>
    let b := noteCorrected (unplant mem n index b)
    if written then b else rinc b 0x80C 23 16 1
  | (.uncorrectable, y) => uncorrectable mem n index y true (spoilWord mem n index b)

/-- SCRUB_WORD (R457 to R460): the scrubber of a lane, or of the block (none), reads the word it has come to, while the tick runs. -/
def scrubWord (who : Option Nat) (f : Finding) (mem index synd : Nat) (lapEnd : Bool) (b : Block) : Block :=
  let n := who.getD 0
  let k := who.getD 64
  if b.inReset || !b.ticking || decide (who.isSome ≠ laneMem mem) || decide (b.build.lanes ≤ n) || decide (8 < mem) || decide (mem = 0) ||
      !scrubNext (scrubPos b k) mem index then b
  else scrubFound n f mem index synd (scrubOn k mem index lapEnd b)

/-- SCRUB_WORD. -/
def execScrubWord (lane : Option Nat) (find : Finding) (mem index synd : Nat) (lapEnd : Bool) (s : State) :
    Host.Outcome State Fault Refusal :=
  s.act (scrubWord lane find mem index synd lapEnd)

/-- Accesses of a part of the block to its memories (R454, R455): which of them reads a word that the test mode planted is not stated, so a
free value says for each such word whether one does (log entry 9, DESIGN CHOICE). -/
def readPlanted (p : Planted → Bool) (b : Block) : Block :=
  each (b.planted.filter p) (fun b x =>
    let (v, b) := freeOf 1 b
    if !v.getLsbD 0 then b
    else match plantedFinding x false with
      | (.good, _) => b
      | (.correctable _, _) => noteCorrected b
      | (.uncorrectable, y) => uncorrectable x.mem x.lane x.index y false b) b

/-- A word of lane n's state or tables, as the lane reads them. -/
def Planted.ofLane (n : Nat) (x : Planted) : Bool := decide (x.lane = n) && decide (1 ≤ x.mem) && decide (x.mem ≤ 2)

/-- The lane reads its state and tables as a micro-routine starts (R455). The answer is whether the routine may start. -/
def laneReads (n : Nat) (b : Block) : Bool × Block :=
  let b := readPlanted (Planted.ofLane n) b
  (!laneHalted b n, b)

/-- What the block's functions have read since the last tick (R454, R455): the state and tables of the lanes that work, the queue contexts,
and the shared state. -/
def tickReads (b : Block) : Block :=
  readPlanted (fun x => decide (x.mem = 4) || decide (x.mem = 7) || (laneRuns b x.lane && x.ofLane x.lane)) b

/-- A 64-bit word of a key is replaced. -/
def keyWithWord (key : BitVec 512) (i : Nat) (v : Word64) : BitVec 512 :=
  (key &&& ~~~(BitVec.ofNat 512 (0xFFFFFFFFFFFFFFFF * 2 ^ (64 * (i % 8))))) ||| BitVec.ofNat 512 (v.toNat * 2 ^ (64 * (i % 8)))

/-- A word that the test mode wrote, and that its reader gets, is what its owner holds from then on (R461): a word of a program area, of a
key, or of the family tables. Of the other memories no layout is known, so their owner goes on with what it held (log entry 9). -/
def plantedTaken (mem index : Nat) (v : Word64) (b : Block) : Block :=
  let at_ := Config.memWordPlace mem 0 index
  if mem = 8 then rput64 b (progAddr index) v
  else if mem = 5 then
    if (keySlot b (Config.memWordOwner 5 0 index)).st = .empty then b
    else updKey b (Config.memWordOwner 5 0 index) (fun s => { s with key := keyWithWord s.key at_ v })
  else if mem = 6 ∧ at_ < 0x800 then
    { b with tbl := tset 0xFFFFFFFF (tset 0xFFFFFFFF b.tbl (8 * at_) (v.extractLsb' 0 32)) (8 * at_ + 4) (v.extractLsb' 32 32) }
  else b

/-- GO of the test mode (R461): the word that MP_TEST_SEL names takes the given data and check bits; an absent one nothing. What its owner
has of a correctable word is its corrected data (R454). -/
def plantWord (b : Block) : Block :=
  let mem := rfld b 0x82C 3 0
  let n := if laneMem mem then rfld b 0x82C 9 4 else 0
  let index := rfld b 0x82C 31 12
  let data := rget64 b 0x830
  let check := BitVec.ofNat 8 (rfld b 0x838 7 0)
  if mem = 0 ∨ 8 < mem ∨ b.build.lanes ≤ n then b
  else if mem = 3 then
    if index < 8192 then
      updLane b n (fun l => { l with cs := tset endWord l.cs index (BitVec.ofNat 1 check.toNat ++ data.extractLsb' 0 32) })
    else b
  else
    let b := unplant mem n index b
    let b := { b with planted := b.planted ++ [⟨mem, n, index, data, check⟩] }
    let k := Config.secdedClass data check
    if k = 0 then plantedTaken mem index data b
    else if k = 1 then plantedTaken mem index (Config.secdedData data check) b
    else b

/-- A write of MP_TEST_CTRL, a secure one (R461). -/
def testCtrlWrite (v : Word) (sec : Bool) (b : Block) : Block :=
  if !sec then b
  else
    let armed := rbit b 0x828 0
    if v.getLsbD 1 then (if armed then plantWord (rclr1 b 0x828 0) else b)
    else rputB b 0x828 0 (v.getLsbD 0)

/-- MP_TEST_ARM. -/
def execMpTestArm (v : Word) (sec : Bool) (s : State) : Host.Outcome State Fault Refusal :=
  (regWrite4 s 0x828 sec (testCtrlWrite v sec)).settled

/-- MP_TEST_GO. -/
def execMpTestGo (v : Word) (sec : Bool) (s : State) : Host.Outcome State Fault Refusal :=
  (regWrite4 s 0x828 sec (fun b => testCtrlWrite v sec b)).settled

end Sys2Proof.Machine
end

