-- ==== Sys2Proof/Machine/Seq.lean ====
section
/-! DEFINITION. The sequencer and the PHY of a lane (R312 to R328): starting a micro-routine, the microwords, the cycle queue, die
confirms (R120, R297), what the end of each micro-routine brings, traps, machine checks, and the commit of a frame (R52, R55). -/

namespace Sys2Proof.Machine

open Sys2Proof

/-- A micro-register. -/
def Seq.reg (q : Seq) (i : Nat) : Word := tget 0 q.m i

/-- Writes a micro-register. -/
def Seq.put (q : Seq) (i : Nat) (v : Word) : Seq := { q with m := tset 0 q.m i v }

/-- Writes a micro-register, and Z from it (R316). -/
def Seq.putZ (q : Seq) (i : Nat) (v : Word) : Seq := { q.put i v with z := decide (v = 0) }

/-- The microword at the pc. -/
def Seq.word (b : Block) (n : Nat) (q : Seq) : BitVec 33 := tget endWord (lane b n).cs q.pc

/-- OP of a microword (R315). -/
def mwOp (w : BitVec 33) : Nat := bitsOf w.toNat 29 24
/-- CYC. -/
def mwCyc (w : BitVec 33) : Nat := bitsOf w.toNat 31 30
/-- A. -/
def mwA (w : BitVec 33) : Nat := bitsOf w.toNat 23 20
/-- B. -/
def mwB (w : BitVec 33) : Nat := bitsOf w.toNat 19 16
/-- IMM. -/
def mwImm (w : BitVec 33) : Nat := bitsOf w.toNat 15 0

/-- A micro-operation (R313, R316): its class (0 immediate, 1 queued, 2 synchronous), whether it is native only, whether it uses A
and B, and the bits of IMM it uses. -/
structure MicroOp where
  cls : Nat
  native : Bool
  a : Bool
  b : Bool
  imm : Nat
  deriving DecidableEq, Repr

/-- The micro-operations by OP (R316), none for an unknown one. -/
def microOp (op : Nat) : Option MicroOp :=
  if op = 0x00 ∨ op = 0x06 then some ⟨0, false, false, false, 0⟩
  else if op = 0x01 then some ⟨2, false, false, false, 0⟩
  else if 0x02 ≤ op ∧ op ≤ 0x05 then some ⟨0, false, false, false, 13⟩
  else if op = 0x07 then some ⟨0, false, true, false, 13⟩
  else if op = 0x08 ∨ op = 0x09 ∨ op = 0x12 ∨ op = 0x13 then some ⟨0, false, true, false, 16⟩
  else if 0x0A ≤ op ∧ op ≤ 0x0F then some ⟨0, false, true, true, 0⟩
  else if op = 0x10 ∨ op = 0x11 then some ⟨0, false, true, false, 5⟩
  else if op = 0x14 then some ⟨0, true, true, false, 12⟩
  else if op = 0x15 then some ⟨0, true, false, false, 16⟩
  else if op = 0x20 ∨ op = 0x25 ∨ op = 0x26 ∨ op = 0x2B then some ⟨1, false, true, false, 0⟩
  else if op = 0x21 then some ⟨1, false, false, false, 0⟩
  else if 0x22 ≤ op ∧ op ≤ 0x24 then some ⟨1, false, false, false, 8⟩
  else if op = 0x27 then some ⟨1, false, false, false, 5⟩
  else if op = 0x28 then some ⟨1, false, false, false, 16⟩
  else if op = 0x29 ∨ op = 0x2A then some ⟨1, false, true, true, 0⟩
  else if op = 0x2C ∨ op = 0x2D then some ⟨2, false, true, false, 0⟩
  else if op = 0x2E then some ⟨2, false, false, false, 3⟩
  else none

/-- The microword is illegal on a lane (R315, R327): an unknown OP, a field it does not use not zero, CYC where it must be zero, or
a native-only operation in compatibility mode. -/
def microIllegal (native : Bool) (w : BitVec 33) : Bool :=
  match microOp (mwOp w) with
  | none => true
  | some o =>
    (!o.a && decide (mwA w ≠ 0)) || (!o.b && decide (mwB w ≠ 0)) || decide (2 ^ o.imm ≤ mwImm w) ||
      (decide (mwCyc w ≠ 0) && (!native || decide (o.cls ≠ 0))) || (o.native && !native)

/-- Where a microword sends the pc, none where it goes on to the next word (R316). -/
def jumpTarget (q : Seq) (w : BitVec 33) : Option Nat :=
  let t := mwImm w % 8192
  let op := mwOp w
  if op = 0x02 ∨ op = 0x05 then some t
  else if op = 0x03 then (if q.z then some t else none)
  else if op = 0x04 then (if q.z then none else some t)
  else if op = 0x06 then q.stack.head?
  else if op = 0x07 then (if q.reg (mwA w) - 1 = 0 then none else some t)
  else none

/-- The machine check that the microword at the pc brings, 0 for none (R327). -/
def microFault (b : Block) (n : Nat) (q : Seq) : Nat :=
  let w := q.word b n
  if !parityOk w then 1
  else if microIllegal (laneNative b n) w then 2
  else if (mwOp w = 0x05 ∧ 8 ≤ q.stack.length) ∨ (mwOp w = 0x06 ∧ q.stack = []) then 3
  else match jumpTarget q w with
    | some t => if (lane b n).words ≤ t then 4 else 0
    | none => 0

/-- A parity error on a fetch is an uncorrectable error of MEM 3 (R451, R455), in live state below the image's WORDS (R452); it has no
syndrome, so a free value is shown. -/
def noteParity (n pc : Nat) (b : Block) : Block :=
  let (v, b) := freeOf 8 b
  if pc < (lane b n).words then noteUncorrectable 3 n pc v.toNat false b
  else latchMemErr 3 n pc v.toNat false (rinc b 0x80C 27 24 1)

/-- A machine check halts the lane (R328): the save frame and LN_MCHK hold the failing microword at `pc`. -/
def machineHalt (n cause pc : Nat) (b : Block) : Block :=
  let b := saveFrame n b
  let b := rputF (rputF (rinc b (laneReg n 0x30C) 31 24 1) (laneReg n 0x30C) 2 0 cause) (laneReg n 0x30C) 20 8 pc
  haltLane n 1 (rset1 b (laneReg n 0x304) 2)

/-- A machine check on the microword at the pc (R327, R328). -/
def machineFault (n cause : Nat) (b : Block) : Block :=
  let pc := ((lane b n).seq.map (fun q => q.pc)).getD 0
  machineHalt n cause pc (if cause = 1 then noteParity n pc b else b)

/-- A tick that waited is taken once nothing defers it (R54, R323). -/
def tickTaken (n : Nat) (b : Block) : Block :=
  if (lane b n).tickDue && !eventsWait b n then commitNext n (takeTrap n b) else b

/-- The sequencer's state after a microword; a TMASK region still open 24 cycles after it began, be it within the microword, is closed and
counted (R323). -/
def putSeq (n : Nat) (q : Seq) (b : Block) : Block :=
  let forced := (decide (q.tmask ≠ 0) && decide (24 ≤ q.tmaskAge)) || decide (24 < q.tmaskAge)
  let q := if forced then { q with tmask := 0, tmaskAge := 0 } else q
  let b := if forced then rinc b (laneReg n 0x310) 23 16 1 else b
  tickTaken n (updLane b n (fun l => { l with seq := some q }))

/-- The sequencer of a lane works. -/
def seqRuns (b : Block) (n : Nat) : Bool := laneRuns b n

/-- The microword of operation `op` at the pc of lane n: a faulty one halts the lane (R327), any other has its effect `f`. -/
def microStep (n op : Nat) (f : Seq → BitVec 33 → Block → Block) (b : Block) : Block :=
  match (lane b n).seq with
  | none => b
  | some q =>
    let w := q.word b n
    if !seqRuns b n || decide (mwOp w ≠ op) then b
    else
      let c := microFault b n q
      if c ≠ 0 then machineFault n c b else f q w b

/-- The pc goes on to the next word, behind word 8,191 to word 0 (log entry 116, DESIGN CHOICE); a TMASK region counts the word's cycles. -/
def Seq.next (q : Seq) (cycles : Nat) : Seq :=
  { q with pc := (q.pc + 1) % 8192, tmask := q.tmask - cycles, tmaskAge := q.tmaskAge + min q.tmask cycles }

/-- An immediate microword (R313): it takes CYC + 1 cycles and touches no pad. -/
def immStep (n op : Nat) (g : Seq → BitVec 33 → Seq) (b : Block) : Block :=
  microStep n op (fun q w b =>
    let t := jumpTarget q w
    let q := (g q w).next (mwCyc w + 1)
    putSeq n (match t with
      | some t => { q with pc := t }
      | none => q) b) b

/-- The entries the cycle queue holds (R313): 4, or 1 in compatibility mode. -/
def queueDepth (b : Block) (n : Nat) : Nat := if laneNative b n then 4 else 1

/-- A queued microword (R313): it posts an entry, and stalls while the queue is full. -/
def postStep (n op : Nat) (g : Block → Seq → BitVec 33 → CycEntry) (b : Block) : Block :=
  microStep n op (fun q w b =>
    if queueDepth b n ≤ q.queue.length then b
    else putSeq n ({ q with queue := q.queue ++ [g b q w] }.next 1) b) b

/-- A synchronous microword (R313): it waits until the queue has drained; a TMASK region does not outlast its wait. -/
def syncStep (n op : Nat) (g : Block → Seq → BitVec 33 → Seq) (b : Block) : Block :=
  microStep n op (fun q w b => if q.queue.isEmpty then putSeq n ((g b q w).next 24) b else b) b

/-- The synchronous microword of operation `op` is at the pc of lane n, the queue has drained, and nothing is wrong with it. -/
def syncReady (b : Block) (n op : Nat) : Bool :=
  match (lane b n).seq with
  | none => false
  | some q => seqRuns b n && decide (mwOp (q.word b n) = op) && decide (microFault b n q = 0) && q.queue.isEmpty

/-- MW_NOP. -/
def execMwNop (n : Nat) (s : State) : Host.Outcome State Fault Refusal := s.act (immStep n 0x00 (fun q _ => q))
/-- MW_JMP. -/
def execMwJmp (n : Nat) (s : State) : Host.Outcome State Fault Refusal := s.act (immStep n 0x02 (fun q _ => q))
/-- MW_JZ. -/
def execMwJz (n : Nat) (s : State) : Host.Outcome State Fault Refusal := s.act (immStep n 0x03 (fun q _ => q))
/-- MW_JNZ. -/
def execMwJnz (n : Nat) (s : State) : Host.Outcome State Fault Refusal := s.act (immStep n 0x04 (fun q _ => q))
/-- MW_CALL (R317): the next word's address is pushed. -/
def execMwCall (n : Nat) (s : State) : Host.Outcome State Fault Refusal :=
  s.act (immStep n 0x05 (fun q _ => { q with stack := (q.pc + 1) :: q.stack }))
/-- MW_RET. -/
def execMwRet (n : Nat) (s : State) : Host.Outcome State Fault Refusal :=
  s.act (immStep n 0x06 (fun q _ => { q with stack := q.stack.tail }))
/-- MW_LOOP: A − 1, and a jump while it is not 0. -/
def execMwLoop (n : Nat) (s : State) : Host.Outcome State Fault Refusal :=
  s.act (immStep n 0x07 (fun q w => q.putZ (mwA w) (q.reg (mwA w) - 1)))
/-- MW_MOVI. -/
def execMwMovi (n : Nat) (s : State) : Host.Outcome State Fault Refusal :=
  s.act (immStep n 0x08 (fun q w => q.put (mwA w) (BitVec.ofNat 32 (mwImm w))))
/-- MW_MOVH. -/
def execMwMovh (n : Nat) (s : State) : Host.Outcome State Fault Refusal :=
  s.act (immStep n 0x09 (fun q w => q.put (mwA w) (setFld (q.reg (mwA w)) 31 16 (mwImm w))))
/-- MW_MOV. -/
def execMwMov (n : Nat) (s : State) : Host.Outcome State Fault Refusal :=
  s.act (immStep n 0x0A (fun q w => q.put (mwA w) (q.reg (mwB w))))
/-- MW_ADD. -/
def execMwAdd (n : Nat) (s : State) : Host.Outcome State Fault Refusal :=
  s.act (immStep n 0x0B (fun q w => q.putZ (mwA w) (q.reg (mwA w) + q.reg (mwB w))))
/-- MW_SUB. -/
def execMwSub (n : Nat) (s : State) : Host.Outcome State Fault Refusal :=
  s.act (immStep n 0x0C (fun q w => q.putZ (mwA w) (q.reg (mwA w) - q.reg (mwB w))))
/-- MW_AND. -/
def execMwAnd (n : Nat) (s : State) : Host.Outcome State Fault Refusal :=
  s.act (immStep n 0x0D (fun q w => q.putZ (mwA w) (q.reg (mwA w) &&& q.reg (mwB w))))
/-- MW_OR. -/
def execMwOr (n : Nat) (s : State) : Host.Outcome State Fault Refusal :=
  s.act (immStep n 0x0E (fun q w => q.putZ (mwA w) (q.reg (mwA w) ||| q.reg (mwB w))))
/-- MW_XOR. -/
def execMwXor (n : Nat) (s : State) : Host.Outcome State Fault Refusal :=
  s.act (immStep n 0x0F (fun q w => q.putZ (mwA w) (q.reg (mwA w) ^^^ q.reg (mwB w))))
/-- MW_SHL. -/
def execMwShl (n : Nat) (s : State) : Host.Outcome State Fault Refusal :=
  s.act (immStep n 0x10 (fun q w => q.putZ (mwA w) (q.reg (mwA w) <<< (mwImm w % 32))))
/-- MW_SHR. -/
def execMwShr (n : Nat) (s : State) : Host.Outcome State Fault Refusal :=
  s.act (immStep n 0x11 (fun q w => q.putZ (mwA w) (q.reg (mwA w) >>> (mwImm w % 32))))
/-- MW_ADDI. -/
def execMwAddi (n : Nat) (s : State) : Host.Outcome State Fault Refusal :=
  s.act (immStep n 0x12 (fun q w => q.putZ (mwA w) (q.reg (mwA w) + (BitVec.ofNat 16 (mwImm w)).signExtend 32)))
/-- MW_TST. -/
def execMwTst (n : Nat) (s : State) : Host.Outcome State Fault Refusal :=
  s.act (immStep n 0x13 (fun q w => { q with z := decide (q.reg (mwA w) &&& BitVec.ofNat 32 (mwImm w) = 0) }))

/-- MW_LDP (R316): a field of the family table of the routine's die; size code 3 is not stated, so its value is free. -/
def ldpStep (n : Nat) (b : Block) : Block :=
  microStep n 0x14 (fun q w b =>
    let f := dieFamily b n q.routine.die
    let o := mwImm w % 1024
    let sz := mwImm w / 1024 % 4
    let (v, b) : Word × Block :=
      if sz = 0 then (BitVec.ofNat 32 (fam8 b f o), b)
      else if sz = 1 then (BitVec.ofNat 32 (fam16 b f o), b)
      else if sz = 2 then (BitVec.ofNat 32 (fam32 b f o), b)
      else freeOf 32 b
    putSeq n ((q.put (mwA w) v).next (mwCyc w + 1)) b) b

/-- MW_LDP. -/
def execMwLdp (n : Nat) (s : State) : Host.Outcome State Fault Refusal := s.act (ldpStep n)

/-- MW_TMASK (R316, R323): traps are deferred for the next IMM cycles. One within an open region prolongs that region, which goes on
ageing from its own beginning. -/
def execMwTmask (n : Nat) (s : State) : Host.Outcome State Fault Refusal :=
  s.act (microStep n 0x15 (fun q w b =>
    putSeq n { q.next (min 1 q.tmask) with tmask := mwImm w, tmaskAge := if q.tmask = 0 then 0 else q.tmaskAge + 1 } b))

/-- TMASK_FORCED_CLOSE (R323): 24 cycles have passed since a region began, in a wait or a stall too. One that lasts longer is closed by the
lane, which counts it; one of 24 cycles or fewer has run out by itself. Either lets the events that waited be taken. -/
def tmaskForced (n : Nat) (b : Block) : Block :=
  match (lane b n).seq with
  | none => b
  | some q =>
    if q.tmask = 0 ∨ !seqRuns b n then b
    else
      let b := putSeq n { q with tmask := 0, tmaskAge := 0 } b
      if q.tmask + q.tmaskAge ≤ 24 then b else rinc b (laneReg n 0x310) 23 16 1

/-- TMASK_FORCED_CLOSE. -/
def execTmaskForcedClose (n : Nat) (s : State) : Host.Outcome State Fault Refusal := s.act (tmaskForced n)

/-- MW_CE. -/
def execMwCe (n : Nat) (s : State) : Host.Outcome State Fault Refusal :=
  s.act (postStep n 0x20 (fun _ q w => .ce (fld (q.reg (mwA w)) 3 0) (fld (q.reg (mwA w)) 5 4)))
/-- MW_CEOFF. -/
def execMwCeoff (n : Nat) (s : State) : Host.Outcome State Fault Refusal := s.act (postStep n 0x21 (fun _ _ _ => .ceOff))

/-- A command byte after the family's substitution (R234). -/
def cmdByte (b : Block) (n : Nat) (q : Seq) (w : BitVec 33) : Byte :=
  BitVec.ofNat 8 (cmdOverride b (dieFamily b n q.routine.die) (mwImm w % 256))

/-- MW_CMD. -/
def execMwCmd (n : Nat) (s : State) : Host.Outcome State Fault Refusal :=
  s.act (postStep n 0x22 (fun b q w => .cmd (cmdByte b n q w) false))
/-- MW_CONF. -/
def execMwConf (n : Nat) (s : State) : Host.Outcome State Fault Refusal :=
  s.act (postStep n 0x23 (fun b q w => .cmd (cmdByte b n q w) true))
/-- MW_ADR. -/
def execMwAdr (n : Nat) (s : State) : Host.Outcome State Fault Refusal :=
  s.act (postStep n 0x24 (fun _ _ w => .adr [BitVec.ofNat 8 (mwImm w)]))
/-- MW_ADRC. -/
def execMwAdrc (n : Nat) (s : State) : Host.Outcome State Fault Refusal :=
  s.act (postStep n 0x25 (fun b q w => .adr (leBytes (addrCol b (dieFamily b n q.routine.die)) (q.reg (mwA w)).toNat)))
/-- MW_ADRR. -/
def execMwAdrr (n : Nat) (s : State) : Host.Outcome State Fault Refusal :=
  s.act (postStep n 0x26 (fun b q w => .adr (leBytes (addrRow b (dieFamily b n q.routine.die)) (q.reg (mwA w)).toNat)))
/-- MW_TW. -/
def execMwTw (n : Nat) (s : State) : Host.Outcome State Fault Refusal :=
  s.act (postStep n 0x27 (fun b q w => .wait (dieTime b n q.routine.die (mwImm w % 32))))
/-- MW_DLY. -/
def execMwDly (n : Nat) (s : State) : Host.Outcome State Fault Refusal := s.act (postStep n 0x28 (fun _ _ w => .wait (mwImm w)))
/-- MW_DIN. -/
def execMwDin (n : Nat) (s : State) : Host.Outcome State Fault Refusal :=
  s.act (postStep n 0x29 (fun _ q w => .din (q.reg (mwA w)).toNat (q.reg (mwB w)).toNat))
/-- MW_DOUT. -/
def execMwDout (n : Nat) (s : State) : Host.Outcome State Fault Refusal :=
  s.act (postStep n 0x2A (fun _ q w => .dout (q.reg (mwA w)).toNat (q.reg (mwB w)).toNat))
/-- MW_PIN. -/
def execMwPin (n : Nat) (s : State) : Host.Outcome State Fault Refusal :=
  s.act (postStep n 0x2B (fun _ q w => .pin (q.reg (mwA w))))

/-- Core cycles of a number of bytes at the lane's rate (R320). -/
def byteCycles (b : Block) (n bytes : Nat) : Nat := (bytes * 1600 + rateOf b n - 1) / rateOf b n

/-- MW_POUT: the four parameters that the die answers. -/
def execMwPout (n : Nat) (params : Word) (s : State) : Host.Outcome State Fault Refusal :=
  s.act (syncStep n 0x2C (fun b q w => { q.put (mwA w) params with spent := q.spent + byteCycles b n (featBytes b n) }))
/-- The first cycle of a RAW is its confirm (R194). -/
def rawConfirm (n : Nat) (b : Block) : Block :=
  match (lane b n).seq with
  | some q => (match q.routine.purpose with
    | .rawCycle e i _ => updInstr b e i (fun x => { x with confirmed := true })
    | _ => b)
  | none => b

/-- MW_STAT: the status byte that the die answers. -/
def execMwStat (n : Nat) (status : Byte) (s : State) : Host.Outcome State Fault Refusal :=
  s.act (fun b => syncStep n 0x2D (fun b q w => { q.put (mwA w) (status.zeroExtend 32) with spent := q.spent + dieTime b n q.routine.die 2 }) (if syncReady b n 0x2D then rawConfirm n b else b))
/-- MW_WRB: the die is ready, or its limit has expired. -/
def execMwWrb (n : Nat) (expired : Bool) (s : State) : Host.Outcome State Fault Refusal :=
  s.act (fun b => syncStep n 0x2E (fun _ q _ => { q with z := expired }) (if syncReady b n 0x2E then rawConfirm n b else b))

/-- MACHINE_CHECK (R327): the microword at the pc is faulty. -/
def machineCheck (n : Nat) (b : Block) : Block :=
  match (lane b n).seq with
  | none => b
  | some q => if !seqRuns b n ∨ microFault b n q = 0 then b else machineFault n (microFault b n q) b

/-- MACHINE_CHECK. -/
def execMachineCheck (n : Nat) (s : State) : Host.Outcome State Fault Refusal := s.act (machineCheck n)

/-- WATCHDOG_EXPIRY (R327): the micro-routine has run its limit of cycles. -/
def watchdog (n : Nat) (b : Block) : Block :=
  if (lane b n).seq.isNone ∨ !seqRuns b n then b else machineFault n 5 b

/-- WATCHDOG_EXPIRY. -/
def execWatchdogExpiry (n : Nat) (s : State) : Host.Outcome State Fault Refusal := s.act (watchdog n)

/-- The micro-registers at the entry of a routine (R314). -/
def entryRegs (b : Block) (n : Nat) (r : Routine) : Tab Word :=
  let f := dieFamily b n r.die
  let m13 := dieCe b n r.die + dieLun b n r.die * 16 + ofBool (decide (1 < lunsPerCe b f)) * 256
  [(8, r.row), (9, r.col), (10, BitVec.ofNat 32 r.mask), (11, r.bytes), (12, BitVec.ofNat 32 r.ncw), (13, BitVec.ofNat 32 m13),
   (14, r.m14), (15, BitVec.ofNat 32 r.kind)].filter (fun x => decide (x.2 ≠ 0))

/-- The entry that runs next of a routine: the first of the FSET entries still ahead of it, or its own (R318). -/
def Routine.entryOf (r : Routine) : Routine :=
  match r.feats with
  | [] => r
  | x :: _ => featRoutine r x

/-- The sequencer enters a routine (R312, R314). -/
def enterSeq (b : Block) (n : Nat) (r : Routine) (spent : Nat) : Option Seq :=
  (entryWord b n r.entryOf.kind).map (fun w =>
    { routine := r, pc := bitsOf w 13 0, z := false, m := entryRegs b n r.entryOf, stack := [], queue := [], ce := none, tmask := 0, tmaskAge := 0
      dataIn := [], sent := [], ca := [], spent := spent, confirmed := false, pageLoad := false })

/-- The first routine of the frame that may start: one for a die that needs a LUN reset waits for it (R238), but for a DIE.STATUS (R187). -/
def nextRoutine (b : Block) (n : Nat) : Option Routine :=
  (lane b n).frame.find? (fun r => !(die b n r.die).needReset || decide (r.purpose = .lunReset) || r.isStatus)

/-- A lane that samples at boundaries takes what its arbiter holds before it starts the next routine (R326). -/
def holdsEvents (b : Block) (n : Nat) : Bool :=
  !laneTraps b n && ((lane b n).tickDue || !(lane b n).events.isEmpty || !(lane b n).aborts.isEmpty)

/-- MICRO_ROUTINE_START (R312): the next routine of the frame starts, once the lane has read what it needs (R455): a pass with the trim
set of its die's band now (R306) and its codewords on their way to its frames (R281). The first cycle of a RAW holds its die. -/
def microRoutineStart (n : Nat) (b : Block) : Block :=
  if !seqRuns b n || (lane b n).seq.isSome || holdsEvents b n || (lane b n).ps1 || rbit b (laneReg n 0x304) 3 then b
  else
    match nextRoutine b n with
    | none => b
    | some r =>
      if (entryWord b n r.entryOf.kind).isNone then b
      else
        match laneReads n b with
        | (false, b) => b
        | (true, b) =>
          let (x, b) := if r.spent = 0 then issuePass b n r else (r, b)
          let b := updLane b n (fun l => { l with frame := l.frame.erase r, seq := enterSeq b n x r.spent })
          match r.purpose with
          | .rawCycle .. => updDie b n r.die (fun x => { x with raw := true })
          | .pass .. => if r.spent = 0 then loadPass n r b else b
          | _ => b

/-- MICRO_ROUTINE_START. -/
def execMicroRoutineStart (n : Nat) (s : State) : Host.Outcome State Fault Refusal := s.act (microRoutineStart n)

/-- An array operation starts on a die at its confirm. -/
def startOp (b : Block) (n d : Nat) (kind : OpKind) (r : Routine) (unit page mask : Nat) : Block :=
  updDie b n d (fun x => { x with
    op := some ⟨kind, r.purpose, unit, page, mask, now b, 0, 0, false, r.due, r.order, r.service⟩, noSusp := false })

/-- The record of a unit whose first page's first pass is issued is fetched, and written where it is not VALID (R297). -/
def firstPageRecord (n d e i : Nat) (b : Block) (y : Nat × Nat) : Block :=
  match stPage b n d y.2 0, recordAddr b n d y.2 with
  | some p, some a =>
    let c := cw b (p.cws.headD 0)
    let w := cwPepoch c.out + cwPband c.out * 2 ^ 32 + 2 ^ 63
    pushIn b n (mkJob (.recordFetch e i (65536 * d + y.2)) a 8 true (leBytes 8 w))
  | _, _ => b

/-- A die confirm (R322, R194, R120): the instruction is confirmed and its array operation runs; a first pass enters its wordline
(R432, R306), and an erase ends its units' open state (R156). -/
def confirmTaken (n : Nat) (r : Routine) (b : Block) : Block :=
  let d := r.die
  let conf (b : Block) (e i : Nat) : Block := updInstr b e i (fun x => { x with confirmed := true })
  match r.purpose with
  | .readIssue cws =>
    let c := cw b (cws.headD 0)
    startOp (each cws (fun b c => conf b (cw b c).e (cw b c).i) b) n d .read r (paUnit c.pa) (paPage c.pa) r.mask
  | .verifyIssue e i page => startOp (conf b e i) n d .read r (paUnit (iPa (instr b e i).bytes)) page r.mask
  | .pass e i unit wl num =>
    let us := (planeList r.mask unit).map (fun p => (d, onPlane unit p))
    let b := startOp (conf b e i) n d (.pass num) r unit (wl * wlPages b (dieFamily b n d)) r.mask
    if num = 1 then
      let b := each us (fun b y => updOpen b n y.1 y.2 (fun o => { o with conf := if o.conf.contains wl then o.conf else o.conf ++ [wl] })) b
      if wl = 0 then each us (firstPageRecord n d e i) b else b
    else b
  | .eraseIssue e i =>
    let us := eraseUnits (instr b e i).bytes
    let u := (us.head?.map (·.2)).getD 0
    eraseConfirmed (startOp (conf b e i) n d .erase r u 0 r.mask) n us
  | _ => b

/-- A command byte that leaves the die in the middle of a multi-plane or, in a program pass, page-load sequence (R238). -/
def loadsPage (b : Block) (f : Nat) (r : Routine) (x : Byte) : Bool :=
  [cmdOverride b f 0x11, cmdOverride b f 0x32, cmdOverride b f 0xD1].contains x.toNat ||
    (decide (r.kind = 4) && decide (fam8 b f 0x127 = x.toNat))

/-- A command cycle of a routine: the confirm of FEATURE and DIE.STATUS (R194, R236), and the suspend or resume command (R219, R220). -/
def firstCommand (n : Nat) (r : Routine) (b : Block) : Block :=
  match r.purpose with
  | .featSet e i | .featGet e i | .status e i => updInstr b e i (fun x => { x with confirmed := true })
  | .suspendOp => suspendIssued n r.die b
  | .resumeOp => resumeIssued n r.die b
  | _ => b

/-- The entries of the queue that issue no cycle. -/
def CycEntry.silent : CycEntry → Bool
  | .ce .. | .ceOff => true
  | _ => false

/-- A RAW's cycle record whose cycle is a wait for ready (R190): it begins with the chip enable of its routine. -/
def Routine.isRawWait (b : Block) (r : Routine) : Bool :=
  match r.purpose with
  | .rawCycle e i k => decide ((rawRec (instr b e i).bytes k).1 = 5)
  | _ => false

/-- The bytes of P1 to P4 on the bus (R236): each once in SDR and Toggle DDR, twice in the other modes. -/
def pinBytes (b : Block) (n : Nat) (w : Word) : List Byte := (leBytes 4 w.toNat).flatMap (List.replicate (featBytes b n / 4))

/-- The bytes of a list with others written from an offset on. A frame that nothing has written holds what it held before: free bytes
(log entry 3, DESIGN CHOICE). -/
def putBytes (b : Block) (l : List Byte) (off : Nat) (x : List Byte) : List Byte × Block :=
  let (pad, b) := if l.length < off then
      let (v, b) := freeOf (8 * (off - l.length)) b
      (leBytes (off - l.length) v.toNat, b)
    else ([], b)
  let l := l ++ pad
  (l.take off ++ x ++ l.drop (off + x.length), b)

/-- The data of a RAW's DWRITE (R191). -/
def rawData (b : Block) (e i : Nat) : List Byte :=
  ((b.cws.find? (fun x => decide (x.2.e = e ∧ x.2.i = i ∧ x.2.stage = .encode))).map (fun x => x.2.raw)).getD []

/-- What a DIN sends (R316): `k` bytes of the routine's frames from codeword `start` on; none while a pass waits for one of them (R281). -/
def dinBytes (n : Nat) (r : Routine) (k start : Nat) (b : Block) : Option (List Byte × Block) :=
  match r.purpose with
  | .pass .. =>
    (match passOf b n r.die r.purpose with
      | some p =>
        if (passUses b n p k start).any (fun c => p.waits.contains c) then none
        else
          let (l, b) := passBytes b n p k start
          let used := passUses b n p k start
          some (l, updPass b n p (fun q => { q with frames := q.frames.filter (fun c => !used.contains c) }))
      | none => some ([], b))
  | .rawCycle e i _ => some (((rawData b e i).drop (start * cwLen b (dieFamily b n r.die))).take k, b)
  | _ => some ([], b)

/-- The frames that a data-out lands in (R279): one for each codeword of a hard read; a soft read holds its own (R276). -/
def framesWanted (b : Block) (q : Seq) : Nat :=
  match q.routine.purpose with
  | .readOut cws => (cws.filter (fun c => decide ((cw b c).sense = 0) && decide ((cw b c).stage = .array))).length
  | _ => 0

/-- The codewords of a data-out take their frames. -/
def takeFrames (b : Block) (q : Seq) : Block :=
  match q.routine.purpose with
  | .readOut cws => each cws (fun b c => updCw b c (fun x => { x with stage := if x.stage = .array then .transfer else x.stage })) b
  | _ => b

/-- Command and address cycles go out on CA[7:0] where the lane started with SCA, and on the DQ bus otherwise (R231). -/
def onBus (b : Block) (n : Nat) (q : Seq) (l : List Byte) : Seq := if (lane b n).sca then { q with ca := l } else { q with sent := l }

/-- PHY_CYCLE_QUEUE_ENTRY (R313, R316): the PHY executes the entry at the head of the cycle queue. `din` are the bytes that the die
sends in a data-out; one that finds no frame waits, as a data-in waits for its frames (R280, R281). A confirm marker is not taken while a supply warning holds back its
kind of operation (R429). -/
def phyEntry (n : Nat) (din : List Byte) (b : Block) : Block :=
  match (lane b n).seq with
  | none => b
  | some q =>
    let r := q.routine
    let d := r.die
    let t (i : Nat) : Nat := dieTime b n d i
    match q.queue with
    | [] => b
    | x :: rest =>
      let q := { q with queue := rest }
      if !seqRuns b n then b
      else
        let b := if x.silent && !r.isRawWait b then b else rawConfirm n b
        match x with
        | .ce c l => putSeq n { q with ce := some (c, l), spent := q.spent + t 0 } b
        | .ceOff => putSeq n { q with ce := none, spent := q.spent + t 1 } b
        | .cmd y conf =>
          if conf && warnStops b r then b
          else
            let q := { onBus b n q [y] with
              spent := q.spent + t 2, confirmed := q.confirmed || conf
              pageLoad := !conf && (q.pageLoad || loadsPage b (dieFamily b n d) r y) }
            let b := if r.feats.isEmpty || r.isFeatSet then firstCommand n r (if conf then confirmTaken n r b else b) else b
            putSeq n q b
        | .adr l => putSeq n { onBus b n q l with spent := q.spent + l.length * t 2 } b
        | .wait c => putSeq n { q with spent := q.spent + c } b
        | .din k c =>
          (match dinBytes n r k c b with
            | none => b
            | some (l, b) => framesFreed n (putSeq n { q with sent := l, spent := q.spent + byteCycles b n k } b))
        | .dout k c =>
          if din.length ≠ k then b
          else
            let b := releaseHeld n (framesWanted b q) b
            if framesFree b n < framesWanted b q then b
            else
              let (l, b) := putBytes b q.dataIn (c * cwLen b (dieFamily b n d)) din
              putSeq n { q with dataIn := l, spent := q.spent + byteCycles b n k } (takeFrames b q)
        | .pin w => putSeq n { q with sent := pinBytes b n w, spent := q.spent + byteCycles b n (featBytes b n) } b

/-- PHY_CYCLE_QUEUE_ENTRY. -/
def execPhyCycleQueueEntry (n : Nat) (din : List Byte) (s : State) : Host.Outcome State Fault Refusal := s.act (phyEntry n din)

/-- A read operation of a die is over once nothing of it is left to be moved out. -/
def readOver (n d : Nat) (b : Block) : Block :=
  let left := ((lane b n).todo ++ placedRoutines b n).any (fun r => decide (r.die = d) && (match r.purpose with
    | .readOut _ | .verifyOut .. => true
    | _ => false))
  if left then b else resumeCheck n d (updDie b n d (fun x => { x with op := none }))

/-- The state of a die as DIE.STATUS gives it (R187): training once a TRAIN or a retraining runs on it. -/
def dieState (b : Block) (n d : Nat) : Nat :=
  let x := die b n d
  if x.raw then 5
  else if x.op.isSome then 1
  else if opErases x.susp then 3 else if x.susp.isSome then 2
  else if trainRuns b n d then 4 else 0

/-- AUX and RESULT of a DIE.STATUS (R187). -/
def dieStatusResult (b : Block) (n d st : Nat) : Word64 × Word64 :=
  let x := die b n d
  let o := match x.op with
    | some o => some o
    | none => x.susp
  let pa := match o with
    | some o => mkPa n d o.unit o.page 0
    | none => 0
  let temp := match dieReading b n d with
    | some t => (BitVec.ofInt 8 t).toNat
    | none => 0x80
  let units := ((lane b n).opens.filter (fun o => decide (o.die = d))).length
  let susps := (o.map (fun o => o.susps)).getD 0
  (BitVec.ofNat 64 pa, BitVec.ofNat 64 (st + dieState b n d * 2 ^ 8 + temp * 2 ^ 16 + dieBand b n d * 2 ^ 24 + min susps 65535 * 2 ^ 32 +
    min units 255 * 2 ^ 48))

/-- DIE.STATUS ends (R187). -/
def dieStatusDone (b : Block) (n e i st : Nat) (ok : Bool) : Block :=
  let x := dieStatusResult b n (paDie (iPa (instr b e i).bytes)) st
  let b := updInstr b e i (fun r => { r with result := some x.1, aux := x.2 })
  if ok then finishInstr b e i stOk 0 else finishInstr b e i stAborted 2

/-- The status read of an operation that has ended (R240), for one plane of it: with several LUNs on the chip enable the enhanced form
names a unit, otherwise one read answers for all. -/
def opStatusRoutine (b : Block) (n d p : Nat) (o : DieOp) : Routine :=
  let u := onPlane o.unit p
  { laneRoutine b n 10 d .opStatus with
    row := BitVec.ofNat 32 (rowAddress b (dieFamily b n d) (dieLun b n d) u o.page), mask := 2 ^ p
    due := o.due, order := o.order, service := o.service }

/-- A program or erase reports (R240, R144, R148, R157): bit 0 of its status, or bit 7 clear, is a failure. Each plane is read in turn
where a status read names a unit; the first that fails decides. -/
def opReported (n d mask : Nat) (st : Word) (b : Block) : Block :=
  match (die b n d).op with
  | none => b
  | some o =>
    let fail := st.getLsbD 0 || !st.getLsbD 7
    let planes := planeList o.mask o.unit
    let k := planes.findIdx (fun p => decide (2 ^ p = mask))
    if !fail && decide (1 < lunsPerCe b (dieFamily b n d)) && decide (k + 1 < planes.length) then
      addTodo b n (opStatusRoutine b n d (planes.getD (k + 1) 0) o)
    else
      let b := updDie b n d (fun x => { x with op := none })
      match o.purpose with
      | .pass .. =>
        (match passOf b n d o.purpose with
          | some p => if fail then passFailed b n p else passPassed b n p
          | none => b)
      | .eraseIssue e i => if fail then eraseEnded b n e i stEraseFailed 0 (if k < planes.length then k else 0) else eraseEnded b n e i stOk 0 0
      | _ => b

/-- Codewords moved out of a die land in their frames. -/
def landAll (n len : Nat) (cws : List Nat) (data : List Byte) (b : Block) : Block :=
  (cws.zipIdx.filter (fun x => cwLive b x.1)).foldl (fun b x => cwLanded n b (x.1, (data.drop (len * x.2)).take len)) b

/-- A RAW stops without issuing a further cycle (R192). -/
def rawStopped (b : Block) (n d e i st det : Nat) : Block := finishInstr (endRaw b n d e i) e i st det

/-- A cycle record of a RAW has run (R190, R192). -/
def rawCycled (n : Nat) (q : Seq) (e i k : Nat) (b : Block) : Block :=
  let x := (instr b e i).bytes
  let r := rawRec x k
  let b := dropRawData b e i
  if (instr b e i).phase ≠ .active then updDie b n q.routine.die (fun y => { y with raw := false })
  else if r.1 = 4 then
    pushOut b n (mkJob (.rawOut e i) (iAddr x + rawOffset x k) (64 * r.2) (entrySec b e) (q.dataIn.take (64 * r.2)))
  else if r.1 = 5 ∧ q.z then rawStopped b n q.routine.die e i stAborted 2
  else if r.1 = 7 then
    rawStep n e i (k + 1) (updInstr b e i (fun y => { y with aux := y.aux ||| BitVec.ofNat 64 (fld (q.reg 0) 7 0 * 2 ^ (8 * rawStats x k)) }))
  else rawStep n e i (k + 1) b

/-- A status or feature operation has ended within its limit (R243); a poll is part of the operation it waits for. -/
def Routine.clearsCount (r : Routine) : Bool :=
  match r.purpose with
  | .status .. | .opStatus | .featSet .. | .featGet .. => true
  | _ => false

/-- What the end of a micro-routine brings. -/
def routineEnd (n : Nat) (q : Seq) (b : Block) : Block :=
  let r := q.routine
  let d := r.die
  let b := if r.clearsCount then updDie b n d (fun x => { x with consec := 0 }) else b
  match r.purpose with
  | .readOut cws => readOver n d (landAll n (cwLen b (dieFamily b n d)) cws q.dataIn b)
  | .verifyOut e i page => readOver n d (verifyCounted n e i page (zeroBits q.dataIn) b)
  | .poll => if (q.reg 0).getLsbD 6 then updLane b n (fun l => { l with events := l.events ++ [(d, true)] }) else b
  | .status e i => if (instr b e i).phase = .active then dieStatusDone b n e i (fld (q.reg 0) 7 0) true else b
  | .opStatus => resumeCheck n d (opReported n d r.mask (q.reg 0) b)
  | .featSet e i | .featGet e i =>
    if (instr b e i).phase = .active then finishAux b e i stOk 0 ((q.reg 0).zeroExtend 64) else b
  | .lunReset => updDie b n d (fun x => { x with needReset := false, feats := [] })
  | .rawCycle e i k => rawCycled n q e i k b
  | .pass .. => unloadPass n r b
  | .suspendOp | .resumeOp | .readIssue _ | .eraseIssue .. | .verifyIssue .. => b

/-- A routine has ended: the cycles that it has not spent are free (R324), a tick that waited for it is taken, and where it ended sooner
than declared the frame is topped up (R204, R326). -/
def afterRoutine (n : Nat) (r : Routine) (spent : Nat) (b : Block) : Block :=
  let b := framesFreed n (tickTaken n (freeCycles n r spent b))
  if spent < r.len then topUp n b else b

/-- MW_END (R313, R318): with the queue drained and the chip enable released, the next entry of the routine starts, or the routine
ends. A lane that samples at boundaries first takes what its arbiter holds (R326): the rest of the routine stands at the head of its
frame meanwhile. -/
def endEntry (n : Nat) (q : Seq) (b : Block) : Block :=
  let spent := q.spent + (if q.ce.isSome then dieTime b n q.routine.die 1 else 0)
  match q.routine.feats with
  | _ :: rest =>
    let r := { q.routine with feats := rest, spent := spent }
    if holdsEvents b n then tickTaken n (updLane b n (fun l => { l with seq := none, frame := r :: l.frame }))
    else
      (match enterSeq b n r spent with
        | some q' => putSeq n q' b
        | none => b)
  | [] => afterRoutine n q.routine spent (routineEnd n { q with spent := spent } (updLane b n (fun l => { l with seq := none })))

/-- MW_END. -/
def execMwEnd (n : Nat) (s : State) : Host.Outcome State Fault Refusal :=
  s.act (microStep n 0x01 (fun q _ b => if q.queue.isEmpty then endEntry n q b else b))

end Sys2Proof.Machine
end

