-- ==== Sys2Proof/Machine/Die.lean ====
section
/-! DEFINITION. The dies of a lane: ready events and polls (R239), time limits (R241 to R243), temperatures and bands (R244, R288 to
R291), training (R246 to R249), the start of a lane (R229, R245), PS1 and slip events. -/

namespace Sys2Proof.Machine

open Sys2Proof

/-- The board temperature is not stale (R36). -/
def boardFresh (b : Block) : Bool :=
  match b.boardAt with
  | some t => decide (now b < t + rfld b 0x118 31 16 * 1024)
  | none => false

/-- A die's temperature for band selection (R288). -/
def dieTemp (b : Block) (n d : Nat) : Option Int :=
  let board : Option Int := if boardFresh b then some (sbyte (rfld b 0x118 7 0)) else none
  match dieReading b n d with
  | some t => some t
  | none =>
    match blockTemp b, board with
    | some x, some y => some (max (x - (rfld b 0x408 5 0 : Nat)) y)
    | some x, none => some (x - (rfld b 0x408 5 0 : Nat))
    | none, y => y

/-- Lower boundary j of band Tj, j from 1 to 7 (R289). -/
def bandBound (b : Block) (j : Nat) : Int :=
  if j ≤ 4 then sbyte (rfld b 0x400 (8 * j - 1) (8 * j - 8)) else sbyte (rfld b 0x404 (8 * (j - 4) - 1) (8 * (j - 4) - 8))

/-- The highest j in 1 to 7 with t ≥ B[j] − h, else 0. -/
def bandOf (b : Block) (t : Int) (h : Nat) : Nat :=
  ((List.range' 1 7).filter (fun j => decide (bandBound b j - (h : Int) ≤ t))).foldl max 0

/-- The block's refresh band follows a die in service (R311). -/
def noteBand (b : Block) (n d : Nat) : Block := if dieInService b n d && !dieOffline b n d then rmax b 0x454 2 0 (dieBand b n d) else b

/-- A die's temperature has been worked out: its band follows (R289), and a change makes a retraining due (R248, R249). -/
def evalBand (n d : Nat) (b : Block) : Block :=
  match dieTemp b n d with
  | none => noteBand b n d
  | some t =>
    let old := dieBand b n d
    let up := bandOf b t 0
    let down := bandOf b t (rfld b 0x404 27 24)
    let new := if !(die b n d).banded then up else if old < up then up else if down < old then down else old
    let first := !(die b n d).banded
    let b := updDie (setMap b n d 18 16 new) n d (fun x => { x with
      banded := true
      retrain := if new ≠ old ∧ !first ∧ rbit b (laneReg n 0x220) 0 ∧ dieInService b n d then some (x.retrain.getD (now b))
        else x.retrain })
    noteBand b n d

/-- The die's ready events come from its RB_n alone (R239): it has its chip enable to itself, and the family sets RB_USE. -/
def rbEvents (b : Block) (n d : Nat) : Bool :=
  let f := dieFamily b n d
  decide (lunsPerCe b f ≤ 1) && famOption b f 4

/-- A poll of a die is placed unless one already waits (R239). -/
def placePoll (n d : Nat) (b : Block) : Block :=
  if rbEvents b n d || !(dieRuns (die b n d) || (die b n d).suspending) ||
      ((lane b n).todo ++ placedRoutines b n).any (fun r => decide (r.die = d ∧ r.purpose = .poll)) then b
  else topUpOne n (laneRoutine b n 3 d .poll) b

/-- STATUS_POLL (R239). -/
def statusPoll (n d : Nat) (b : Block) : Block := if lanePlaces b n then placePoll n d b else b

/-- STATUS_POLL. -/
def execStatusPoll (n d : Nat) (s : State) : Host.Outcome State Fault Refusal := s.act (statusPoll n d)

/-- RB_N_CHANGE (R239): a filtered rise of RB_n is a die-ready event where the chip enable has one LUN and the family sets RB_USE;
elsewhere it starts the polls of the dies that run an operation. The event waits in the arbiter whether or not the lane places work. -/
def rbChange (n ce : Nat) (level : Bool) (b : Block) : Block :=
  if !level || b.inReset || !laneStarted b n then b
  else each ((validDies b n).filter (fun d => decide (dieCe b n d = ce))) (fun b d =>
    if rbEvents b n d then updLane b n (fun l => { l with events := l.events ++ [(d, true)] })
    else statusPoll n d b) b

/-- RB_N_CHANGE. -/
def execRbNChange (n ce : Nat) (level : Bool) (s : State) : Host.Outcome State Fault Refusal := s.act (rbChange n ce level)

/-- Codewords of one plane and one instruction in runs of consecutive slots: each run is moved out by one data-out. -/
def slotRuns (b : Block) : List Nat → List (List Nat)
  | [] => []
  | c :: rest =>
    match slotRuns b rest with
    | (x :: xs) :: more =>
      if paUnit (cw b c).pa = paUnit (cw b x).pa ∧ paSlot (cw b x).pa = paSlot (cw b c).pa + 1 ∧ (cw b c).e = (cw b x).e ∧
          (cw b c).i = (cw b x).i then (c :: x :: xs) :: more
      else [c] :: (x :: xs) :: more
    | l => [c] :: l

/-- The data-out of a run of codewords (R236, R314). -/
def outRoutine (b : Block) (n d : Nat) (cws : List Nat) : Routine :=
  let c := cw b (cws.headD 0)
  let f := dieFamily b n d
  { mkRoutine b n 2 d c.e c.i (.readOut cws) with
    row := BitVec.ofNat 32 (rowAddress b f (dieLun b n d) (paUnit c.pa) (paPage c.pa))
    col := BitVec.ofNat 32 (paSlot c.pa * cwLen b f)
    mask := 2 ^ (paUnit c.pa % 8)
    bytes := BitVec.ofNat 32 (cws.length * cwLen b f)
    ncw := cws.length }

/-- A status read of an operation that has ended (R240). -/
def placeOpStatus (n d : Nat) (b : Block) : Block :=
  match (die b n d).op with
  | none => b
  | some o => addTodo b n (opStatusRoutine b n d ((planeList o.mask o.unit).headD 0) o)

/-- An array operation has ended within its limit (R214, R243): its data-out, or its status read, becomes placeable. -/
def opReady (n d : Nat) (o : DieOp) (b : Block) : Block :=
  let b := updDie b n d (fun x => { x with op := some { o with ready := true }, noSusp := false, consec := 0 })
  match o.purpose with
  | .readIssue cws =>
    let live := cws.filter (fun c => cwLive b c && (decide ((cw b c).stage = .array) || decide ((cw b c).stage = .softSense)))
    let b := each live (fun b c => updCw b c (fun x => { x with limitHits := 0 })) b
    if live.isEmpty then readOver n d b
    else each (slotRuns b live) (fun b run => addTodo b n (outRoutine b n d run)) b
  | .verifyIssue e i page =>
    let a := iPa (instr b e i).bytes
    let f := dieFamily b n d
    addTodo b n { mkRoutine b n 2 d e i (.verifyOut e i page) with
      row := BitVec.ofNat 32 (rowAddress b f (dieLun b n d) (paUnit a) page), mask := 2 ^ (paUnit a % 8)
      bytes := BitVec.ofNat 32 (pageBytes b f), ncw := cppOf b f }
  | _ => placeOpStatus n d b

/-- What a die's ready event brings (R214, R219, R221): a suspend command has taken effect, and the resume is decided first; or the
operation has ended. The time of a suspension counts from here (R220; log entry 112, DEDUCED). -/
def dieEvent (n d : Nat) (b : Block) : Block :=
  let x := die b n d
  match x.op with
  | none => b
  | some o =>
    if o.ready then b
    else if x.suspending then
      resumeCheck n d (updDie b n d (fun y => { y with op := none, susp := some o, suspending := false, suspAt := now b, consec := 0 }))
    else opReady n d o b

/-- DIE_READY (R204, R239): the lane's event arbiter takes a die's ready event, which wakes the lane (R212), and tops up the frame. -/
def dieReady (n d : Nat) (b : Block) : Block :=
  if !laneRuns b n || eventsWait b n || !((lane b n).events.contains (d, true)) then b
  else
    topUp n (dieEvent n d (wakeLane (takeTrap n (updLane b n (fun l => { l with events := l.events.erase (d, true) }))) n))

/-- DIE_READY. -/
def execDieReady (n d : Nat) (s : State) : Host.Outcome State Fault Refusal := s.act (dieReady n d)

/-- An instruction that names an offline die completes INVALID_FIELD (R243): staged pages stay, its passes do not. -/
def offlineInstr (n : Nat) (b : Block) (y : Nat × Nat) : Block :=
  match offlineAt b n y.1 y.2 with
  | none => b
  | some o =>
    let b := if (lane b n).pages.any (fun p => ownsPage b y.1 y.2 p && p.staged) then
        updLane (dropServing n y.1 y.2 b) n (fun l => { l with
          passes := l.passes.filter (fun p => !decide (p.e = y.1 ∧ p.i = y.2)) })
      else dropInstr n y.1 b y.2
    finishInvalid (dropReaders b y.1 y.2) y.1 y.2 o 4

/-- A die goes offline (R243), and so out of service: TRAINED clears (R233), and no retraining of it is due. A TRAIN of all dies that waits
for it counts it as failed (R189). -/
def goOffline (n d : Nat) (b : Block) : Block :=
  let b := raiseLaneErr (rclr1 (rset1 b (laneReg n (0x400 + 4 * d)) 13) (laneReg n (0x400 + 4 * d)) 14) n
  let b := dropRoutines n (fun r => decide (r.die = d)) b
  let b := updDie b n d (fun x => { x with
    op := none, susp := none, suspending := false, raw := false, needReset := false, waitSusp := none, training := false, retrain := none })
  let all := (lane b n).pool.flatMap (fun e => (List.range (entry b e).instrs.length).filterMap (fun i =>
    if (instr b e i).phase ≠ .held ∧ (instr b e i).isOpen then some (e, i) else none))
  let b := match trainInstr b n d with
    | some x => if iOpt (instr b x.1 x.2).bytes 0 then trainNext n d false [] b else b
    | none => b
  startPasses n (each all (offlineInstr n) b)

/-- The code of a limit (LN_DIE_ERR.KIND). -/
def LimitKind.code : LimitKind → Nat
  | .read => 0 | .pass => 1 | .erase => 2 | .suspend => 3 | .status => 4 | .feature => 5 | .training => 6 | .reset => 7

/-- An expiry is counted; at DIE_TO_MAX in a row, or at a reset's expiry, the die goes offline (R243). -/
def countExpiry (n d : Nat) (kind : LimitKind) (b : Block) : Block :=
  let c := (die b n d).consec + 1
  let b := updDie b n d (fun x => { x with consec := c })
  let b := rinc b (laneReg n 0x208) 23 16 1
  let a := laneReg n 0x20C
  let b := rputF (rputF (rputF b a 5 0 d) a 10 8 (LimitKind.code kind)) a 23 16 (min c 255)
  if max 1 (rfld b (laneReg n 0x208) 3 0) ≤ c ∨ kind = .reset then goOffline n d b else b

/-- A LUN reset ends a suspended operation as if its own limit had expired (R242). -/
def endSuspended (n d : Nat) (b : Block) : Block :=
  match (die b n d).susp with
  | none => b
  | some o =>
    let b := updDie b n d (fun x => { x with susp := none })
    match o.purpose with
    | .pass .. =>
      (match passOf b n d o.purpose with
        | some p => passExpired b n p
        | none => b)
    | .eraseIssue e i => eraseEnded b n e i stEraseFailed 1 0
    | _ => b

/-- A read's limit has expired (R241): the read is issued once more, or ended at its second expiry. -/
def readLimit (n d : Nat) (o : DieOp) (b : Block) : Block :=
  let b := updDie b n d (fun x => { x with op := none })
  match o.purpose with
  | .readIssue cws =>
    let live := cws.filter (cwLive b)
    if live.any (fun c => decide ((cw b c).limitHits ≠ 0)) then readsExpired n live b
    else
      issueRead n (each live (fun b c => updCw b c (fun x =>
        { x with stage := if x.sense = 0 then .issue else .softSense, limitHits := 1, retry := x.retry + 1 })) b) live
  | .verifyIssue e i page =>
    if (instr b e i).left = 0 then verifyRead n e i page (updInstr b e i (fun r => { r with left := 1, retry := r.retry + 1 }))
    else verifyCounted n e i page 65535 b
  | _ => b

/-- The running micro-routine of a die, where a test holds of it. -/
def runningOn (b : Block) (n d : Nat) (p : Seq → Bool) : Option Seq :=
  (lane b n).seq.filter (fun q => decide (q.routine.die = d) && p q)

/-- The routine is running a feature command of its own or one that precedes it. -/
def inFeature (q : Seq) : Bool :=
  !q.routine.feats.isEmpty || (match q.routine.purpose with
    | .featSet .. | .featGet .. => true
    | _ => false)

/-- The routine reads a status. -/
def inStatus (q : Seq) : Bool :=
  match q.routine.purpose with
  | .status .. | .poll | .opStatus => true
  | _ => false

/-- The micro-routine in progress ends without its result. -/
def stopSeq (n : Nat) (b : Block) : Block :=
  match (lane b n).seq with
  | none => b
  | some q => tickTaken n (freeCycles n q.routine q.spent (unloadPass n q.routine (updLane b n (fun l => { l with seq := none }))))

/-- A routine whose status read had no answer (R241): a poll counts as not ready, DIE.STATUS ends, a result is read again. -/
def statusLimit (n d : Nat) (q : Seq) (b : Block) : Block :=
  let b := stopSeq n b
  match q.routine.purpose with
  | .status e i => if (instr b e i).phase = .active then dieStatusDone b n e i 0 false else b
  | .opStatus => placeOpStatus n d b
  | _ => b

/-- A feature command that the die did not finish (R241, R186): its instruction ends ABORTED, or the routine it preceded is placed
again. -/
def featureLimit (n d : Nat) (q : Seq) (b : Block) : Block :=
  let b := needLunReset (endSuspended n d (stopSeq n b)) n d
  match q.routine.purpose with
  | .featSet e i | .featGet e i => if (instr b e i).phase = .active then finishInstr b e i stAborted 2 else b
  | _ => putBack n q.routine b

/-- A training whose time limit has run out, or whose windows are too narrow, has failed (R246, R189). -/
def trainFailed (n d : Nat) (b : Block) : Block :=
  rputF (rinc b (laneReg n 0x224) 15 8 1) (laneReg n 0x224) 23 16 d

/-- The windows of a training are complete and wide enough (R246): DQ0 to DQ7 and DQS, read, then write where the family trains it. -/
def windowsGood (b : Block) (f : Nat) (l : List (Nat × Nat)) : Bool :=
  decide (9 * (1 + ofBool (famOption b f 7)) ≤ l.length) && l.all (fun w => decide (fam8 b f 0x222 ≤ w.2))

/-- An entry run for a die of a lane. -/
def enteredAt (b : Block) (n d kind arg : Nat) : Entered :=
  ⟨some d, dieCe b n d, kind, arg, arg, BitVec.ofNat 32 (rowAddress b (dieFamily b n d) (dieLun b n d) 0 0), 0, 0⟩

/-- The entries a lane has run for a die are noted. -/
def noteSteps (n : Nat) (l : List Entered) (b : Block) : Block := updLane b n (fun x => { x with steps := x.steps ++ l })

/-- The entries noted for a die are forgotten. -/
def clearSteps (n d : Nat) (b : Block) : Block :=
  updLane b n (fun x => { x with steps := x.steps.filter (fun s => decide (s.die ≠ some d)) })

/-- The entries that training a die runs (R246, R318): ZQ calibration, long or short, where the family sets ZQ; duty-cycle training
where it sets DCC, of which the spec gives no number of steps (log entry 96); read DQ training, a step for each delay from 0 to 255; and
write DQ training likewise where it sets WR_TRAIN. -/
def trainSteps (b : Block) (n d : Nat) (zq : Option Nat) : List Entered :=
  let f := dieFamily b n d
  (match zq with
    | some k => if famOption b f 5 then [enteredAt b n d 15 k] else []
    | none => []) ++ (if famOption b f 6 then [enteredAt b n d 16 0] else []) ++ [{ enteredAt b n d 17 0 with last := 255 }] ++
    (if famOption b f 7 then [{ enteredAt b n d 18 0 with last := 255 }] else [])

/-- The ZQ calibration before a training of a die in service (R246, R248): long for a TRAIN with ZQ set, short on a band change where
LN_TRAIN_CFG.ZQ_ON_BAND is set. -/
def trainZq (b : Block) (n d : Nat) : Option Nat :=
  match trainInstr b n d with
  | some x => if iOpt (instr b x.1 x.2).bytes 1 then some 0 else none
  | none => if rbit b (laneReg n 0x220) 1 then some 1 else none

/-- A die takes the outcome of its training (R246, R189): the centres of its windows, or its previous delays. -/
def takeTraining (n d : Nat) (zq : Option Nat) (windows : List (Nat × Nat)) (b : Block) : Block :=
  let b := noteSteps n (trainSteps b n d zq) b
  if windowsGood b (dieFamily b n d) windows then
    let mk (f : Nat × Nat → Nat) : Tab Nat := windows.zipIdx.map (fun w => (w.2 % 9 + 16 * (w.2 / 9), f w.1))
    let b := updDie b n d (fun x => { x with delays := mk (fun w => w.1), eyes := mk (fun w => w.2), retrain := none, training := false })
    rset1 (rinc b (laneReg n 0x224) 7 0 1) (laneReg n (0x400 + 4 * d)) 14
  else trainFailed n d (updDie b n d (fun x => { x with retrain := none, training := false }))

/-- DIE_TRAIN (R189, R246, R249): a TRAIN's die, or one whose band has changed, is trained; `windows` is what the sweep found. -/
def dieTrain (n d : Nat) (windows : List (Nat × Nat)) (b : Block) : Block :=
  if !trainRuns b n d then b
  else
    let b := beginTrain n b d
    let ok := windowsGood b (dieFamily b n d) windows
    let zq := trainZq b n d
    trainNext n d ok windows (takeTraining n d zq windows (clearSteps n d (updDie b n d (fun x => { x with consec := 0 }))))

/-- DIE_TRAIN. -/
def execDieTrain (n d : Nat) (windows : List (Nat × Nat)) (s : State) : Host.Outcome State Fault Refusal :=
  s.act (dieTrain n d windows)

/-- OPERATION_TIME_LIMIT (R241 to R243): a limit of die d has run out. -/
def timeLimit (n d : Nat) (kind : LimitKind) (b : Block) : Block :=
  let x := die b n d
  if !laneRuns b n then b
  else
    let reset (b : Block) : Block := needLunReset (endSuspended n d b) n d
    match kind with
    | .read => (match x.op with
        | some o => if o.kind = .read ∧ !o.ready then (countExpiry n d kind (readLimit n d o (reset b))) else b
        | none => b)
    | .pass => (match x.op with
        | some o =>
          if opPrograms x.op ∧ !o.ready ∧ !x.suspending then
            let b := reset (updDie b n d (fun y => { y with op := none }))
            let b := match passOf b n d o.purpose with
              | some p => passExpired b n p
              | none => b
            (countExpiry n d kind b)
          else b
        | none => b)
    | .erase => (match x.op with
        | some o =>
          if o.kind = .erase ∧ !o.ready ∧ !x.suspending then
            let b := reset (updDie b n d (fun y => { y with op := none }))
            let b := match o.purpose with
              | .eraseIssue e i => eraseEnded b n e i stEraseFailed 1 0
              | _ => b
            (countExpiry n d kind b)
          else b
        | none => b)
    | .suspend =>
      if x.suspending then (countExpiry n d kind (updDie b n d (fun y => { y with suspending := false, noSusp := true }))) else b
    | .status => (match runningOn b n d inStatus with
        | some q => (countExpiry n d kind (statusLimit n d q b))
        | none => b)
    | .feature => (match runningOn b n d inFeature with
        | some q => (countExpiry n d kind (featureLimit n d q b))
        | none => b)
    | .training =>
      if trainRuns b n d then
        let b := trainFailed n d (updDie (beginTrain n b d) n d (fun y => { y with retrain := none, training := false }))
        (countExpiry n d kind (trainNext n d false [] (needLunReset b n d)))
      else b
    | .reset =>
      if x.needReset then
        let b := match runningOn b n d (fun q => decide (q.routine.purpose = .lunReset)) with
          | some _ => stopSeq n b
          | none => b
        (countExpiry n d kind b)
      else b

/-- OPERATION_TIME_LIMIT. -/
def execOperationTimeLimit (n d : Nat) (kind : LimitKind) (s : State) : Host.Outcome State Fault Refusal :=
  s.act (timeLimit n d kind)

/-- DIE_TEMP_POLL (R244, R39): an idle or suspended die's temperature has been read by GET FEATURES; a reading outside −40 to 125 °C is left
out, and the die falls back to the block's temperature. -/
def dieTempPoll (n d : Nat) (t : Int) (b : Block) : Block :=
  let x := die b n d
  if !lanePlaces b n || (lane b n).ps1 || !dieInService b n d || dieOffline b n d || x.op.isSome || x.suspending || x.raw || x.training ||
      decide (fam8 b (dieFamily b n d) 0x220 = 0) then b
  else
    let p1 : BitVec 8 := BitVec.ofInt 8 t
    let get := { enteredAt b n d 9 (featForm b n d (fam8 b (dieFamily b n d) 0x220)) with result := p1.zeroExtend 64 }
    let ok := decide (-40 ≤ t) && decide (t ≤ 125)
    evalBand n d (updDie (noteSteps n [get] (clearSteps n d b)) n d (fun x => { x with temp := if ok then some t else none, tempAt := now b }))

/-- DIE_TEMP_POLL. -/
def execDieTempPoll (n d : Nat) (reading : Int) (s : State) : Host.Outcome State Fault Refusal := s.act (dieTempPoll n d reading)

/-- RETRAIN_DEFER_EXPIRY (R249): a retraining held back for DEFER ticks holds its die from now on. -/
def retrainExpiry (n d : Nat) (b : Block) : Block :=
  match (die b n d).retrain with
  | none => b
  | some t =>
    if now b < t + rfld b (laneReg n 0x220) 15 8 ∨ !lanePlaces b n then b
    else updDie b n d (fun x => { x with training := true })

/-- RETRAIN_DEFER_EXPIRY. -/
def execRetrainDeferExpiry (n d : Nat) (s : State) : Host.Outcome State Fault Refusal := s.act (retrainExpiry n d)

/-- The modes that LN_PHY_CFG.MODE names (R229), and the bit of a family's MODES mask. -/
def modeBit (m : Nat) : Option Nat := if m ≤ 4 then some m else if m = 8 then some 7 else none

/-- The first configuration failure of a lane's start (R229), 0 for none. -/
def cfgErr (b : Block) (n : Nat) : Nat :=
  let fs := laneFamilies b n
  let cfg := rget b (laneReg n 0x200)
  let rate := fld cfg 20 8
  let dies := validDies b n
  let pairs := dies.map (fun d => (dieCe b n d, dieLun b n d))
  if !fs.all (familyGood b) then 6
  else match modeBit (fld cfg 3 0) with
    | none => 1
    | some m =>
      if !fs.all (fun f => (fam8 b f 0x60).testBit m) then 1
      else if 6400 < rate ∨ !fs.all (fun f => decide (rate ≤ fam16 b f 0x62)) then 2
      else if !fs.all (fun f => decide (fam8 b f 0x61 = rfld b (juncReg (n / 8) 0x100) 0 0)) then 3
      else if cfg.getLsbD 4 && !fs.all (fun f => famOption b f 0) then 4
      else if !decide pairs.Nodup || !dies.all (fun d => decide (dieLun b n d < lunsPerCe b (dieFamily b n d))) then 5
      else if !dies.all (fun d => dies.all (fun e => decide (dieCe b n d ≠ dieCe b n e ∨ dieFamily b n d = dieFamily b n e))) then 7
      else 0

/-- The entry kinds that a lane needs (R321). -/
def kindsNeeded (b : Block) (n : Nat) : List Nat :=
  let fs := laneFamilies b n
  [0, 2, 3, 4, 5, 8, 9, 10, 11, 12, 13, 15, 16, 17, 18] ++ (if fs.any (fun f => famOption b f 2) then [1] else []) ++
    (if fs.any (fun f => famOption b f 3) then [14] else []) ++ (if fs.any (fun f => decide (fam8 b f 0x180 % 4 ≠ 0)) then [6, 7] else [])

/-- The entries that identify a valid die (R245, R318): the two ID reads, the first of which answers what is compared, and the parameter
page where the family sets PARAM_PAGE. What the die answers at 0x20 is a free value (log entry 96). -/
def idSteps (b : Block) (n d : Nat) (id : Word64) : List Entered × Block :=
  let (v, b) := freeOf 64 b
  ([{ enteredAt b n d 13 0 with result := id }, { enteredAt b n d 13 0x20 with result := v }] ++
    (if famOption b (dieFamily b n d) 3 then [enteredAt b n d 14 0] else []), b)

/-- The SET FEATURES that configure an identified die (R245, R255): each address of FEAT_INIT with its P1. -/
def initFeats (b : Block) (n d : Nat) : List Entered :=
  let f := dieFamily b n d
  (List.range 3).map (fun k =>
    { enteredAt b n d 8 (featForm b n d (fam8 b f (0x6C + 2 * k))) with bytes := BitVec.ofNat 32 (fam8 b f (0x6D + 2 * k)) })

/-- The entries with which a start begins (R245, R238): the LUN resets still due, and a reset of each chip enable named, in increasing
order. -/
def resetSteps (b : Block) (n : Nat) : List Entered :=
  ((validDies b n).filter (fun d => (die b n d).needReset)).map (fun d => enteredAt b n d 11 0) ++
    ((List.range 16).filter (fun c => (validDies b n).any (fun d => decide (dieCe b n d = c)))).map (fun c => ⟨none, c, 12, 0, 0, 0, 0, 0⟩)

/-- One valid die of a starting lane (R245): its reset, its identification and its first training. A reset that expires also takes the die
offline (R243); a training that does brings a LUN reset (R241). -/
def startDie (n : Nat) (dies : List DieAnswer) (b : Block) (d : Nat) : Block :=
  let f := dieFamily b n d
  let b := updDie (setMap (setMap b n d 15 13 0) n d 18 16 (rfld b 0x408 10 8)) n d (fun _ => Die.init)
  let mask := leNat (famBytes b f 0x10 8)
  let idErr (b : Block) : Block := rset1 b (laneReg n (0x400 + 4 * d)) 15
  match (dies.find? (fun x => decide (x.die = d))).filter (fun x => x.ready) with
  | none => countExpiry n d .reset (idErr b)
  | some x =>
    let (ids, b) := idSteps b n d x.id
    let b := noteSteps n ids b
    if x.id.toNat &&& mask ≠ leNat (famBytes b f 8 8) &&& mask then idErr b
    else
      let b := noteSteps n (initFeats b n d) b
      if x.expired then
        evalBand n d (countExpiry n d .training (needLunReset (trainFailed n d (noteSteps n (trainSteps b n d (some 0)) b)) n d))
      else evalBand n d (takeTraining n d (some 0) x.windows b)

/-- What a start fixes for the lane (R279, R284, R296). -/
def fixLane (n : Nat) (b : Block) : Block :=
  let fs := laneFamilies b n
  let size := (fs.map (fun f => (cwLen b f + 63) / 64 * 64)).foldl max 0
  let stride := (fs.map (fun f => unitsOf b f * planesOf b f)).foldl max 0
  let count := if size = 0 then 0 else 131072 / size
  let b := updLane b n (fun l => { l with frameSz := size, frames := count, stride := stride })
  let recs := recordDies b n
  let b := updLane b n (fun l => { l with recDies := recs })
  rputF (rputF b (laneReg n 0x24C) 15 0 (min 65535 (stageSlots b n))) (laneReg n 0x264) 6 0 recs

/-- The recovery sets of the lane's families whose tables have been written through the window are loaded again (R411, R465). -/
def reloadSets (nv : NonVol) (errs : List ReadErr) (n : Nat) (b : Block) : Block :=
  each ((laneFamilies b n).filter (fun f => b.famDirty.contains f)) (fun b f => loadRecovery nv errs b f) b

/-- The lane's reference clock fails its check (R438): its bit of SYS_REFCLK_BAD (log entry 107, DEDUCED). -/
def clockBad (b : Block) (n : Nat) : Bool := rbit b 0x120 (6 + n / 8)

/-- The two lane-bound channels of a lane restart empty (R338): nothing is handed over to them. -/
def emptyChannels (b : Block) (n : Nat) : Block :=
  each [true, false] (fun b i => rclr1 b (chanReg (n / 8) (jobChan n i) 4) 0) b

/-- LANE_START (R229, R245, R438): with its control store loaded, HOLD clear and its reference clock good, the lane takes its configuration,
checks it, and brings its dies into service as they answer. -/
def laneStart (nv : NonVol) (n : Nat) (dies : List DieAnswer) (errs : List ReadErr) (b : Block) : Block :=
  let l := lane b n
  if !laneRuns b n || decide (b.build.lanes ≤ n) || clockBad b n || l.loadPend || laneHold b n || laneStarted b n || startFailed b n then b
  else
    let b0 := b
    let b := { b with maps := (List.range 64).foldl (fun t d => tset 0 t (64 * n + d) (rget b (laneReg n (0x400 + 4 * d)))) b.maps }
    let waits := arrayBusy b && (laneFamilies b n).any (fun f => b.famDirty.contains f)
    let b := readPlanted (fun x => decide (x.mem = 6)) (reloadSets nv errs n b)
    let err := cfgErr b n
    if waits then b0
    else if faulted b then b
    else if err ≠ 0 then rputF b (laneReg n 0x204) 27 24 err
    else if !(kindsNeeded b n).all (fun k => (entryWord b n k).isSome) then rputF b (laneReg n 0x304) 11 8 4
    else
      let cfg := rget b (laneReg n 0x200)
      let rates := (laneFamilies b n).map (fun f => fam16 b f 0x62)
      let rate := if fld cfg 20 8 = 0 then rates.foldl min (rates.headD 10) else fld cfg 20 8
      let a := laneReg n 0x204
      let b := emptyChannels (rset1 (rputF (rputF b a 3 0 (fld cfg 3 0)) a 20 8 rate) a 4) n
      (validDies b n).foldl (startDie n dies) (updLane (fixLane n b) n (fun l =>
        { l with budget := frameBudget b, sca := cfg.getLsbD 4, steps := resetSteps b n }))

/-- LANE_START. -/
def execLaneStart (n : Nat) (dies : List DieAnswer) (errs : List ReadErr) (s : State) : Host.Outcome State Fault Refusal :=
  s.act (laneStart s.nv n dies errs)

/-- No die of the lane has an operation running or suspended. -/
def diesQuiet (b : Block) (n : Nat) : Bool := (validDies b n).all (fun d => (die b n d).op.isNone && (die b n d).susp.isNone)

/-- PS1_ENTRY (R445): the idle timer has reached IDLE, no die runs or holds an operation, and no retraining is pending. -/
def ps1Entry (n : Nat) (b : Block) : Block :=
  let l := lane b n
  let limit := rfld b (laneReg n 0xA0) 15 0
  if !lanePlaces b n || l.ps1 || decide (limit = 0) || decide (l.idle < limit) || l.seq.isSome || !diesQuiet b n ||
      (validDies b n).any (fun d => (die b n d).retrain.isSome || (die b n d).training) then b
  else rinc (updLane b n (fun l => { l with ps1 := true })) (laneReg n 0xA4) 31 16 1

/-- PS1_ENTRY. -/
def execPs1Entry (n : Nat) (s : State) : Host.Outcome State Fault Refusal := s.act (ps1Entry n)

/-- LANE_SLIP_EVENT (R57): the consecutive slips have reached SYS_TICK_CTRL.SLIP_EVENT, and the event has not been raised since they
were last cleared. -/
def laneSlipEvent (n : Nat) (b : Block) : Block :=
  let c := rfld b (laneReg n 0x80) 15 0
  if (lane b n).slipRaised || decide (c = 0) || decide (rfld b 0x200 23 16 = 0) ||
      decide (c < rfld b 0x200 23 16) then b
  else raiseLaneSlip (updLane b n (fun l => { l with slipRaised := true })) n

/-- LANE_SLIP_EVENT. -/
def execLaneSlipEvent (n : Nat) (s : State) : Host.Outcome State Fault Refusal := s.act (laneSlipEvent n)

end Sys2Proof.Machine
end

