-- ==== Sys2Proof/Machine/Board.lean ====
section
/-! DEFINITION. The tick (R41 to R57), SYS_MILEPOST's reads, the epoch with the refresh-due event (R37, R311), and the board
temperature (R36). -/

namespace Sys2Proof.Machine

open Sys2Proof

/-- A junction sensor's reading, none outside −40 to 150 °C (R35). -/
def sensorReading (t : Int) : Option Int := if -40 ≤ t ∧ t ≤ 150 then some t else none

/-- TG_THERM.PEAK takes the highest valid reading (R374). -/
def notePeak (b : Block) : Block :=
  match blockTemp b with
  | some t => if sbyte (rfld b 0x300C0 23 16) < t then rputF b 0x300C0 23 16 (BitVec.ofInt 8 t).toNat else b
  | none => b

/-- The restart condition holds so far (R375): two valid sensors, and the 105 °C comparator of every valid one low. -/
def coolNow (b : Block) : Bool :=
  tripped b && decide (2 ≤ (b.sensors.filter (fun x => x.isSome)).length) &&
    (b.sensors.zip b.comp105).all (fun x => x.1.isNone || !x.2)

/-- TG_THERM.COOLING follows the restart condition. -/
def noteCooling (b : Block) : Block := rputB b 0x300C0 1 (coolNow b)

/-- The junction sensors are read (R35): with fewer than two valid, SENSOR_LOW sets, and the sensor event when it does. -/
def readSensors (t0 t1 t2 t3 : Int) (b : Block) : Block :=
  let l := [t0, t1, t2, t3].map sensorReading
  let low := decide ((l.filter (fun x => x.isSome)).length < 2)
  let b := if low && !sensorLow b then rset1 b 0x40000 8 else b
  noteCooling (notePeak (rputB { b with sensors := l } 0x120 5 low))

/-- A written period takes effect at the boundary (R43). -/
def takePeriod (b : Block) : Block :=
  match b.newPeriod with
  | some p => rclr1 (rputF { b with newPeriod := none } 0x200 5 0 p.toNat) 0x200 8
  | none => b

/-- A released instruction has a micro-routine still to be placed (R50): one that waits, a read with a codeword whose record is being
fetched or whose read is not placed, and a program, TRAIN or RAW being carried out. -/
def placesMore (b : Block) (e i : Nat) : Bool :=
  let r := instr b e i
  let x := r.bytes
  if isGate x || decide (iOp x = opSignal) then false
  else decide (r.phase = .pooled) || decide (r.phase = .waiting) ||
    (decide (r.phase = .active) &&
      (programs x || decide (iOp x = opTrain) || decide (iOp x = opRaw) ||
        (instrCws b e i).any (fun y => decide (y.2.stage = .record) || decide (y.2.stage = .issue))))

/-- A released instruction of the lane waits to be placed (R50). -/
def releasedWaits (b : Block) (n : Nat) : Bool :=
  !(lane b n).todo.isEmpty || (lane b n).pool.any (fun e => (List.range (entry b e).instrs.length).any (placesMore b e))

/-- The idle timer at a boundary (R50): the ending frame was empty, no die operation is outstanding, nothing is carried over, and nothing
waits to be placed. -/
def idleAt (b : Block) (n : Nat) : Nat :=
  let l := lane b n
  if l.used = 0 ∧ l.seq.isNone ∧ l.frame = [] ∧ diesQuiet b n ∧ !releasedWaits b n then l.idle + 1 else 0

/-- The cycles of a lane's frame not finished at a boundary (R55). -/
def laneCarried (l : Lane) : Nat := restOf l.frame + seqRest l

/-- A boundary finds cycles of the ending frame unfinished (R53, R55): a lane that takes the tick as a trap may have been given a
routine that straddles the boundary. -/
def slipsAt (b : Block) (n : Nat) : Bool :=
  let l := lane b n
  decide ((if laneTraps b n then l.used - l.budget else 0) < laneCarried l)

/-- One lane at a tick boundary (R52 to R57): its idle timer and slips, and the tick handler, which waits where the lane samples at
boundaries. The delay of a handler behind a routine is a matter of cycles: a free value, at most 32 for a trap (log entry 3, DESIGN CHOICE). -/
def laneTick (n : Nat) (b : Block) : Block :=
  if !laneRuns b n || !laneStarted b n || (lane b n).ps1 then b
  else
    let slip := slipsAt b n
    let a := laneReg n 0x80
    let b := updLane b n (fun l => { l with idle := idleAt b n, slipRaised := l.slipRaised && slip })
    let b := if slip then rinc (rinc b a 15 0 1) (laneReg n 0x84) 31 0 1 else rputF b a 15 0 0
    let b := if (lane b n).seq.isSome then
        let (v, b) := freeOf 16 b
        rmax b a 31 16 (if laneTraps b n then v.toNat % 33 else v.toNat)
      else b
    if eventsWait b n then updLane b n (fun l => { l with tickDue := true, lateCarry := seqRest l }) else commitNext n (takeTrap n b)

/-- The lanes in the order that a junction's bucket serves them in a tick (R211): lane 8j + (k mod 8) first, then the following ones. -/
def tickLanes (b : Block) : List Nat :=
  (juncNums b).flatMap (fun j => (List.range 8).map (fun k => 8 * j + (now b + k) % 8))

/-- The dies that have no valid reading of their own have their temperature worked out at every tick (R290). -/
def laneBands (n : Nat) (b : Block) : Block :=
  if !running b || !laneStarted b n then b
  else each ((validDies b n).filter (fun d => (dieReading b n d).isNone)) (fun b d => evalBand n d b) b

/-- TICK (R41, R43, R35, R358, R52, R455). -/
def tick (t0 t1 t2 t3 : Int) (b : Block) : Block :=
  if b.inReset || !b.ticking then b
  else
    let b := readSensors t0 t1 t2 t3 (takePeriod { b with milepost := b.milepost + 1 })
    let b := if b.lxReady && !faulted b then tollTick b else b
    let b := each (tickLanes b) (fun b n => laneTick n b) (tickReads b)
    each (laneNums b) (fun b n => laneBands n b) b

/-- TICK. -/
def execTick (t0 t1 t2 t3 : Int) (s : State) : Host.Outcome State Fault Refusal := s.act (tick t0 t1 t2 t3)

/-- The refresh period of a band in hours (R311). -/
def refreshPeriod (b : Block) (band : Nat) : Nat :=
  let w := rget b (0x440 + 4 * (band / 2))
  if band % 2 = 0 then fld w 15 0 else fld w 31 16

/-- The highest band of the dies in service at present. -/
def presentBand (b : Block) : Nat :=
  (laneNums b).foldl (fun m n => ((List.range 64).filter (fun d => dieInService b n d && !dieOffline b n d)).foldl (fun m d => max m (dieBand b n d)) m) 0

/-- The refresh test (R311). -/
def refreshCheck (b : Block) : Block :=
  let p := refreshPeriod b (rfld b 0x454 2 0)
  if epochValid b ∧ p ≠ 0 ∧ (rget b 0x450).toNat + p ≤ (epochNow b).toNat then
    rputF (rput (rset1 b 0x40000 11) 0x450 (epochNow b)) 0x454 2 0 (presentBand b)
  else b

/-- The last hour that SYS_EPOCH counts to (R468): 0xFFFF_FFFF means an unknown program epoch. -/
def lastEpoch : Nat := 0xFFFFFFFE

/-- EPOCH_ADVANCE (R37, R468): another hour has passed in the always-on domain, which stops advancing at 0xFFFF_FFFE. -/
def epochAdvance (b : Block) : Block :=
  if epochValid b && decide ((epochNow b).toNat < lastEpoch) then refreshCheck (rput b 0x110 (epochNow b + 1)) else b

/-- EPOCH_ADVANCE. -/
def execEpochAdvance (s : State) : Host.Outcome State Fault Refusal := s.act epochAdvance

/-- A write of SYS_EPOCH (R37, R311, R468): secure only, never of 0xFFFF_FFFF, and never backwards once VALID is set. In PS3 it is taken
as at any other time (log entry 79, DESIGN CHOICE). -/
def epochWrite (v : Word) (sec : Bool) (b : Block) : Block :=
  if !sec || decide (lastEpoch < v.toNat) then b
  else if epochValid b then
    if v.toNat < (epochNow b).toNat then rset1 b 0x120 4 else refreshCheck (rput b 0x110 v)
  else refreshCheck (rput (rset1 (rput b 0x110 v) 0x114 0) 0x450 v)

/-- EPOCH_WRITE. -/
def execEpochWrite (v : Word) (sec : Bool) (s : State) : Host.Outcome State Fault Refusal :=
  (regWrite4 s 0x110 sec (epochWrite v sec)).settled

/-- A write of SYS_BOARD_TEMP (R36): STALE is taken always; TEMP only within −40 to 125 °C, which makes it fresh. In PS3 it is taken as
at any other time (log entry 79, DESIGN CHOICE). -/
def boardTempWrite (v : Word) (b : Block) : Block :=
  let b := rputF b 0x118 31 16 (fld v 31 16)
  let t := sbyte (fld v 7 0)
  if -40 ≤ t ∧ t ≤ 125 then rclr1 { rputF b 0x118 7 0 (fld v 7 0) with boardAt := some (now b) } 0x120 3
  else rset1 b 0x120 2

/-- BOARD_TEMP_WRITE. -/
def execBoardTempWrite (v : Word) (sec : Bool) (s : State) : Host.Outcome State Fault Refusal :=
  (regWrite4 s 0x118 sec (boardTempWrite v)).settled

/-- BOARD_TEMP_STALE (R36, R39): no report has come for STALE × 1,024 ticks; the time-out is suspended in PS3. -/
def boardTempStale (b : Block) : Block :=
  match b.boardAt with
  | some t => if t + rfld b 0x118 31 16 * 1024 ≤ now b ∧ powerState b ≠ 3 then rset1 { b with boardAt := none } 0x120 3 else b
  | none => b

/-- BOARD_TEMP_STALE. -/
def execBoardTempStale (s : State) : Host.Outcome State Fault Refusal := s.act boardTempStale

/-- A write of SYS_TICK_CTRL (R43): secure only; a PERIOD outside 2 to 32 is ignored and sets BAD_WRITE, another one waits for the
next boundary. -/
def tickCtrlWrite (v : Word) (sec : Bool) (b : Block) : Block :=
  if !sec then b
  else
    let p := fld v 5 0
    if p < 2 ∨ 32 < p then rset1 b 0x200 9
    else
      let b := rputF b 0x200 23 16 (fld v 23 16)
      let b := if v.getLsbD 9 then rclr1 b 0x200 9 else b
      rset1 { b with newPeriod := some (BitVec.ofNat 6 p) } 0x200 8

/-- TICK_CTRL_WRITE. -/
def execTickCtrlWrite (v : Word) (sec : Bool) (s : State) : Host.Outcome State Fault Refusal :=
  (regWrite4 s 0x200 sec (tickCtrlWrite v sec)).settled

/-- MILEPOST_LO_READ: a 4 B read of SYS_MILEPOST_LO latches bits 63:32 for the next read of SYS_MILEPOST_HI. -/
def milepostLo (s : State) : Word64 × State :=
  (laneOfWord 0x208 (s.blk.milepost.extractLsb' 0 32),
    { s with blk := { s.blk with mileLatch := s.blk.milepost.extractLsb' 32 32 } })

/-- MILEPOST_LO_READ. -/
def execMilepostLoRead (sec : Bool) (s : State) : Host.Outcome State Fault Refusal :=
  (portRead s 0x208 false sec milepostLo).settled

end Sys2Proof.Machine
end

