-- ==== Sys2Proof/Machine/Cflash.lean ====
section
/-! DEFINITION. CFLASH (R409 to R425): seals, the protection row, the command sequence, the commands from their start step to their
end, what an abandoned command leaves, and the array window. -/

namespace Sys2Proof.Machine

open Sys2Proof

/-- The seal word of a sector. -/
def sealWord (nv : NonVol) (sec : Nat) : Word64 := tget erasedWord nv.seals sec

/-- A sector is sealed (R419). -/
def sealed (nv : NonVol) (sec : Nat) : Bool :=
  decide (bitsOf (sealWord nv sec).toNat 63 48 = 0x5EA1) && decide (bitsOf (sealWord nv sec).toNat 41 32 = sec)

/-- Word k of the protection row (R421). -/
def protWord (nv : NonVol) (k : Nat) : Word64 := tget erasedWord nv.prot k

/-- Entry r is in use (R421). -/
def protInUse (nv : NonVol) (r : Nat) : Bool := decide (bitsOf (protWord nv r).toNat 63 32 = 1)

/-- FIRST of an entry. -/
def protFirst (nv : NonVol) (r : Nat) : Nat := bitsOf (protWord nv r).toNat 9 0

/-- LAST of an entry. -/
def protLast (nv : NonVol) (r : Nat) : Nat := bitsOf (protWord nv r).toNat 25 16

/-- The row is LOCKED (R421). -/
def protLocked (nv : NonVol) : Bool := decide (protWord nv 17 = 1)

/-- BADENT (R420, R421): an entry that is neither erased nor in use with FIRST at most LAST, or an abandoned command. -/
def protBad (nv : NonVol) : Bool :=
  nv.badProt || (List.range 16).any (fun r =>
    decide (protWord nv r ≠ erasedWord) && (!protInUse nv r || decide (protLast nv r < protFirst nv r)))

/-- CF_PROT_STATUS.OPEN. -/
def protOpen (b : Block) : Bool := rbit b 0x20050 1

/-- The protection row is in force: LOCKED and not OPEN (R421). -/
def protHolds (nv : NonVol) (b : Block) : Bool := protLocked nv && !protOpen b

/-- A sector is protected (R421). -/
def sectorProtected (nv : NonVol) (b : Block) (sec : Nat) : Bool :=
  protHolds nv b && (List.range 16).any (fun r => protInUse nv r && decide (protFirst nv r ≤ sec ∧ sec ≤ protLast nv r))

/-- The lifecycle that Gatehouse read at its last reset (R406). -/
def lifecycle (b : Block) : Nat := rfld b 0x10000 1 0

/-- A word of the identity row is programmed. -/
def rowProgrammed (nv : NonVol) (k : Nat) : Bool := decide (tget 0 nv.row k ≠ 0)

/-- ROW_PROG of the word at byte address a is permitted (R424, R423). -/
def rowPermitted (nv : NonVol) (b : Block) (a : Nat) (v : Word64) : Bool :=
  if a < 0x018 ∨ (0x100 ≤ a ∧ a < 0x680) ∨ (0x700 ≤ a ∧ a < 0x760) then decide (lifecycle b = 0)
  else if a < 0x030 then decide (v = 0xFF) && (List.range ((a - 0x018) / 8)).all (fun i => rowProgrammed nv (3 + i))
  else decide (a < 0x090)

/-- A command of the protection row other than PROT_UNLOCK. -/
def protCommand (c : Nat) : Bool := decide (4 ≤ c ∧ c ≤ 6)

/-- The address or value of a command is wrong (R416, R417 CAUSE 2). -/
def cfBadOperand (c a : Nat) (v : Word64) : Bool :=
  if c = 1 then decide (a % 8 ≠ 0)
  else if c = 2 then decide (a % 4096 ≠ 0)
  else if c = 3 then decide (a % 8 ≠ 0 ∨ 0x800 ≤ a) || decide (v = erasedWord)
  else if c = 4 then decide (a % 8 ≠ 0 ∨ 128 ≤ a)
  else if c = 6 then decide (a ≠ 0) || decide (v = erasedWord ∨ v = 0)
  else decide (a ≠ 0)

/-- The word that a command programs already holds something (R417 CAUSE 4). -/
def cfNotErased (nv : NonVol) (c a : Nat) : Bool :=
  if c = 1 then decide (arrWord nv (a / 8) ≠ erasedWord)
  else if c = 3 then rowProgrammed nv (a / 8)
  else if c = 4 then decide (protWord nv (a / 8) ≠ erasedWord)
  else if c = 6 then decide (protWord nv 16 ≠ erasedWord) || decide (protWord nv 17 ≠ erasedWord)
  else false

/-- CF_PROT_STATUS.BARRED. -/
def protBarred (b : Block) : Bool := rbit b 0x20050 6

/-- The first refusal of a command at its start step, in the order of R417; 0 for none. -/
def cfRefusal (nv : NonVol) (b : Block) (c a : Nat) (v : Word64) : Nat :=
  if cfBadOperand c a v then 2
  else if rbit b 0x38024 2 then 6
  else if protCommand c && protHolds nv b then 11
  else if (decide (c = 1) || decide (c = 2)) && sectorProtected nv b (a / 4096) then 3
  else if decide (c = 3) && !rowPermitted nv b a v then 8
  else if decide (c = 1) && !sealed nv (a / 4096) then 5
  else if cfNotErased nv c a then 4
  else if decide (c = 7) && protBarred b then 10
  else if decide (c = 7) && decide (protWord nv 16 ≠ v) then 9
  else 0

/-- A command or a sequence fails (R415, R417): CF_ERR latches it and CF_EVT.FAIL sets. -/
def cfFail (b : Block) (cause addr : Nat) : Block :=
  rset1 (rputF (rputF b 0x2001C 3 0 cause) 0x2001C 29 8 addr) 0x20020 1

/-- The sequence is broken and returns to step 1 (R415). -/
def cfBreak (b : Block) : Block :=
  cfFail { b with cf := { b.cf with step := 0 } } 1 (rfld b 0x20008 21 0)

/-- A mismatch of PROT_UNLOCK (R422): TRIES rises, and the eighth sets BARRED. -/
def countTry (b : Block) : Block :=
  let n := min 8 (rfld b 0x20050 5 2 + 1)
  let b := rputF b 0x20050 5 2 n
  if n = 8 then rset1 b 0x20050 6 else b

/-- A command starts, or is refused, at its last step (R415 to R417, R422). For WORD_PROG with all ones R416 says that it ends DONE
with nothing programmed and R417 that it is refused with CAUSE 2: a free value decides (log entry 33, DESIGN CHOICE). -/
def cfStart (nv : NonVol) (a : Nat) (v : Word64) (b : Block) : Block :=
  let c := b.cf.cmd
  let b := { b with cf := { b.cf with step := 0, addr := a, data := v } }
  let (ones, b) := if c = 1 ∧ v = erasedWord then freeOf 1 b else (0, b)
  let cause := if ones = 1 then 2 else cfRefusal nv b c a v
  if cause ≠ 0 then
    let b := if cause = 9 then countTry b else b
    cfFail b cause a
  else
    let b := { b with cf := { b.cf with busy := true } }
    if c = 7 then rset1 b 0x20050 1 else b

/-- A taken step, with CF_STATUS.BUSY clear (R415): 1 and 2 the keys, 3 the code, 4 the address, 5 the data. A code that R416 does
not list breaks the sequence (log entry 34, DEDUCED). -/
def cfStep (nv : NonVol) (off : Nat) (wide : Bool) (v : Word64) (b : Block) : Block :=
  let w := (v.toNat % 2 ^ 32)
  let go (n : Nat) : Block := { b with cf := { b.cf with step := n } }
  let k := b.cf.step
  if k = 0 ∧ off = 0 ∧ w = 0x5AA5 then go 1
  else if k = 1 ∧ off = 0 ∧ w = 0xA55A then go 2
  else if k = 2 ∧ off = 4 ∧ 1 ≤ w % 16 ∧ w % 16 ≤ 7 then { b with cf := { b.cf with step := 3, cmd := w % 16 } }
  else if k = 3 ∧ off = 8 then
    if b.cf.cmd = 2 ∨ b.cf.cmd = 5 then cfStart nv (w % 2 ^ 22) 0 b else go 4
  else if k = 4 ∧ off = 0x10 ∧ wide then cfStart nv (rfld b 0x20008 21 0) v b
  else cfBreak b

/-- A secure write of CF_KEY, CF_CMD, CF_ADDR or CF_DATA (R409, R415): a step while BUSY breaks the sequence. CF_ADDR keeps what
is written to it. -/
def cfWrite (nv : NonVol) (off : Nat) (wide : Bool) (v : Word64) (sec : Bool) (b : Block) : Block :=
  if !sec then b
  else
    let b := if off = 8 then rput b 0x20008 (BitVec.ofNat 32 (v.toNat % 2 ^ 22)) else b
    if b.cf.busy then cfBreak b else cfStep nv off wide v b

/-- The effect on CFLASH and the block of an access to one of the sequence's registers: an 8 B write of the register pair at 0x000
takes CF_KEY and then CF_CMD, one at 0x008 takes CF_ADDR and reserved words. A write at an offset where none of them lies is ignored
(R27). -/
def cfAccess (off : Nat) (bmask : BitVec 8) (v : Word64) (sec : Bool) (s : State) : State :=
  if !([0, 4, 8, 0x10, 0x14] : List Nat).contains off then s else
  let low : Word64 := v.setWidth 32 |>.setWidth 64
  let high : Word64 := v >>> 32
  let b := s.blk
  let b := if off = 0x10 ∨ off = 0x14 then cfWrite s.nv 0x10 (bmask == 0xFF) v sec b
    else if bmask = 0xFF then
      let b := cfWrite s.nv off false low sec b
      if off = 0 then cfWrite s.nv 4 false high sec b else b
    else cfWrite s.nv off false (if off % 8 = 4 then high else low) sec b
  { s with blk := b }

/-- CF_SEQUENCE_STEP. -/
def execCfSequenceStep (off : Nat) (bmask : BitVec 8) (v : Word64) (sec : Bool) (s : State) : Host.Outcome State Fault Refusal :=
  (portWrite s (0x20000 + off) bmask sec (cfAccess off bmask v sec)).settled

/-- CF_SEQUENCE_TIMEOUT (R415): more than 65,536 core_clk cycles have passed since the last step. -/
def cfTimeout (b : Block) : Block := if b.inReset || decide (b.cf.step = 0) then b else cfBreak b

/-- CF_SEQUENCE_TIMEOUT. -/
def execCfSequenceTimeout (s : State) : Host.Outcome State Fault Refusal := s.act cfTimeout

/-- The 8 B write of CF_DATA, the last step of a command with data (R415). -/
def cfDataWrite (data : Word64) (sec : Bool) (s : State) : State :=
  portWrite s 0x20010 0xFF sec (cfAccess 0x10 0xFF data sec)

/-- The write of CF_ADDR, the last step of a command without data (R415). -/
def cfAddrWrite (addr : Word) (sec : Bool) (s : State) : State :=
  portWrite s 0x20008 0x0F sec (cfAccess 8 0x0F (addr.setWidth 64) sec)

/-- WORD_PROG: its data step. -/
def execWordProg (data : Word64) (sec : Bool) (s : State) : Host.Outcome State Fault Refusal := (cfDataWrite data sec s).settled

/-- SECTOR_ERASE: its address step. -/
def execSectorErase (addr : Word) (sec : Bool) (s : State) : Host.Outcome State Fault Refusal := (cfAddrWrite addr sec s).settled

/-- ROW_PROG: its data step. -/
def execRowProg (data : Word64) (sec : Bool) (s : State) : Host.Outcome State Fault Refusal := (cfDataWrite data sec s).settled

/-- PROT_PROG: its data step. -/
def execProtProg (data : Word64) (sec : Bool) (s : State) : Host.Outcome State Fault Refusal := (cfDataWrite data sec s).settled

/-- PROT_ERASE: its address step. -/
def execProtErase (addr : Word) (sec : Bool) (s : State) : Host.Outcome State Fault Refusal := (cfAddrWrite addr sec s).settled

/-- PROT_LOCK: its data step. -/
def execProtLock (data : Word64) (sec : Bool) (s : State) : Host.Outcome State Fault Refusal := (cfDataWrite data sec s).settled

/-- PROT_UNLOCK: its data step. -/
def execProtUnlock (data : Word64) (sec : Bool) (s : State) : Host.Outcome State Fault Refusal := (cfDataWrite data sec s).settled

/-- The new seal of a sector (R418). -/
def nextSeal (nv : NonVol) (sec : Nat) : Word64 :=
  let old := (sealWord nv sec).toNat
  let count := if sealed nv sec then (bitsOf old 31 0 + 1) % 2 ^ 32 else 1
  let lost := if sealed nv sec then bitsOf old 47 47 else 1
  BitVec.ofNat 64 (0x5EA1 * 2 ^ 48 + lost * 2 ^ 47 + sec * 2 ^ 32 + count)

/-- What a command that ends well leaves in CFLASH (R416, R418, R421). -/
def cfDone (nv : NonVol) (c a : Nat) (v : Word64) : NonVol :=
  if c = 1 then { nv with arr := tset erasedWord nv.arr (a / 8) v }
  else if c = 2 then
    { nv with
      arr := nv.arr.filter (fun p => decide (p.1 / 512 ≠ a / 4096)), seals := tset erasedWord nv.seals (a / 4096) (nextSeal nv (a / 4096)) }
  else if c = 3 then { nv with row := tset 0 nv.row (a / 8) v }
  else if c = 4 then { nv with prot := tset erasedWord nv.prot (a / 8) v }
  else if c = 5 then { nv with prot := [], badProt := false }
  else if c = 6 then { nv with prot := tset erasedWord (tset erasedWord nv.prot 16 v) 17 1 }
  else nv

/-- Words from key k on take free values (log entry 3, DESIGN CHOICE). -/
def freeWords (d : Word64) : Nat → Nat → Tab Word64 → Block → Tab Word64 × Block
  | 0, _, t, b => (t, b)
  | n + 1, k, t, b =>
    let (x, b) := freeOf 64 b
    freeWords d n (k + 1) (tset d t k x) b

/-- What a command whose check failed, or that a reset abandoned, leaves (R417, R420; log entries 3 and 35, DESIGN CHOICE): the word it was programming,
the words of the sector it was erasing or the protection row are free values, and the sector is not sealed. -/
def cfBroken (nv : NonVol) (c a : Nat) (b : Block) : NonVol × Block :=
  if c = 1 then
    let (t, b) := freeWords erasedWord 1 (a / 8) nv.arr b
    ({ nv with arr := t }, b)
  else if c = 2 then
    let (t, b) := freeWords erasedWord 512 (a / 8) nv.arr b
    let (x, b) := freeOf 64 b
    ({ nv with arr := t, seals := tset erasedWord nv.seals (a / 4096) (x &&& 0xFFFEFFFFFFFFFFFF) }, b)
  else if c = 3 then
    let (t, b) := freeWords 0 1 (a / 8) nv.row b
    ({ nv with row := t }, b)
  else if c = 4 ∨ c = 5 ∨ c = 6 then
    let (t, b) := freeWords erasedWord 18 0 nv.prot b
    ({ nv with prot := t }, b)
  else (nv, b)

/-- A WORD_PROG of all ones programs nothing (R416). -/
def Cf.programsNothing (c : Cf) : Bool := decide (c.cmd = 1) && decide (c.data = erasedWord)

/-- A reset abandons a running command (R420). -/
def cfAbandon (s : State) : State :=
  if !s.blk.cf.busy || s.blk.cf.programsNothing then s
  else
    let (nv, b) := cfBroken s.nv s.blk.cf.cmd s.blk.cf.addr s.blk
    { s with nv := if protCommand s.blk.cf.cmd then { nv with badProt := true } else nv, blk := b }

/-- Bytes of the identity row that the window shows as zero (R412, R423). -/
def rowHidden (o : Nat) : Bool := decide (0x700 ≤ o)

/-- The 8 B of the array window that hold offset `off` (R412). -/
def windowWord (nv : NonVol) (b : Block) (off : Nat) : Word64 :=
  if rbit b 0x20028 8 then if rowHidden off then 0 else tget 0 nv.row (off / 8)
  else arrWord nv (rfld b 0x20028 6 0 * 4096 + off / 8)

/-- What a window access finds (R410): an erased word of the main array reads all ones, and nothing is counted for it. -/
def windowFound (nv : NonVol) (b : Block) (x : WindowRead) : WindowRead :=
  if !rbit b 0x20028 8 && decide (windowWord nv b x.off = erasedWord) then { x with corr := 0, unc := false } else x

/-- A window access is made (R412, R413): its data, and the errors it counts. The identity row has no sector number: what is then
latched is a free value (log entry 3, DESIGN CHOICE). -/
def windowRead (nv : NonVol) (x : WindowRead) (b : Block) : Word64 × Block :=
  let x := windowFound nv b x
  let row := rbit b 0x20028 8
  let (sec, b) := if row && (x.unc || decide (rfld b 0x20030 7 0 < x.corr)) then
      let (v, b) := freeOf 10 b
      (v.toNat, b)
    else (rfld b 0x20028 6 0 * 8 + x.off / 4096, b)
  let w := if x.unc then 0 else windowWord nv b x.off
  (if x.size8 then w else laneOfWord x.off (wordOf x.off w), noteRead b sec x.corr x.unc)

/-- A read of the window (R412, R414): while a program or erase runs its answer waits for the end of it. -/
def windowAccess (x : WindowRead) (s : State) : Answer × State :=
  if arrayBusy s.blk then (⟨true, 0, stDone, some x⟩, s)
  else
    let (v, b) := windowRead s.nv x s.blk
    (⟨true, v, stDone, none⟩, { s with blk := b })

/-- CF_WINDOW_READ. -/
def execCfWindowRead (off : Nat) (size8 sec : Bool) (corr : Nat) (unc : Bool) (s : State) : Host.Outcome State Fault Refusal :=
  (portReadA s (0x28000 + off) size8 sec (windowAccess ⟨off, size8, corr, unc⟩)).settled

/-- The first of the window reads that waited is made. -/
def serveOne (nv : NonVol) (acc : List Answer × Block) (x : Answer) : List Answer × Block :=
  match x.held with
  | none => (acc.1 ++ [x], acc.2)
  | some w =>
    let (v, b) := windowRead nv w acc.2
    (acc.1 ++ [{ x with data := v, held := none }], b)

/-- The window reads that waited are made, in order (R414). -/
def serveWaiting (nv : NonVol) (b : Block) : Block :=
  let (l, b) := b.answers.foldl (serveOne nv) ([], b)
  let b := { b with answers := l }
  putAnswers l.length b

/-- CF_COMMAND_END (R416 to R418): the running command ends; `ok` says that its check found what it should. PROT_UNLOCK checks
nothing, and a WORD_PROG of all ones ends DONE. -/
def cfCommandEnd (ok : Bool) (s : State) : State :=
  let c := s.blk.cf
  if !c.busy || s.blk.inReset then s
  else
    let b := { s.blk with cf := { c with busy := false } }
    if ok ∨ c.cmd = 7 ∨ c.programsNothing then
      let nv := cfDone s.nv c.cmd c.addr c.data
      { s with nv := nv, blk := serveWaiting nv (rset1 b 0x20020 0) }
    else
      let (nv, b) := cfBroken s.nv c.cmd c.addr b
      { s with nv := nv, blk := serveWaiting nv (cfFail b 7 c.addr) }

/-- CF_COMMAND_END. -/
def execCfCommandEnd (ok : Bool) (s : State) : Host.Outcome State Fault Refusal := (cfCommandEnd ok s).settled

/-- A write of CF_PROT_STATUS (R422): a 1 to OPEN closes. -/
def protClose (v : Word) (sec : Bool) (b : Block) : Block := if sec && v.getLsbD 1 then rclr1 b 0x20050 1 else b

/-- CF_PROT_CLOSE. -/
def execCfProtClose (v : Word) (sec : Bool) (s : State) : Host.Outcome State Fault Refusal :=
  (regWrite4 s 0x20050 sec (protClose v sec)).settled

end Sys2Proof.Machine
end

