-- ==== Sys2Proof/Machine/House.lean ====
section
/-! DEFINITION. Gatehouse's own work: what it reads at a reset (R399, R403, R406), the image check and the load of a lane's control
store (R329 to R331, R405), the key and random-number registers (R399 to R404), the violation log's POP (R393), and attestation
(R407, R408). -/

namespace Sys2Proof.Machine

open Sys2Proof

/-- The words of the identity row's key area: bytes 0x700 to 0x75F (R423). -/
def keyArea : List Nat := List.range' 0xE0 12

/-- The lifecycle state of an identity row (R423): the lifecycle words, from LC0 up, that hold 0xFF. -/
def rowLifecycle (row : Tab Word64) : Nat := ([3, 4, 5].takeWhile (fun k => decide (tget 0 row k = 0xFF))).length

/-- The errors that Gatehouse's read of the identity row finds (R413), given as those of sector 1,024. The row has no sector number: what is
latched of it is a free value (log entry 3, DESIGN CHOICE). -/
def noteRow (errs : List ReadErr) (rowBad : Bool) (b : Block) : Block :=
  let (v, b) := freeOf 10 b
  let found := (errs.filter (fun x => decide (x.sector = 1024))).map (fun x => x.corr)
  noteRead b v.toNat (found.foldl (· + ·) 0) rowBad

/-- Gatehouse starts (R399, R403, R406, R449): it reads the identity row, from which WK0 is derived (`wrapKeyOf`), and its start-up
tests begin. A key area that cannot be corrected clears ROW_OK, and its words are then free values (R413; log entry 3, DESIGN CHOICE). -/
def houseStart (nv : NonVol) (errs : List ReadErr) (rowBad : Bool) (b : Block) : Block :=
  let (row, b) := if rowBad then freeWords 0 12 0xE0 nv.row b else (nv.row, b)
  let b := { b with rowSnap := row, gens := 0 }
  let b := rputB (rputF b 0x10000 1 0 (rowLifecycle row)) 0x10000 2 (!rowBad)
  noteRow errs rowBad (rput b 0x10504 0)

/-- The CFLASH byte address of image slot i (R329). -/
def imageBase (i : Nat) : Nat := 0x10000 * (i + 1)

/-- The sectors of image slot i. -/
def imageSectors (i : Nat) : List Nat := List.range' (imageBase i / 4096) 16

/-- An image container as it lies in its slot (R329): MODE, VERSION, WORDS, NENTRY and KEY_ID. -/
structure Container where
  mode : Nat
  version : Nat
  words : Nat
  nentry : Nat
  keyId : Nat

/-- The header of the container in slot i. -/
def container (nv : NonVol) (i : Nat) : Container :=
  let h := arrBytes nv (imageBase i) 0x20
  ⟨byteAt h 6, fieldAt h 8 4, fieldAt h 12 2, fieldAt h 14 2, fieldAt h 16 4⟩

/-- Entry k of the container in slot i (R319). -/
def imageEntry (nv : NonVol) (i k : Nat) : Word64 := arrWord nv ((imageBase i + 0x80 + 8 * k) / 8)

/-- MAGIC, FORMAT and the field ranges of a container (R329, R319). -/
def containerOk (nv : NonVol) (i : Nat) : Bool :=
  let h := arrBytes nv (imageBase i) 0x20
  let c := container nv i
  decide (h.take 4 = [0x4C, 0x58, 0x55, 0x43]) && decide (fieldAt h 4 2 = 1) && decide (c.mode ≤ 1) && decide (byteAt h 7 = 0) &&
    inRange c.words 1 8192 && inRange c.nentry 20 256 && decide (fieldAt h 20 12 = 0) &&
    (List.range c.nentry).all (fun k =>
      let s := bitsOf (imageEntry nv i k).toNat 13 0
      decide (s = 0x3FFF ∨ s < c.words))

/-- The image-signing key that a KEY_ID names may be used (R405, R406, R423). -/
def keyPermitted (b : Block) (id : Nat) : Bool :=
  decide (id < 4) && decide (tget 0 b.rowSnap (6 + id) = 0) &&
    (decide (lifecycle b = 1) || (decide (lifecycle b = 2) && decide (id < 3)))

/-- The image floor (R423). -/
def imageFloor (b : Block) : Nat := (List.range 8).foldl (fun m i => max m (bitsOf (tget 0 b.rowSnap (10 + i)).toNat 31 0)) 0

/-- The digest of the container in slot i: bytes 0x0000 to 0x0FFF + 4 × WORDS with SIG taken as zero (R329). -/
def imageDigest (nv : NonVol) (i : Nat) : List Byte :=
  let l := arrBytes nv (imageBase i) (0x1000 + 4 * (container nv i).words)
  sha384 (l.take 0x20 ++ zeros 0x60 ++ l.drop 0x80)

/-- IMAGE_CHECK (R405): the result of the check of slot i, which GH_IMG_STATi records. The digest is kept once it is computed. -/
def imageCheck (nv : NonVol) (errs : List ReadErr) (i : Nat) (b : Block) : Nat × Block :=
  let errs := seenErrs nv errs
  let b := noteErrs b (imageSectors i) errs
  let c := container nv i
  let bad := errs.any (fun x => (imageSectors i).contains x.sector && !x.bad.isEmpty)
  let early :=
    if bad then 6
    else if !containerOk nv i then 2
    else if !keyPermitted b c.keyId then 3
    else if c.version < imageFloor b then 5
    else 0
  let (r, b) := if early ≠ 0 then (early, b)
    else
      let d := imageDigest nv i
      let b := { b with digests := tput b.digests i (BitVec.ofNat 384 (leNat d)) }
      let pub := rowBytes b.rowSnap (0x100 + 96 * c.keyId) 96
      (if ecdsaVerify pub d (arrBytes nv (imageBase i + 0x20) 96) then 1 else 4, b)
  (r, rputF (rputF b (0x10700 + 4 * i) 2 0 r) (0x10700 + 4 * i) 9 8 (c.keyId % 4))

/-- LOAD_ERR for a check's result (R405). -/
def loadErrOf (r : Nat) : Nat := if r = 1 then 0 else if r = 2 then 1 else if r = 6 then 3 else 2

/-- A microword with its parity bit (R315). -/
def withParity (w : Word) : BitVec 33 :=
  BitVec.ofNat 33 (w.toNat + (if onesIn 32 w.toNat % 2 = 0 then 2 ^ 32 else 0))

/-- The control store that slot i's code makes: words that equal END are not listed (R330). -/
def imageCode (nv : NonVol) (i words : Nat) : Tab (BitVec 33) :=
  ((List.range words).map (fun k =>
    let w := arrWord nv ((imageBase i + 0x1000) / 8 + k / 2)
    (k, withParity (if k % 2 = 0 then w.extractLsb' 0 32 else w.extractLsb' 32 32)))).filter (fun p => decide (p.2 ≠ endWord))

/-- Lane n takes the outcome of the load of slot i (R330): its control store, mode and entry table, or LOAD_ERR. -/
def laneLoad (nv : NonVol) (i r : Nat) (b : Block) (n : Nat) : Block :=
  let c := container nv i
  let a := laneReg n 0x304
  let b := rclr1 (rputF b a 11 8 (loadErrOf r)) (laneReg n 0x300) 2
  if r = 1 then
    let b := updLane b n (fun l => { l with
      cs := imageCode nv i c.words, words := c.words, ent := (List.range c.nentry).map (fun k => (k, imageEntry nv i k))
      loadPend := false, slot := i })
    rput (rputB (rset1 b a 0) a 1 (decide (c.mode = 0))) (laneReg n 0x308) (BitVec.ofNat 32 c.version)
  else
    let b := updLane b n (fun l => { l with loadPend := false, slot := i })
    rput (rclr1 (rclr1 b a 0) a 1) (laneReg n 0x308) 0

/-- LN_SEQ_CFG.IMAGE. -/
def imageOf (b : Block) (n : Nat) : Nat := rfld b (laneReg n 0x300) 1 0

/-- The block can read CFLASH for a load: it is out of reset and of PS3, not halted, and no operation runs (R414, R439, R449). -/
def canLoad (b : Block) : Bool :=
  !b.inReset && !faulted b && !arrayBusy b && (decide (powerState b = 0) || b.restoring)

/-- CONTROL_STORE_LOAD (R330): lane n, and with it every lane that waits to load the same slot, loads its control store; they share
one read. -/
def controlStoreLoad (nv : NonVol) (n : Nat) (errs : List ReadErr) (b : Block) : Block :=
  if !canLoad b || decide (b.build.lanes ≤ n) || !(lane b n).loadPend then b
  else
    let i := imageOf b n
    let mine := (laneNums b).filter (fun m => (lane b m).loadPend && decide (imageOf b m = i))
    let (r, b) := imageCheck nv errs i b
    each mine (laneLoad nv i r) b

/-- CONTROL_STORE_LOAD. -/
def execControlStoreLoad (n : Nat) (errs : List ReadErr) (s : State) : Host.Outcome State Fault Refusal :=
  s.act (controlStoreLoad s.nv n errs)

/-- CONTROL_STORE_RELOAD (R331): with no micro-routine running, a lane with RELOAD_PEND loads again the slot it last loaded, whatever
LN_SEQ_CFG.RELOAD asks for; a failed
check halts it as a machine check of cause 1, with no failing microword to name (log entry 3, DESIGN CHOICE). -/
def controlStoreReload (nv : NonVol) (n : Nat) (errs : List ReadErr) (b : Block) : Block :=
  let a := laneReg n 0x304
  if !canLoad b || decide (b.build.lanes ≤ n) || !rbit b a 3 || laneHalted b n || (lane b n).seq.isSome || (lane b n).loadPend then b
  else
    let i := (lane b n).slot
    let (r, b) := imageCheck nv errs i b
    let due := rbit b (laneReg n 0x300) 2
    let b := rputB (laneLoad nv i r (rinc b (laneReg n 0x310) 31 24 1) n) (laneReg n 0x300) 2 due
    if r = 1 then rclr1 b a 3
    else
      let (v, b) := freeOf 13 b
      machineHalt n 1 v.toNat b

/-- CONTROL_STORE_RELOAD. -/
def execControlStoreReload (n : Nat) (errs : List ReadErr) (s : State) : Host.Outcome State Fault Refusal :=
  s.act (controlStoreReload s.nv n errs)

/-- A write of GH_VLOG_CTRL (R393): POP removes the oldest entry. -/
def vlogPop (v : Word) (b : Block) : Block := if v.getLsbD 0 then { b with vlog := b.vlog.drop 1 } else b

/-- VLOG_POP. -/
def execVlogPop (v : Word) (sec : Bool) (s : State) : Host.Outcome State Fault Refusal :=
  (regWrite4 s 0x10314 sec (vlogPop v)).settled

/-- Every key slot is zeroised (R402). -/
def zeroiseAll (b : Block) : Block := each (b.keys.map (·.1)) zeroiseSlot b

/-- A write of GH_KEY_CTRL (R402): ZEROISE works only with ARM set by an earlier write, and every write but one of ARM clears ARM. -/
def keyCtrlWrite (v : Word) (b : Block) : Block :=
  let armed := rbit b 0x10400 0
  if v.getLsbD 1 then
    let b := rclr1 b 0x10400 0
    if armed then zeroiseAll b else b
  else rputB b 0x10400 0 (v.getLsbD 0)

/-- KEY_ARM. -/
def execKeyArm (v : Word) (sec : Bool) (s : State) : Host.Outcome State Fault Refusal :=
  (regWrite4 s 0x10400 sec (keyCtrlWrite v)).settled

/-- KEY_ZEROISE. -/
def execKeyZeroise (v : Word) (sec : Bool) (s : State) : Host.Outcome State Fault Refusal :=
  (regWrite4 s 0x10400 sec (fun b => keyCtrlWrite v b)).settled

/-- The wrap key that GH_WK_SEL selects: 0 is taken as 1. -/
def wkSelected (b : Block) : Nat := max 1 (rfld b 0x10414 1 0)

/-- A write of GH_WK_DATAi (R399): the words are gathered, and a write of GH_WK_DATA7 makes the selected key loaded with them. -/
def wkDataWrite (i : Nat) (v : Word) (b : Block) : Block :=
  let b := rput b (0x10420 + 4 * i) v
  if i ≠ 7 then b
  else
    let k := wkSelected b
    let key := (List.range 8).foldl (fun acc j => acc + (rget b (0x10420 + 4 * j)).toNat * 2 ^ (32 * j)) 0
    rset1 { b with wk := tput b.wk k (BitVec.ofNat 256 key) } 0x10414 (8 + k)

/-- WRAP_KEY_LOAD: the write of GH_WK_DATA7. -/
def execWrapKeyLoad (v : Word) (sec : Bool) (s : State) : Host.Outcome State Fault Refusal :=
  (regWrite4 s 0x1043C sec (wkDataWrite 7 v)).settled

/-- A wrap key is zeroised, and is no longer loaded. -/
def wkClear (k : Nat) (b : Block) : Block := rclr1 { b with wk := terase b.wk k } 0x10414 (8 + k)

/-- A write of GH_WK_SEL (R399): KEY selects, CLEAR zeroises the selected key. -/
def wkSelWrite (v : Word) (b : Block) : Block :=
  let b := rputF b 0x10414 1 0 (fld v 1 0)
  if v.getLsbD 2 then wkClear (wkSelected b) b else b

/-- WRAP_KEY_CLEAR. -/
def execWrapKeyClear (v : Word) (sec : Bool) (s : State) : Host.Outcome State Fault Refusal :=
  (regWrite4 s 0x10414 sec (wkSelWrite v)).settled

/-- A write of GH_RNG_CTRL (R403, R404): RESEED starts the count of generate requests again, RESTART the start-up tests. The word
keeps RESTART while they run (it reads 0). -/
def rngCtrlWrite (v : Word) (b : Block) : Block :=
  let b := if v.getLsbD 0 then { b with gens := 0 } else b
  if v.getLsbD 1 then rset1 (rclr1 b 0x10504 0) 0x10500 1 else b

/-- RNG_RESEED. -/
def execRngReseed (v : Word) (sec : Bool) (s : State) : Host.Outcome State Fault Refusal :=
  (regWrite4 s 0x10500 sec (rngCtrlWrite v)).settled

/-- RNG_RESTART. -/
def execRngRestart (v : Word) (sec : Bool) (s : State) : Host.Outcome State Fault Refusal :=
  (regWrite4 s 0x10500 sec (fun b => rngCtrlWrite v b)).settled

/-- RNG_HEALTH_FAIL (R404): the DRBG is in its failed state. -/
def rngHealthFail (b : Block) : Block := if b.inReset then b else rclr1 (rset1 b 0x10504 1) 0x10500 1

/-- RNG_HEALTH_FAIL. -/
def execRngHealthFail (s : State) : Host.Outcome State Fault Refusal := s.act rngHealthFail

/-- DRBG_INSTANTIATED (R403, R404): the start-up tests that a reset or RESTART began have passed. -/
def drbgInstantiated (b : Block) : Block :=
  if b.inReset || rbit b 0x10504 0 || (rbit b 0x10504 1 && !rbit b 0x10500 1) then b
  else rset1 (rclr1 (rclr1 { b with gens := 0 } 0x10504 1) 0x10500 1) 0x10504 0

/-- DRBG_INSTANTIATED. -/
def execDrbgInstantiated (s : State) : Host.Outcome State Fault Refusal := s.act drbgInstantiated

/-- A read of GH_RNG_DATA (R403, R404): 32 bits of the DRBG, or 0 with EMPTY_READ. -/
def rngData (b : Block) : Word × Block := if rngReady b then drbg 32 b else (0, rset1 b 0x10504 2)

/-- The same with its place on the port's data lines. -/
def rngRead (s : State) : Word64 × State :=
  let (v, b) := rngData s.blk
  (laneOfWord 0x10508 v, { s with blk := b })

/-- RNG_DATA_READ. -/
def execRngDataRead (sec : Bool) (s : State) : Host.Outcome State Fault Refusal := (portRead s 0x10508 false sec rngRead).settled

/-- PV_CFG.EMPTY (R98): the pavilion owns no queue but its admin queues, no open stripe and no key slot. -/
def pavEmpty (b : Block) (p : Nat) : Bool :=
  !(b.sqs.any (fun x => x.2.live && decide (x.1 < 4096 ∧ x.2.owner = p))) &&
    !(b.cqs.any (fun x => x.2.live && decide (x.1 < 2048 ∧ x.2.owner = p))) &&
    !(b.stripes.any (fun x => x.2.isOpen && decide (x.2.owner = p))) &&
    !(b.keys.any (fun x => decide (x.2.st ≠ .empty) && decide (x.2.owner = p)))

/-- PV_CFG as it reads. -/
def pavCfgWord (b : Block) (p : Nat) : Word :=
  (rget b (pavReg p 0xD000) &&& 0x27) ||| BitVec.ofNat 32 (8 * ofBool (pavEmpty b p))

/-- GH_PAGE_WORLDi as it reads: the bits of pages 16 to 31 read 1 (R389). -/
def pageWorldWord (b : Block) (i : Nat) : Word := rget b (0x10100 + 4 * i) ||| (if i = 0 then 0xFFFF0000 else 0)

/-- What the configuration digest of a report covers (R408). -/
def configBytes (b : Block) : List Byte :=
  let w (x : Word) : List Byte := leBytes 4 x.toNat
  let d (x : Word64) : List Byte := leBytes 8 x.toNat
  (List.range 32).flatMap (fun i => w (pageWorldWord b i)) ++
    (List.range 64).flatMap (fun i => d (rget64 b (0x11000 + 16 * i)) ++ d (rget64 b (0x11008 + 16 * i))) ++
    (List.range 16).flatMap (fun p => w (pavCfgWord b p)) ++ d (rget64 b 0x300) ++ d (rget64 b 0x430)

/-- The four bits of lane n in a report (R408). -/
def attLane (b : Block) (n : Nat) : Nat :=
  if n < b.build.lanes then imageOf b n + 4 * ofBool (rbit b (laneReg n 0x304) 0) + 8 * ofBool (laneNative b n) else 0

/-- Bytes 0x000 to 0x19F of a report (R408). -/
def attBody (b : Block) : List Byte :=
  [0x4C, 0x58, 0x41, 0x54] ++ leBytes 2 1 ++ leBytes 1 b.build.lanes ++ leBytes 1 (lifecycle b) ++ rowBytes b.rowSnap 0 16 ++
    rowBytes b.rowSnap 16 4 ++ zeros 4 ++ (List.range 8).flatMap (fun i => leBytes 4 (rget b (0x10620 + 4 * i)).toNat) ++
    leBytes 8 b.milepost.toNat ++ leBytes 4 (epochNow b).toNat ++ leBytes 1 (ofBool (epochValid b)) ++ zeros 3 ++
    (List.range 32).flatMap (fun k => leBytes 1 (attLane b (2 * k) + 16 * attLane b (2 * k + 1))) ++
    (List.range 4).flatMap (fun i => leBytes 48 (tget 0 b.digests i).toNat) ++ sha384 (configBytes b) ++
    sha384 ((List.range 16).flatMap (fun f => famBytes b f 0 1024)) ++ leBytes 4 (rget b 0x10318).toNat ++ zeros 12

/-- A report with its signature (R408): the nonce of the signature comes from the DRBG. -/
def attReport (b : Block) : List Byte × Block :=
  let body := attBody b
  let (k, b) := drbg 384 b
  (body ++ ecdsaSign (rowBytes b.rowSnap 0x730 48) (sha384 body) k.toNat, b)

/-- A write of GH_ATT_CTRL (R407): the W1C bits, then START. -/
def attWrite (v : Word) (b : Block) : Block :=
  let b := plainWrite b 0x10600 0xFFFFFFFF v
  if !v.getLsbD 0 then b
  else if b.att.isSome then rset1 b 0x10600 3
  else if !rngReady b then rputF b 0x10600 5 4 3
  else
    let addr := (rget64 b 0x10608).toNat % 2 ^ 48 / 512 * 512
    let (l, b) := attReport b
    let part (b : Block) (i : Nat) : Block :=
      (issue b (mkWrite 0 40 3 (.att i) (addr + 256 * i) (toBeats ((l.drop (256 * i)).take 256)) (List.replicate 4 (maskFirst 64)) true)).2
    each [0, 1] part (rset1 { b with att := some ⟨2, false⟩ } 0x10600 1)

/-- ATT_START. -/
def execAttStart (v : Word) (sec : Bool) (s : State) : Host.Outcome State Fault Refusal :=
  (regWrite4 s 0x10600 sec (attWrite v)).settled

/-- ATT_REPORT_DONE (R407): a write burst of the report has its response; with the last one the report is done, or has failed. -/
def attBurstDone (bad : Bool) (b : Block) : Block :=
  match b.att with
  | none => b
  | some x =>
    let x : Att := ⟨x.left - 1, x.bad || bad⟩
    if x.left ≠ 0 then { b with att := some x }
    else
      let b := rclr1 { b with att := none } 0x10600 1
      if x.bad then rputF b 0x10600 5 4 2 else rset1 b 0x10600 2

end Sys2Proof.Machine
end

