-- ==== Sys2Proof/Machine/Power.lean ====
section
/-! DEFINITION. Supply warnings and the at-risk list (R427 to R433), resets (R18, R431, R436, R444), the rise of lx_ready (R19), thermal
shutdown and restart (R374, R375), and the power states (R446 to R449). -/

namespace Sys2Proof.Machine

open Sys2Proof

/-- The registers of the always-on domain that a block reset keeps (R444). -/
def aonRegs : List Nat := [0x110, 0x114, 0x450, 0x454, 0x38024, 0x38028, 0x38030, 0x38040, 0x38044, 0x38048]

/-- The block as a reset of all but the always-on domain leaves it (R444). The pins keep their levels, and the model's own counters
go on. -/
def coldBlock (b : Block) : Block :=
  { Block.inReset0 b.build with
    rstPin := b.rstPin
    porPin := b.porPin
    brownHold := b.brownHold
    comp105 := b.comp105
    regs := b.regs.filter (fun p => aonRegs.contains p.1)
    idleIn := b.idleIn
    sleepIn := b.sleepIn
    wake := b.wake
    nextId := b.nextId
    order := b.order
    atRisk := b.atRisk
    free := b.free }

/-- A reset input has been low for ns nanoseconds (R18): too short a pulse is ignored, and between the two lengths nothing is
defined. -/
def resetPulse (ns : Nat) (s : State) (t : State) : Host.Outcome State Fault Refusal :=
  if ns < 20 then .next s
  else if ns < 100 then .fault .resetPulseUndefined
  else .next t

/-- Everything returns to its reset value (R18, R444), but for the pins and the comparators, which are inputs and keep their levels (log
entry 1, DESIGN CHOICE); CFLASH keeps its contents, but for what an abandoned command leaves (R420). -/
def powerOn (s : State) : State :=
  let s := cfAbandon s
  let b := s.blk
  { s with blk := { Block.inReset0 b.build with
    brownHold := b.brownHold
    comp105 := b.comp105
    idleIn := b.idleIn
    sleepIn := b.sleepIn
    free := b.free
    nextId := b.nextId
    order := b.order } }

/-- POWER_ON_RESET. -/
def execPowerOnReset (ns : Nat) (s : State) : Host.Outcome State Fault Refusal := resetPulse ns s (powerOn s)

/-- A block reset (R18, R433, R436): every lane is held in the at-risk list, and PM_RESET_CAUSE records it. -/
def resetBlock (s : State) : State :=
  let s := cfAbandon s
  { s with blk := { rset1 (coldBlock (holdAll s.blk)) 0x38030 1 with rstPin := true } }

/-- BLOCK_RESET. -/
def execBlockReset (ns : Nat) (s : State) : Host.Outcome State Fault Refusal := resetPulse ns s (resetBlock s)

/-- A brown-out reset (R431): VDD_CORE has been below its reset level for 100 ns. In PS3 VDD_CORE is not watched. -/
def brownOut (ns : Nat) (s : State) : State :=
  if ns < 100 ∨ powerState s.blk = 3 then s
  else
    let s := cfAbandon s
    let b := rset1 (rset1 (coldBlock (holdAll s.blk)) 0x38030 2) 0x38024 12
    { s with blk := { b with brownHold := true } }

/-- BROWN_OUT_RESET. -/
def execBrownOutReset (ns : Nat) (s : State) : Host.Outcome State Fault Refusal := .next (brownOut ns s)

/-- The block leaves reset (R18, R19, R399, R411): Gatehouse starts and the tables are loaded. -/
def startBlock (nv : NonVol) (errs : List ReadErr) (rowBad : Bool) (b : Block) : Block :=
  loadTables nv errs (houseStart nv errs rowBad { b with inReset := false })

/-- RESET_DEASSERT (R18, R464): the reset inputs are high; a block that VDD_CORE holds stays in reset (R431). -/
def resetDeassert (nv : NonVol) (errs : List ReadErr) (rowBad : Bool) (b : Block) : Block :=
  if !b.rstPin then b
  else
    let b := { b with rstPin := false, porPin := false }
    if b.brownHold then b else startBlock nv errs rowBad b

/-- RESET_DEASSERT. -/
def execResetDeassert (errs : List ReadErr) (rowBad : Bool) (s : State) : Host.Outcome State Fault Refusal :=
  s.act (resetDeassert s.nv errs rowBad)

/-- The registers that the always-on image holds do not include those that are in the always-on domain themselves. -/
def aonHeld (a : Nat) : Bool := aonRegs.contains a || (decide (0x38000 ≤ a) && decide (a < 0x39000))

/-- Puts register words into a table of them. -/
def putWords (t : Tab Word) (l : Tab Word) : Tab Word := l.foldl (fun t p => tput t p.1 p.2) t

/-- The configuration comes back from the always-on image (R449). -/
def restoreImage (b : Block) : Block :=
  match b.aonImage with
  | none => b
  | some t => { b with regs := putWords t (b.regs.filter (fun p => aonHeld p.1)), aonImage := none }

/-- VDD_CORE_RESTORED (R431, R449): VDD_CORE has stayed above CORE_WARN for 50 µs, which ends a brown-out reset or, after a write of
PM_WAKE in PS3, starts the restore. -/
def vddRestored (nv : NonVol) (errs : List ReadErr) (rowBad : Bool) (b : Block) : Block :=
  if b.brownHold then
    let b := { b with brownHold := false }
    if b.rstPin then b else startBlock nv errs rowBad b
  else if powerState b = 3 ∧ rbit b 0x38008 0 ∧ !b.restoring ∧ !b.inReset then
    { startBlock nv errs rowBad (rclr1 (restoreImage b) 0x38008 0) with restoring := true }
  else b

/-- VDD_CORE_RESTORED. -/
def execVddCoreRestored (errs : List ReadErr) (rowBad : Bool) (s : State) : Host.Outcome State Fault Refusal :=
  s.act (vddRestored s.nv errs rowBad)

/-- Every lane has finished or failed its load (R330). -/
def loadsDone (b : Block) : Bool := (laneNums b).all (fun n => !(lane b n).loadPend)

/-- LX_READY (R19, R368, R449): lx_ready rises with SYS_STATUS.READY, and the loop starts. At an exit from PS3 the block is back in
PS0, and the tick and every timer counted in ticks run on from where they stood (R42, R444; log entry 98, DEDUCED). -/
def lxReady (b : Block) : Block :=
  if b.inReset || b.lxReady || faulted b || !loadsDone b || !(decide (powerState b = 0) || b.restoring) then b
  else
    let b := loopStart (rset1 { b with lxReady := true } 0x4 0)
    if !b.restoring then b
    else
      let b := { b with restoring := false, ticking := true }
      rset1 (rputF b 0x38004 1 0 0) 0x38010 2

/-- LX_READY. -/
def execLxReady (s : State) : Host.Outcome State Fault Refusal := s.act lxReady

/-- The bit of a supply in PM_SUPPLY_STAT. -/
def supplyBit : Supply → Nat
  | .vcc => 0
  | .vccq => 1
  | .core => 2

/-- What a supply warning takes back on a lane (R429, R238, R191): the program or erase issue routine that runs without its confirm taken
is abandoned, and those placed and not begun, and a RAW's first, return to those to be placed. -/
def warnLane (b : Block) (n : Nat) : Block :=
  let b := match (lane b n).seq with
    | some q => if warnStops b q.routine && !q.confirmed then putBack n q.routine (abandonSeq n b) else b
    | none => b
  let back := ((lane b n).frame ++ (lane b n).next).filter (warnHolds b)
  if back.isEmpty then b
  else each back (fun b r => putBack n r b) (dropRoutines n (fun r => back.contains r) b)

/-- SUPPLY_WARNING (R427, R429, R430, R433): a warning is recognised; one that begins while another holds lengthens it. The always-on
domain recognises it in a block reset too (log entry 101, DEDUCED); in PS3 the inputs are not watched (R39). -/
def supplyWarning (w : Supply) (b : Block) : Block :=
  if b.porPin || decide (powerState b = 3) || rbit b 0x38024 (supplyBit w) then b
  else
    let first := !warned b
    let b := rset1 (rset1 b 0x38024 (supplyBit w)) 0x38024 (8 + (supplyBit w))
    if !first then b
    else
      let free := (laneNums b).filter (fun n => !laneHeld b n)
      let b := { holdAll (rinc b 0x38024 31 16 1) with warnHeld := free, warnWhole := true }
      if b.inReset then b else each (laneNums b) warnLane b

/-- SUPPLY_WARNING. -/
def execSupplyWarning (w : Supply) (s : State) : Host.Outcome State Fault Refusal := s.act (supplyWarning w)

/-- SUPPLY_WARNING_END (R430, R433): a supply's warning clears; with the last of them the warning, `us` microseconds long, has ended. RECOVERED sets where no reset came in it. -/
def supplyWarningEnd (w : Supply) (us : Nat) (b : Block) : Block :=
  if b.porPin || decide (powerState b = 3) || !rbit b 0x38024 (supplyBit w) then b
  else
    let b := rclr1 b 0x38024 (supplyBit w)
    if warned b then b
    else
      let b := rput (if b.warnWhole then rset1 b 0x38024 11 else b) 0x38028 (BitVec.ofNat 32 (min us 0xFFFFFFFF))
      { each b.warnHeld releaseLane b with warnHeld := [], warnWhole := false }

/-- SUPPLY_WARNING_END. -/
def execSupplyWarningEnd (w : Supply) (us : Nat) (s : State) : Host.Outcome State Fault Refusal := s.act (supplyWarningEnd w us)

/-- WP_n of lane n (R240, R374, R448): high after identification, but for a supply warning with no program or erase on the lane's
dies, a thermal shutdown, a block fault (R439), and PS3. -/
def wpN (b : Block) (n : Nat) : Bool :=
  laneStarted b n && !tripped b && !faulted b && decide (powerState b ≠ 3) &&
    (!warned b || (validDies b n).any (fun d =>
      opPrograms (die b n d).op || opPrograms (die b n d).susp || opErases (die b n d).op || opErases (die b n d).susp))

/-- THERMAL_TRIP (R374): the 125 °C comparator of a valid sensor trips and the block shuts down. -/
def thermalTrip (sensor : Nat) (b : Block) : Block :=
  if b.inReset || decide (powerState b = 3) || (b.sensors.getD sensor none).isNone then b
  else
    let b := rinc (rset1 (rset1 b 0x30008 4) 0x300C0 0) 0x300C0 15 8 1
    let b := each (laneNums b) (fun b n => abandonSeq n b) b
    let b := { b with toll := { b.toll with u := 0, uNext := none } }
    noteCooling (emptyBuckets b)

/-- THERMAL_TRIP. -/
def execThermalTrip (sensor : Nat) (s : State) : Host.Outcome State Fault Refusal := s.act (thermalTrip sensor)

/-- COMPARATOR_105C_CHANGE (R375). -/
def comparatorChange (sensor : Nat) (high : Bool) (b : Block) : Block :=
  if b.inReset then b else noteCooling { b with comp105 := b.comp105.set sensor high }

/-- COMPARATOR_105C_CHANGE. -/
def execComparator105cChange (sensor : Nat) (high : Bool) (s : State) : Host.Outcome State Fault Refusal :=
  s.act (comparatorChange sensor high)

/-- A general channel's work is dropped by a thermal restart (R444): it is left IDLE, or DISABLED where DISABLE is set, with its program,
shadow set and LOAD. -/
def chanRestart (j : Nat) (b : Block) (g : Nat) : Block :=
  updChan (dropBursts (Burst.ofChan j g) b) j g (fun c => { c with run := if c.run = 5 then 5 else 0, left := 0, moving := false, loadWait := false })

/-- THERMAL_RESTART (R375, R437, R444): the restart condition has held for 100 ms. Every lane is reset with discard and starts again, the
channels are left IDLE, and the loop starts. -/
def thermalRestart (b : Block) : Block :=
  if !tripped b || !coolNow b || b.inReset || faulted b || decide (powerState b = 3) then b
  else
    let b := rset1 (rclr1 (rclr1 b 0x300C0 0) 0x300C0 1) 0x30008 5
    let b := holdAll (rset1 b 0x38030 3)
    let b := discardLanes (laneNums b) 3 7 0 b
    let b := each (laneNums b) (fun b n => resetLane false n b) b
    let b := each (juncNums b) (fun b j => each (List.range 8) (chanRestart j) b) b
    loopStart (each (juncNums b) (fun b j => pump j false b) b)

/-- THERMAL_RESTART. -/
def execThermalRestart (s : State) : Host.Outcome State Fault Refusal := s.act thermalRestart

/-- A write of PM_CTRL (R426, R446, R448): REQ 2 or 3 requests a power state, 0 cancels; 1 is taken as 0. -/
def pmCtrlWrite (v : Word) (sec : Bool) (b : Block) : Block :=
  if !sec then b
  else
    let r := if fld v 1 0 = 1 then 0 else fld v 1 0
    rputB (rputF b 0x38000 1 0 r) 0x38004 2 (decide (r ≠ 0))

/-- PM_REQ_PS2. -/
def execPmReqPs2 (v : Word) (sec : Bool) (s : State) : Host.Outcome State Fault Refusal :=
  (regWrite4 s 0x38000 sec (pmCtrlWrite v sec)).settled

/-- PM_REQ_PS3. -/
def execPmReqPs3 (v : Word) (sec : Bool) (s : State) : Host.Outcome State Fault Refusal :=
  (regWrite4 s 0x38000 sec (fun b => pmCtrlWrite v sec b)).settled

/-- PM_REQ_CANCEL. -/
def execPmReqCancel (v : Word) (sec : Bool) (s : State) : Host.Outcome State Fault Refusal :=
  (regWrite4 s 0x38000 sec (fun b => (pmCtrlWrite v sec) b)).settled

/-- A lane is quiet (R446): its pool and holding area are empty, its channels have no job, and no die works, trains or waits for a
reset. -/
def laneQuiet (b : Block) (n : Nat) : Bool :=
  let l := lane b n
  decide (poolCount b n = 0) && l.holding.isEmpty && l.inJobs.isEmpty && l.outJobs.isEmpty && l.seq.isNone &&
    (validDies b n).all (fun d =>
      let x := die b n d
      x.op.isNone && x.susp.isNone && !x.training && !(laneStarted b n && x.needReset))

/-- The conditions of R446. -/
def blockQuiet (b : Block) : Bool :=
  (laneNums b).all (laneQuiet b) && b.cqs.all (fun x => x.2.wait.isEmpty) &&
    (juncNums b).all (fun j => (List.range 8).all (fun g => [0, 4, 5].contains (chan b j g).run)) &&
    !b.cf.busy && b.att.isNone && (List.range 16).all (fun p => (pav b p).exec.isNone && (pav b p).queue.isEmpty)

/-- A request for power state r awaits its conditions, and the block can enter it. -/
def requested (b : Block) (r : Nat) : Bool :=
  !b.inReset && b.lxReady && !faulted b && decide (powerState b = 0) && rbit b 0x38004 2 && decide (rfld b 0x38000 1 0 = r)

/-- PS2_ENTRY (R446): at a tick boundary with the conditions met, the tick stops and the clocks are gated. -/
def ps2Entry (b : Block) : Block :=
  if !requested b 2 || !blockQuiet b then b
  else
    let b := each (laneNums b) (fun b n => each (validDies b n) (fun b d => updDie b n d (fun x => { x with ps2Band := dieBand b n d })) b) b
    let b := rclr1 (rputF { b with ticking := false } 0x38004 1 0 2) 0x38004 2
    rset1 b 0x38010 0

/-- PS2_ENTRY. -/
def execPs2Entry (s : State) : Host.Outcome State Fault Refusal := s.act ps2Entry

/-- A die at the exit from PS2 (R248): one whose band has changed is due for retraining; every die in service is given a short ZQ calibration where its family sets ZQ. -/
def wakeDie (n : Nat) (b : Block) (d : Nat) : Block :=
  let b := evalBand n d b
  let b := if dieInService b n d && famOption b (dieFamily b n d) 5 then noteSteps n [enteredAt b n d 15 1] (clearSteps n d b) else b
  if dieInService b n d && decide (dieBand b n d ≠ (die b n d).ps2Band) then
    updDie b n d (fun x => { x with retrain := some (x.retrain.getD (now b)) })
  else b

/-- A channel at rest whose LOAD was set while the clocks were gated takes its handover as they resume (R346, R446). -/
def wakeChan (j : Nat) (b : Block) (g : Nat) : Block := if (chan b j g).loadWait then startChan b j g else b

/-- PS2_EXIT (R447, R248, R368): something has asked the block to leave PS2. The clocks and the tick resume, and the loop starts. -/
def ps2Exit (b : Block) : Block :=
  if powerState b ≠ 2 ∨ !rbit b 0x38008 0 then b
  else
    let b := rputF (rclr1 { b with ticking := true } 0x38008 0) 0x38004 1 0 0
    let b := each ((laneNums b).filter (laneStarted b)) (fun b n => each (validDies b n) (wakeDie n) b) b
    let b := each (juncNums b) (fun b j => each (List.range 8) (wakeChan j) b) b
    rset1 (loopStart b) 0x38010 1

/-- PS2_EXIT. -/
def execPs2Exit (s : State) : Host.Outcome State Fault Refusal := s.act ps2Exit

/-- The word of a register after a pass through the always-on image: its configuration bits, the rest at its reset value. -/
def configWord (a : Nat) (w : Word) : Word :=
  match regDesc a with
  | none => 0
  | some r => (w &&& r.rw) ||| (r.rst &&& ~~~r.rw)

/-- What PS3 keeps of a register (R444 note 1; log entry 36, DEDUCED): SYS and PM as they are, Gatehouse's page worlds and descriptors, and the
configuration bits of TG, IC, JN, CW, LN and PV; PV_ADM_CTRL.ENABLE, waymarks, the channels' shadow sets and programs go. -/
def ps3Word (a : Nat) (w : Word) : Word :=
  let o := (a - 0x80000) % 0x8000
  if a = 0x4 then 0
  else if a = 0x8 then w &&& 0xFFFF
  else if a < 0x1000 ∨ aonHeld a then w
  else if a < 0x20000 then
    if (0x10100 ≤ a ∧ a < 0x10180) ∨ a = 0x10200 ∨ 0x11000 ≤ a then w else resetWord a
  else if a < 0x30000 then resetWord a
  else if 0x50000 ≤ a ∧ a < 0x80000 then resetWord a
  else if 0x80000 ≤ a ∧ a < 0xC0000 then
    if o < 0x1100 ∨ (o < 0x1700 ∧ o % 0x40 = 0) then configWord a w else resetWord a
  else if 0x200000 ≤ a ∧ a % 0x10000 = 0xC210 then configWord a w &&& 0xFFFFFFFE
  else if 0x100000 ≤ a ∧ a < 0x140000 ∧ a % 0x1000 = 0xE4 then 0
  else configWord a w

/-- The registers that PS3 keeps. -/
def ps3Regs (b : Block) : Tab Word :=
  (b.regs.map (fun p => (p.1, ps3Word p.1 p.2))).filter (fun p => decide (p.2 ≠ resetWord p.1))

/-- The block as PS3 leaves it (R444): the configuration, the always-on domain, the timers counted in ticks and the slave port's answers. The credit counts of the
ports keep their values over PS3 (log entry 81, DESIGN CHOICE). -/
def ps3Block (b : Block) : Block :=
  { Block.inReset0 b.build with
    inReset := false
    rstPin := false
    porPin := false
    ticking := false
    milepost := b.milepost
    mileLatch := b.mileLatch
    newPeriod := b.newPeriod
    boardAt := b.boardAt
    sensors := b.sensors
    comp105 := b.comp105
    regs := ps3Regs b
    aonImage := some ((ps3Regs b).filter (fun p => !aonHeld p.1))
    credits := b.credits
    answers := b.answers
    lastAnswer := b.lastAnswer
    idleIn := b.idleIn
    sleepIn := b.sleepIn
    wake := b.wake
    nextId := b.nextId
    order := b.order
    lanes := (b.lanes.filter (fun p => decide (p.2.idle ≠ 0))).map (fun p => (p.1, { Lane.init with idle := p.2.idle }))
    lapLen := b.lapLen
    scrub := (List.range 65).map (fun k => (k, ⟨scrubFirst k, 0, now b⟩))
    atRisk := b.atRisk
    warnHeld := b.warnHeld
    warnWhole := b.warnWhole
    free := b.free }

/-- The conditions of R448 beyond those of R446. -/
def blockEmpty (b : Block) : Bool :=
  !(b.sqs.any (fun x => x.2.live && decide (x.1 < 4096))) && !(b.cqs.any (fun x => x.2.live && decide (x.1 < 2048))) &&
    b.stripes.all (fun x => !x.2.isOpen && x.2.closing.isEmpty) &&
    (laneNums b).all (fun n => (lane b n).opens.isEmpty && (lane b n).pages.isEmpty)

/-- PS3_ENTRY (R448): keys go, the configuration is saved, lx_ready drops, and STATE is 3. -/
def ps3Entry (b : Block) : Block :=
  if !requested b 3 || !blockQuiet b || !blockEmpty b then b
  else rclr1 (rputF (ps3Block b) 0x38004 1 0 3) 0x38004 2

/-- PS3_ENTRY. -/
def execPs3Entry (s : State) : Host.Outcome State Fault Refusal := s.act ps3Entry

/-- A write of PM_WAKE (R426, R447, R449): kept until the exit it asks for; it reads 0. -/
def pmWakeWrite (v : Word) (sec : Bool) (b : Block) : Block :=
  if sec && v.getLsbD 0 && decide (powerState b ≠ 0) then rset1 b 0x38008 0 else b

/-- PM_WAKE. -/
def execPmWake (v : Word) (sec : Bool) (s : State) : Host.Outcome State Fault Refusal :=
  (regWrite4 s 0x38008 sec (pmWakeWrite v sec)).settled

/-- A write of PM_ATRISK_CTRL (R426, R433): RELEASE releases every lane. -/
def atriskCtrlWrite (v : Word) (sec : Bool) (b : Block) : Block :=
  if sec && v.getLsbD 0 then each ((List.range 64).filter (laneHeld b)) releaseLane b else b

/-- ATRISK_RELEASE. -/
def execAtriskRelease (v : Word) (sec : Bool) (s : State) : Host.Outcome State Fault Refusal :=
  (regWrite4 s 0x38040 sec (atriskCtrlWrite v sec)).settled

/-- A write of PM_ATRISK_HOLD_LO or _HI (R426, R433): each 1 releases its lane. -/
def atriskHoldWrite (hi : Bool) (v : Word) (sec : Bool) (b : Block) : Block :=
  if !sec then b
  else each ((List.range 32).filter (fun i => v.getLsbD i)) (fun b i => releaseLane b (i + 32 * ofBool hi)) b

/-- ATRISK_LANE_RELEASE. -/
def execAtriskLaneRelease (hi : Bool) (v : Word) (sec : Bool) (s : State) : Host.Outcome State Fault Refusal :=
  (regWrite4 s (if hi then 0x38048 else 0x38044) sec (atriskHoldWrite hi v sec)).settled

end Sys2Proof.Machine
end

