-- ==== Sys2Proof/Machine/PavRegs.lean ====
section
/-! DEFINITION. The writes of a pavilion's own registers (R95, R98, R102 to R104, R387): PV_CFG, the grants, the admin queue's registers
and PV_SRC_TGT. -/

namespace Sys2Proof.Machine

open Sys2Proof

/-- PV_CFG.ENABLE is 0 and PV_CFG.EMPTY 1, so the pavilion's world and grants may change (R98). -/
def pavIdle (b : Block) (p : Nat) : Bool := !pavEnabled b p && pavEmpty b p

/-- A write is ignored under R98. -/
def pavBadWrite (b : Block) (p : Nat) : Block := rset1 b (pavReg p 0xD000) 5

/-- A secure write of PV_CFG (R95, R98, R99, R443); one that changes WORLD or SERVICE of a pavilion that is not idle is ignored whole. -/
def pvCfgWrite (p : Nat) (v : Word) (sec : Bool) (b : Block) : Block :=
  let a := pavReg p 0xD000
  if !sec then b
  else if fld v 2 1 ≠ rfld b a 2 1 ∧ pavIdle b p = false then pavBadWrite b p
  else
    let b := plainWrite b a 0xFFFFFFFF v
    if v.getLsbD 4 then pavResetStart p b else b

/-- PV_CFG_WRITE. -/
def execPvCfgWrite (p : Nat) (v : Word) (sec : Bool) (s : State) : Host.Outcome State Fault Refusal :=
  (regWrite4 s (pavReg p 0xD000) sec (pvCfgWrite p v sec)).settled

/-- PV_RESET. -/
def execPvReset (p : Nat) (v : Word) (sec : Bool) (s : State) : Host.Outcome State Fault Refusal :=
  (regWrite4 s (pavReg p 0xD000) sec (fun b => pvCfgWrite p v sec b)).settled

/-- A secure write of a range register (R95, R98): one that changes it is taken only while the pavilion is idle. -/
def pvRangeWrite (p o : Nat) (v : Word) (sec : Bool) (b : Block) : Block :=
  if !sec || decide (v = rget b (pavReg p o)) then b
  else if pavIdle b p then rput b (pavReg p o) v
  else pavBadWrite b p

/-- A secure write of PV_TARGETS or PV_SRC_TGT (R95, R101, R387). -/
def pvGrantWrite (p o : Nat) (v : Word) (sec : Bool) (b : Block) : Block :=
  if sec then plainWrite b (pavReg p o) 0xFFFFFFFF v else b

/-- PV_SRC_TGT_WRITE. -/
def execPvSrcTgtWrite (p : Nat) (v : Word) (sec : Bool) (s : State) : Host.Outcome State Fault Refusal :=
  (regWrite4 s (pavReg p 0xD008) sec (pvGrantWrite p 0xD008 v sec)).settled

/-- A ring base is 4 KiB-aligned with bits [63:48] zero (R102). -/
def baseOk (w : Word64) : Bool := decide (w.toNat % 4096 = 0) && decide (w.toNat < 2 ^ 48)

/-- A ring size (R102). -/
def kOk (k : Nat) : Bool := decide (4 ≤ k) && decide (k ≤ 16)

/-- The admin queue of pavilion p starts, its heads and tails 0 and its writer phase 1 (R102). -/
def admStart (p sqk cqk : Nat) (b : Block) : Block :=
  let sb := (rget64 b (pavReg p 0xC200)).toNat
  let cb := (rget64 b (pavReg p 0xC208)).toNat
  let b := updSq b (4096 + p) (fun _ => { Sq.none with live := true, owner := p, k := sqk, base := sb, cq := 2048 + p })
  let b := updCq b (2048 + p) (fun _ => { Cq.none with live := true, owner := p, k := cqk, base := cb })
  rset1 b (pavReg p 0xC210) 0

/-- The pavilion's fetch is from its admin queue. -/
def fetchesAdmin (b : Block) (p : Nat) : Bool := ((pav b p).fetch.map (fun f => decide (f.sq = 4096 + p))).getD false

/-- The admin queue of pavilion p goes (R103, R90): its fetch, its open chain, the commands waiting and the completions held are
dropped, and the command that executes runs to its end with no completion. -/
def admStop (p : Nat) (b : Block) : Block :=
  let b := match (sq b (4096 + p)).chain with
    | some ch => dropChain b ch.cmd
    | none => b
  let b := stopExec p (if fetchesAdmin b p then dropFetch p b else b)
  rclr1 (removeSq (removeCq b (2048 + p)) (4096 + p)) (pavReg p 0xC210) 0

/-- A write of PV_ADM_CTRL (R102, R103): SQ_K and CQ_K are taken while ENABLE is 0. -/
def pvAdmWrite (p : Nat) (v : Word) (b : Block) : Block :=
  let a := pavReg p 0xC210
  let was := rbit b a 0
  let b := if v.getLsbD 1 then rclr1 b a 1 else b
  if was then (if v.getLsbD 0 then b else admStop p b)
  else
    let b := rputF (rputF b a 12 8 (fld v 12 8)) a 20 16 (fld v 20 16)
    if !v.getLsbD 0 then b
    else if baseOk (rget64 b (pavReg p 0xC200)) && baseOk (rget64 b (pavReg p 0xC208)) && kOk (fld v 12 8) && kOk (fld v 20 16) then
      admStart p (fld v 12 8) (fld v 20 16) b
    else rset1 b a 1

/-- PV_ADM_ENABLE. -/
def execPvAdmEnable (p : Nat) (v : Word) (sec : Bool) (s : State) : Host.Outcome State Fault Refusal :=
  (regWrite4 s (pavReg p 0xC210) sec (pvAdmWrite p v)).settled

/-- PV_ADM_DISABLE. -/
def execPvAdmDisable (p : Nat) (v : Word) (sec : Bool) (s : State) : Host.Outcome State Fault Refusal :=
  (regWrite4 s (pavReg p 0xC210) sec (fun b => pvAdmWrite p v b)).settled

/-- A write of PV_ADM_RESUME (R104, R113): a stopped admin queue goes on from the slot. -/
def pvAdmResume (p : Nat) (v : Word) (b : Block) : Block :=
  let q := sq b (4096 + p)
  let slot := fld v 15 0
  if q.live && q.stopped && resumeOk q slot then resumeSq b (4096 + p) slot else rset1 b (pavReg p 0xC210) 1

/-- PV_ADM_RESUME. -/
def execPvAdmResume (p : Nat) (v : Word) (sec : Bool) (s : State) : Host.Outcome State Fault Refusal :=
  (regWrite4 s (pavReg p 0xC214) sec (pvAdmResume p v)).settled

/-- A write of a word of the admin ring bases (R102): ignored while PV_ADM_CTRL.ENABLE is 1. -/
def pvAdmBase (p o : Nat) (v : Word) (b : Block) : Block := if rbit b (pavReg p 0xC210) 0 then b else rput b (pavReg p o) v

/-- A write of another word of a pavilion's window (R70, R95): the doorbells at 8 B a slot, the admin registers and the grants. -/
def pavWrite (a : Nat) (v : Word) (sec : Bool) (b : Block) : Block :=
  let p := (a - 0x200000) / 0x10000
  let o := a % 0x10000
  if o < 0x8000 then (if o % 8 = 0 then sqDoorbell p (some (o / 8)) v b else b)
  else if o < 0xC000 then (if o % 8 = 0 then cqDoorbell p (some ((o - 0x8000) / 8)) v b else b)
  else if o = 0xC000 then sqDoorbell p none v b
  else if o = 0xC008 then cqDoorbell p none v b
  else if 0xC200 ≤ o ∧ o < 0xC210 then pvAdmBase p o v b
  else if o = 0xC210 then pvAdmWrite p v b
  else if o = 0xC214 then pvAdmResume p v b
  else if o = 0xD000 then pvCfgWrite p v sec b
  else if o = 0xD004 ∨ o = 0xD008 then pvGrantWrite p o v sec b
  else if 0xD010 ≤ o ∧ o ≤ 0xD020 then pvRangeWrite p o v sec b
  else plainWrite b a 0xFFFFFFFF v

end Sys2Proof.Machine
end

