-- ==== Sys2Proof/Machine/Intr.lean ====
section
/-! DEFINITION. The interrupt router's commands (R378 to R388): claim and complete, the moderation timer, the writes of IC_SRC_CFG, and
the pins idle_in and sleep_in. -/

namespace Sys2Proof.Machine

open Sys2Proof

/-- A read of IC_CLAIM (R381). -/
def claimRead (t : Nat) (s : State) : Word64 × State :=
  (laneOfWord (tgtReg t 0) (BitVec.ofNat 32 (claim s.blk t).2), { s with blk := (claim s.blk t).1 })

/-- IC_CLAIM. -/
def execIcClaim (t : Nat) (sec : Bool) (s : State) : Host.Outcome State Fault Refusal :=
  (portRead s (tgtReg t 0) false sec (claimRead t)).settled

/-- IC_COMPLETE (R383). -/
def execIcComplete (t : Nat) (v : Word) (sec : Bool) (s : State) : Host.Outcome State Fault Refusal :=
  (regWrite4 s (tgtReg t 4) sec (fun b => complete b t (fld v 9 0))).settled

/-- MODERATION_TIMEOUT (R379, R380). -/
def execModerationTimeout (src : Nat) (s : State) : Host.Outcome State Fault Refusal :=
  s.act (fun b => if b.inReset then b else moderate b src)

/-- A write of a word of IC_SRC_CFG, a secure one (R378, R387); a change of target is sensed when the router settles. -/
def srcCfgWrite (a : Nat) (v : Word) (sec : Bool) (b : Block) : Block := if sec then plainWrite b a 0xFFFFFFFF v else b

/-- IC_SRC_CFG_WRITE. -/
def execIcSrcCfgWrite (src : Nat) (bmask : BitVec 8) (v : Word64) (sec : Bool) (s : State) : Host.Outcome State Fault Refusal :=
  let a := srcCfg src + (if bmask = 0xF0 then 4 else 0)
  (portWrite s a bmask sec (fun s =>
    { s with blk := each (maskWords a bmask v) (fun b x => srcCfgWrite x.1 x.2.2 sec b) s.blk })).settled

/-- A pin of a target. -/
def setPin (w : BitVec 32) (t : Nat) (x : Bool) : BitVec 32 :=
  if x then w ||| BitVec.ofNat 32 (2 ^ t) else w &&& ~~~(BitVec.ofNat 32 (2 ^ t))

/-- IDLE_SLEEP_CHANGE (R31, R32, R386): the filtered idle_in and sleep_in of target t; with sleep_in low, wake_req falls. -/
def idleSleep (t : Nat) (idle sleep : Bool) (b : Block) : Block :=
  { b with
    idleIn := setPin b.idleIn t idle
    sleepIn := setPin b.sleepIn t sleep
    wake := if sleep then b.wake else setPin b.wake t false }

/-- IDLE_SLEEP_CHANGE. -/
def execIdleSleepChange (t : Nat) (idle sleep : Bool) (s : State) : Host.Outcome State Fault Refusal := s.act (idleSleep t idle sleep)

/-- IC_SRC_CFGn as it reads: the target of sources 16 to 63 mirrors PV_SRC_TGT. -/
def srcCfgWord (b : Block) (n : Nat) : Word := if 16 ≤ n ∧ n < 64 then setFld (rget b (srcCfg n)) 4 0 (srcTarget b n) else rget b (srcCfg n)

/-- The code of a source's state in IC_SRC_STAT. -/
def stateCode : SrcState → Nat
  | .idle => 0
  | .accum => 1
  | .pending => 2
  | .active => 3

/-- IC_SRC_STATn, low word: the count shows the responses since the claim while the source is ACTIVE. -/
def srcStatLow (b : Block) (n : Nat) : Word :=
  let s := src b n
  let active := decide (s.st = .active)
  BitVec.ofNat 32 (ofBool s.level + 2 * stateCode s.st + 8 * (if active then s.owner else srcTarget b n) +
    256 * min 255 (if active then s.since else s.count))

/-- IC_SRC_STATn, high word: the ticks left before the timer expires, 0 outside ACCUM. -/
def srcStatHigh (b : Block) (n : Nat) : Word :=
  let s := src b n
  if s.st = .accum then BitVec.ofNat 32 (min 65535 (s.due - now b)) else 0

/-- IC_TGT_STAT of target t. -/
def tgtStatWord (b : Block) (t : Nat) : Word :=
  BitVec.ofNat 32 (ofBool (irq b t) + 2 * ofBool (b.idleIn.getLsbD t) + 4 * ofBool (b.sleepIn.getLsbD t) + 8 * ofBool (b.wake.getLsbD t) +
    16 * ofBool (rbit b (tgtReg t 8) 4) +
    65536 * (b.srcs.filter (fun x => decide (x.2.st = .active) && decide (x.2.owner = t))).length)

/-- IC_CW_STAT: the Causeway device events by junction. -/
def cwStatWord (b : Block) : Word :=
  BitVec.ofNat 32 ((juncNums b).foldl (fun m j => if causewayEvent b j then m + 2 ^ j else m) 0)

end Sys2Proof.Machine
end

