-- ==== Sys2Proof/Machine/Bus.lean ====
section
/-! DEFINITION. What the fabric brings to the master ports (R20 to R26): credits, read returns, write acknowledges and response
timeouts, and what each of them means to the part that issued the burst. -/

namespace Sys2Proof.Machine

open Sys2Proof

/-- A burst out of the list. -/
def dropBurst (b : Block) (i : Nat) : Block := { b with bursts := b.bursts.eraseIdx i }

/-- A burst of a pavilion's fetch has ended (R65, R69): its beats land, unless it ended in error. -/
def fetchDone (p part : Nat) (x : Burst) (b : Block) : Block :=
  let b := if x.bad then b
    else updPav b p (fun v => { v with fetch := v.fetch.map (fun f =>
      { f with beats := f.beats ++ x.data.zipIdx.map (fun y => (part + y.2, y.1)) }) })
  fetchBurstDone b p x.bad

/-- A burst of an admin transfer has ended (R115, R117). -/
def adminDoneBurst (p part : Nat) (x : Burst) (b : Block) : Block :=
  let b := updExec b p (fun y =>
    { y with
      left := y.left - 1
      bad := y.bad || x.bad
      data := if x.write || x.bad then y.data else y.data ++ x.data.zipIdx.map (fun z => (part + z.2, z.1)) })
  adminTransferEnd b p

/-- Burst i has ended, in error or not, and leaves the list (R25): its issuer goes on. -/
def burstEnded (i : Nat) (x : Burst) (b : Block) : Block :=
  match x.owner with
  | .fetch p part => fetchDone p part x (dropBurst b i)
  | .comp c slot => if x.bad then complFail (dropBurst b i) c slot else complAck (dropBurst b i) c slot
  | .admin p part => adminDoneBurst p part x (dropBurst b i)
  | .general .. => if x.write then generalWriteDone x (dropBurst b i) else generalReadDone i x b
  | .job .. => jobBurstDone x (dropBurst b i)
  | .att _ => attBurstDone x.bad (dropBurst b i)

/-- A burst of the list has its response, or is denied: its issuer goes on, unless it was dropped since (R353). -/
def burstSettled (i : Nat) (x : Burst) (b : Block) : Block := if x.dropped then dropBurst b i else burstEnded i x b

/-- The bursts that were denied at their port's slot (R391, R392): a read returns zeros, a write is dropped, both with st DONE. -/
def settleDenied : Nat → Block → Block
  | 0, b => b
  | n + 1, b =>
    match (b.bursts.zipIdx).find? (fun p => p.1.denied) with
    | none => b
    | some p =>
      let x := { p.1 with denied := false, put := p.1.beats, data := if p.1.write then p.1.data else List.replicate p.1.beats 0 }
      settleDenied n (burstSettled p.2 x { b with bursts := b.bursts.set p.2 x })

/-- A port puts what it can, and its engine's MOVEs go on (R20, R348). -/
def portGoesOn (port : Nat) (b : Block) : Block :=
  let b := movesGoOn port 0 (pump port true (pump port false b))
  settleDenied b.bursts.length b

/-- What becomes of a burst whose response is whole. The port then puts what it can. -/
def burstOver (i : Nat) (x : Burst) (b : Block) : Block :=
  portGoesOn x.port (burstSettled i x (if x.bad then busError b x.port else b))

/-- FABRIC_READ_RETURN (R21, R24, R25): a beat of a read return; the last one ends the burst. -/
def readReturn (port id seq : Nat) (data : Beat) (st : BitVec 3) (b : Block) : Block :=
  if b.inReset then b
  else
    match findBurst b port false id with
    | none => portGoesOn port (lateResponse b port false id)
    | some (i, x) =>
      if seq ≠ x.got then b
      else
        let x := { x with got := x.got + 1, data := x.data ++ [data], bad := x.bad || decide (st ≠ stDone) }
        if x.got < x.beats then { b with bursts := b.bursts.set i x } else burstOver i x { b with bursts := b.bursts.set i x }

/-- FABRIC_READ_RETURN. -/
def execFabricReadReturn (port id seq : Nat) (data : Beat) (st : BitVec 3) (s : State) : Host.Outcome State Fault Refusal :=
  s.act (readReturn port id seq data st)

/-- FABRIC_WRITE_ACK (R22, R25): the acknowledge of a write burst all of whose flits have been put. -/
def writeAck (port id : Nat) (st : BitVec 3) (b : Block) : Block :=
  if b.inReset then b
  else
    match findBurst b port true id with
    | none => portGoesOn port (lateResponse b port true id)
    | some (i, x) =>
      if x.put < x.beats then b
      else if x.timeout then portGoesOn port (rinc (dropBurst b i) 0x108 23 16 1)
      else burstOver i { x with bad := decide (st ≠ stDone) } b

/-- FABRIC_WRITE_ACK. -/
def execFabricWriteAck (port id : Nat) (st : BitVec 3) (s : State) : Host.Outcome State Fault Refusal := s.act (writeAck port id st)

/-- The id of a burst whose time is up is quarantined (R26); a write burst goes on to put its remaining flits. -/
def quarantine (i : Nat) (x : Burst) (b : Block) : Block :=
  let n := x.id.getD 0
  if x.write && decide (x.put < x.beats) then
    { b with bursts := b.bursts ++ [{ x with timeout := true, dropped := true }] }
  else { b with quar := b.quar ++ [⟨x.port, x.write, n, x.ini, if x.write then 1 else x.beats - (b.bursts.getD i x).got⟩] }

/-- FABRIC_RESPONSE_TIMEOUT (R26, R439): the burst is counted as a bus error, its id is quarantined, and with 128 of one direction of a
port the block faults. -/
def responseTimeout (port : Nat) (write : Bool) (id : Nat) (b : Block) : Block :=
  match findBurst b port write id with
  | none => b
  | some (i, x) =>
    if b.inReset || x.timeout then b
    else
      let b := rinc (quarantine i x b) 0x108 15 8 1
      let b := rmax b 0x108 31 24 (min 255 (quarantined b port write))
      let b := burstOver i { x with bad := true, timeout := true, data := [] } b
      if 128 ≤ quarantined b port write then blockFault 1 b else b

/-- FABRIC_RESPONSE_TIMEOUT. -/
def execFabricResponseTimeout (port : Nat) (write : Bool) (id : Nat) (s : State) : Host.Outcome State Fault Refusal :=
  s.act (responseTimeout port write id)

/-- FABRIC_CREDIT (R20): one credit for a channel on which the block sends, and what it then puts. Unspent credits never exceed 255.
In PS3 the master ports are not watched (R39). -/
def addCredit (port : Option Nat) (chanNo : Nat) (b : Block) : Block :=
  let sends := match port with
    | some j => decide (j < b.build.juncs) && decide (chanNo = 0 ∨ chanNo = 2) && decide (powerState b ≠ 3)
    | none => decide (chanNo = 1 ∨ chanNo = 3)
  if b.inReset || !sends then b
  else
    let k := creditKey port chanNo
    let b := { b with credits := tset 0 b.credits k (min 255 (credit b k + 1)) }
    match port with
    | some j => portGoesOn j b
    | none => putAnswers b.answers.length b

/-- FABRIC_CREDIT. -/
def execFabricCredit (port : Option Nat) (chan : Nat) (s : State) : Host.Outcome State Fault Refusal := s.act (addCredit port chan)

end Sys2Proof.Machine
end

