-- ==== Sys2Proof/Machine/Regions.lean ====
section
/-! DEFINITION. The regions of fabric memory that the secure world names (R282 to R284, R299), and the writes of the family tables
through their window (R253, R465). -/

namespace Sys2Proof.Machine

open Sys2Proof

/-- A region word is refused whatever the lanes hold (R282): its base is not aligned to 2 MiB, or its size lies between 1 and 63. -/
def regionBad (v : Word64) : Bool :=
  decide (bitsOf v.toNat 20 16 ≠ 0) || (decide (1 ≤ bitsOf v.toNat 15 0) && decide (bitsOf v.toNat 15 0 ≤ 63))

/-- A lane holds a staged page, or tracks an open unit (R282). -/
def stagingInUse (b : Block) : Bool :=
  (laneNums b).any (fun n => (lane b n).pages.any (fun p => p.staged) || decide (openCount b n ≠ 0))

/-- An ignored region write sets BAD (R282). -/
def regionRefused (a : Nat) (b : Block) : Block := rset1 b (a + 4) 31

/-- An accepted region write; BAD is write-1-to-clear. -/
def regionTaken (a : Nat) (v : Word64) (b : Block) : Block :=
  plainWrite (plainWrite b a 0xFFFFFFFF (v.extractLsb' 0 32)) (a + 4) 0xFFFFFFFF (v.extractLsb' 32 32)

/-- A started lane shows the slots of its share anew (R284). -/
def restage (b : Block) (n : Nat) : Block :=
  if laneStarted b n then rputF b (laneReg n 0x24C) 15 0 (stageSlots b n) else b

/-- A write of SYS_STAGE (R282, R284): taken only as one secure 8 B write. -/
def stageWrite (v : Word64) (size8 sec : Bool) (b : Block) : Block :=
  if !size8 || !sec || regionBad v || stagingInUse b then regionRefused 0x300 b
  else each (laneNums b) restage (regionTaken 0x300 v b)

/-- SYS_STAGE_WRITE. -/
def execSysStageWrite (v : Word64) (size8 sec : Bool) (s : State) : Host.Outcome State Fault Refusal :=
  (portWrite s 0x300 (if size8 then 0xFF else 0x0F) sec (fun s => { s with blk := stageWrite v size8 sec s.blk })).settled

/-- A started lane counts anew the dies whose records fit its share (R296, R299). -/
def rerecord (b : Block) (n : Nat) : Block :=
  if laneStarted b n then
    let k := recordDies b n
    rputF (updLane b n (fun l => { l with recDies := k })) (laneReg n 0x264) 6 0 k
  else b

/-- A write of SYS_UREC (R299): taken only as one secure 8 B write, also while pages are staged or units open. -/
def urecWrite (v : Word64) (size8 sec : Bool) (b : Block) : Block :=
  if !size8 || !sec || regionBad v then regionRefused 0x430 b
  else each (laneNums b) rerecord (regionTaken 0x430 v b)

/-- SYS_UREC_WRITE. -/
def execSysUrecWrite (v : Word64) (size8 sec : Bool) (s : State) : Host.Outcome State Fault Refusal :=
  (portWrite s 0x430 (if size8 then 0xFF else 0x0F) sec (fun s => { s with blk := urecWrite v size8 sec s.blk })).settled

/-- A write of one word of the family window (R253, R465): secure, and while no started lane has a die of the family in service. It
replaces the block's copy, and with it a word that CFLASH could not correct. -/
def familyWordWrite (off : Nat) (v : Word) (sec : Bool) (b : Block) : Block :=
  let f := off / 0x400
  if 0x4000 ≤ off then b
  else if !sec || familyInUse b f then rset1 b 0x8 8
  else
    { b with
      tbl := tset 0xFFFFFFFF b.tbl off v
      tblBad := b.tblBad.filter (· != off / 4)
      famDirty := if b.famDirty.contains f then b.famDirty else b.famDirty ++ [f] }

/-- FAMILY_TABLE_WRITE. -/
def execFamilyTableWrite (off : Nat) (bmask : BitVec 8) (v : Word64) (sec : Bool) (s : State) : Host.Outcome State Fault Refusal :=
  (portWrite s (0x300000 + off) bmask sec (fun s =>
    { s with blk := each (maskWords off bmask v) (fun b x => familyWordWrite x.1 x.2.2 sec b) s.blk })).settled

end Sys2Proof.Machine
end

