-- ==== Sys2Proof/Machine/View.lean ====
section
/-! DEFINITION. What a register word reads as where its fields follow the block's state: each function gives one register, or the
registers of one page. A field that no function here names reads as it is stored. -/

namespace Sys2Proof.Machine

open Sys2Proof

/-- SYS_BUILD (R464): the lanes and junctions of the build. -/
def buildWord (b : Block) : Word := toWord (b.build.lanes + 256 * b.build.juncs)

/-- MP_LAP_LANE: zero for absent lanes. -/
def lapWord (b : Block) (k : Nat) : Word := toWord (tget 0 b.lapLen k)

/-- The SYS page. -/
def sysView (b : Block) (a : Nat) : Word :=
  if a = 0 then buildWord b
  else if a = 0x208 then b.milepost.extractLsb' 0 32
  else if a = 0x20C then b.mileLatch
  else if a = 0x818 then lapWord b 64
  else if a = 0x820 then (if rfld b 0x81C 5 0 < b.build.lanes then lapWord b (rfld b 0x81C 5 0) else 0)
  else rget b a

/-- GH_VLOG_INFO of an entry (R393). -/
def vlogWord (v : Violation) : Word :=
  toWord (ofBool v.write + 2 * ofBool v.master + 4 * v.port + 32 * v.ini + 2048 * ofBool v.sec + 65536 * v.rep)

/-- GH_KEY_INFO of slot k: slot 0 reads LIVE. -/
def keyInfoWord (b : Block) (k : Nat) : Word :=
  let s := keySlot b k
  let st := if k = 0 then 1 else match s.st with
    | .empty => 0
    | .live => 1
    | .void => 2
  let held := decide (k ≠ 0) && decide (s.st ≠ .empty)
  toWord (st + (if held then 4 * ofBool s.exportable + 256 * s.owner else 0) + 65536 * (boundQueues b k).length)

/-- GH_KEY_STAT. -/
def keyStatWord (b : Block) : Word :=
  toWord ((b.keys.filter (fun x => decide (x.2.st = .live))).length + 4096 * ofBool (zeroising b) +
    65536 * (b.keys.filter (fun x => decide (x.2.st = .void))).length)

/-- The Gatehouse page: the log shows its oldest entry, GH_WK_DATA and GH_RNG_CTRL read zero. -/
def ghView (b : Block) (a : Nat) : Word :=
  let o := a - 0x10000
  let v := b.vlog.head?
  if 0x100 ≤ o ∧ o < 0x180 then pageWorldWord b ((o - 0x100) / 4)
  else if o = 0x300 then (v.map vlogWord).getD 0
  else if o = 0x308 then toWord ((v.map (·.addr)).getD 0)
  else if o = 0x30C then toWord ((v.map (·.addr)).getD 0 / 2 ^ 32)
  else if o = 0x310 then (v.map (·.tick)).getD 0
  else if o = 0x314 then setFld (rget b a) 12 8 b.vlog.length
  else if o = 0x404 then keyStatWord b
  else if o = 0x40C then keyInfoWord b (rfld b 0x10408 11 0)
  else if 0x420 ≤ o ∧ o < 0x440 then 0
  else if o = 0x500 then 0
  else rget b a

/-- CF_PROT_STATUS: LOCKED, BADENT and ACTIVE follow the protection row (R421). -/
def protStatusWord (nv : NonVol) (b : Block) : Word :=
  (rget b 0x20050 &&& 0x7E) ||| toWord (ofBool (protLocked nv) + 128 * ofBool (protBad nv) +
    65536 * ((List.range 16).foldl (fun m r => if protInUse nv r then m + 2 ^ r else m) 0))

/-- The CF registers: CF_KEY, CF_CMD and CF_DATA read zero. -/
def cfView (nv : NonVol) (b : Block) (a : Nat) : Word :=
  let o := a - 0x20000
  let w := sealWord nv (rfld b 0x20040 9 0)
  if o = 0x18 then toWord (ofBool b.cf.busy + 2 * b.cf.step + 16 * b.cf.cmd + 256 * ofBool (rbit b 0x38024 2))
  else if o = 0x40 then (rget b a &&& 0x3FF) ||| toWord (65536 * ofBool (sealed nv (rfld b 0x20040 9 0)))
  else if o = 0x48 then w.extractLsb' 0 32
  else if o = 0x4C then w.extractLsb' 32 32
  else if o = 0x50 then protStatusWord nv b
  else rget b a

/-- The TG registers. -/
def tgView (b : Block) (a : Nat) : Word :=
  let o := a - 0x30000
  let g := b.toll
  if o = 0x80 then setFld (setFld 0 15 0 (BitVec.ofInt 16 g.meas).toNat) 31 16 (BitVec.ofInt 16 (g.x / 65536)).toNat
  else if o = 0x84 then BitVec.ofInt 32 g.u
  else if o = 0x88 then BitVec.ofInt 32 g.integ
  else if o = 0x8C then setFld (rget b a) 15 0 (BitVec.ofInt 16 g.thc).toNat
  else if 0xA0 ≤ o ∧ o < 0xC0 then
    (if (o - 0xA0) / 4 < b.build.juncs then toWord ((junc b ((o - 0xA0) / 4)).bucket / 65536) else 0)
  else rget b a

/-- The PM registers: PM_WAKE reads zero, and the at-risk bits are those of the selected lane (R432). -/
def pmView (b : Block) (a : Nat) : Word :=
  let o := a - 0x38000
  let n := rfld b 0x3804C 5 0
  if o = 0x8 then 0
  else if o = 0x50 then toWord (progBits b n)
  else if o = 0x54 then toWord (progBits b n / 2 ^ 32)
  else if o = 0x58 then toWord (eraseBits b n)
  else if o = 0x5C then toWord (eraseBits b n / 2 ^ 32)
  else rget b a

/-- The IC registers. -/
def icView (b : Block) (a : Nat) : Word :=
  let o := a - 0x40000
  if o = 0x1C then cwStatWord b
  else if 0x1008 ≤ o ∧ o < 0x3000 ∧ o % 8 = 0 then srcCfgWord b ((o - 0x1000) / 8)
  else if 0x4008 ≤ o ∧ o < 0x6000 then (if o % 8 = 0 then srcStatLow b ((o - 0x4000) / 8) else srcStatHigh b ((o - 0x4000) / 8))
  else rget b a

/-- The page of an interrupt target: IC_COMPLETE reads zero. -/
def tgtView (b : Block) (a : Nat) : Word :=
  let t := (a - 0x50000) / 0x1000
  if a % 0x1000 = 8 then tgtStatWord b t else 0

/-- JN_SOFT_STAT: the codewords queued and the decoders at work (R276). -/
def softStatWord (b : Block) (j : Nat) : Word :=
  let x := junc b j
  setFld (setFld (rget b (juncReg j 0x208)) 5 0 x.soft.length) 11 8
    ((List.range 4).foldl (fun m d => if tget 0 x.dec d ≠ 0 then m + 2 ^ d else m) 0)

/-- A general channel's registers that follow its state (R341 to R347). -/
def chanView (b : Block) (j g f : Nat) : Word :=
  let c := chan b j g
  let w := rget b (chanReg j (16 + g) f)
  if f = 8 then setFld (setFld (setFld w 2 0 c.run) 7 3 c.pc) 15 8 c.left
  else if f = 0x24 then toWord c.count
  else if f = 0x30 then toWord c.src
  else if f = 0x34 then toWord (c.src / 2 ^ 32)
  else if f = 0x38 then toWord c.dst
  else if f = 0x3C then toWord (c.dst / 2 ^ 32)
  else w

/-- The beats of a lane's running job that its channel has still to move (R341): those whose read ask, or whose flit, has not been put. -/
def jobLeft (b : Block) (n : Nat) (inbound : Bool) (x : Job) : Nat :=
  if !x.started then x.beats
  else
    ((b.bursts.filter (fun y => match y.owner with
      | .job m dir _ => decide (m = n) && decide (dir = inbound)
      | _ => false)).map (fun y => if y.write then y.beats - y.put else if y.id.isNone then y.beats else 0)).foldl (· + ·) 0

/-- A lane-bound channel's registers (R336): the shadow set holds the job handed over last, the live registers the one that runs, a
MOVE and then an END that drains. A lane-buffer position is 0 before the first job, and is not stated after: a free value (log entry 3,
DESIGN CHOICE). -/
def laneChanView (b : Block) (j c f : Nat) : Word × Block :=
  let n := 8 * j + c / 2
  let inbound := decide (c % 2 = 0)
  let jobs := if inbound then (lane b n).inJobs else (lane b n).outJobs
  let live := jobs.head?
  let shadow := jobs[1]?
  let w := rget b (chanReg j c f)
  let left := (live.map (jobLeft b n inbound)).getD 0
  let half (x : Nat) (hi : Bool) : Word := toWord (x / (if hi then 2 ^ 32 else 1))
  let fabric (src : Bool) : Bool := decide (src = inbound)
  let buffer (hi : Bool) : Word × Block := if hi || decide (rget b (chanReg j c 0x20) = 0) then (0, b) else freeOf 32 b
  let at_ (x : Job) : Nat := x.addr / 64 * 64 + 64 * (x.beats - left)
  let pointer (x : Option Nat) (src hi : Bool) : Word × Block :=
    if fabric src then ((x.map (fun a => half a hi)).getD w, b) else buffer hi
  let state := if live.isNone then 0 else if left = 0 then 3 else 1
  if f = 4 then (w ||| toWord (ofBool shadow.isSome), b)
  else if f = 8 then (setFld (setFld w 2 0 state) 7 3 (ofBool (decide (state = 3))), b)
  else if f = 0x10 ∨ f = 0x14 then pointer (shadow.map (·.addr)) true (decide (f = 0x14))
  else if f = 0x18 ∨ f = 0x1C then pointer (shadow.map (·.addr)) false (decide (f = 0x1C))
  else if f = 0x20 then ((shadow.map (fun x => toWord x.beats)).getD w, b)
  else if f = 0x24 then (if live.isNone then w else toWord left, b)
  else if f = 0x30 ∨ f = 0x34 then pointer (live.map at_) true (decide (f = 0x34))
  else if f = 0x38 ∨ f = 0x3C then pointer (live.map at_) false (decide (f = 0x3C))
  else (w, b)

/-- A junction page. -/
def junctionView (b : Block) (a : Nat) : Word × Block :=
  let j := (a - 0x80000) / 0x8000
  let o := (a - 0x80000) % 0x8000
  if o = 0x208 then (softStatWord b j, b)
  else if o = 0x1000 then (toWord (idsInUse b j false + 65536 * idsInUse b j true), b)
  else if o = 0x1008 then (rget b (juncReg j 0x1004), b)
  else if 0x1100 ≤ o ∧ o < 0x1500 then laneChanView b j ((o - 0x1100) / 0x40) ((o - 0x1100) % 0x40)
  else if 0x1500 ≤ o ∧ o < 0x1700 then (chanView b j ((o - 0x1500) / 0x40) ((o - 0x1500) % 0x40), b)
  else (rget b a, b)

/-- LN_SVC_CFG of a class with the service queue bound to it (R109). -/
def svcWord (b : Block) (n cls : Nat) : Word :=
  let w := rget b (laneReg n (0x100 + 4 * cls))
  match serviceQueue b n cls with
  | some q => w ||| toWord (q * 65536 + 2 ^ 31)
  | none => w

/-- LN_TRAIN_DATA: the delay and eye of the selected die, signal and direction (R246). -/
def trainWord (b : Block) (n : Nat) : Word :=
  let sel := laneReg n 0x228
  let s := rfld b sel 11 8
  let k := s + 16 * rfld b sel 12 12
  let x := die b n (rfld b sel 5 0)
  if 8 < s then 0 else toWord (min 255 (tget 0 x.delays k) + 256 * min 255 (tget 0 x.eyes k))

/-- Bits of the dies that hold a suspended operation. -/
def suspMask (b : Block) (n : Nat) : Nat := dieMask (fun d => (die b n d).susp.isSome)

/-- Unsatisfied WAITs of a lane (R178). -/
def waitCount (b : Block) (n : Nat) : Nat :=
  (((lane b n).pool.flatMap (fun e => (entry b e).instrs)).filter
    (fun r => decide (r.phase = .waiting) && decide (iOp r.bytes = opWait))).length

/-- Pool entries with an instruction held behind a FENCE or a WAIT (LN_POOL_UNARMED.HELD). -/
def heldEntries (b : Block) (n : Nat) : Nat :=
  ((lane b n).pool.filter (fun e => (entry b e).instrs.any (fun r => decide (r.phase = .held)))).length

/-- LN_TRAP_DATA: a word of the save frame; before the first save it is undefined, a free value (log entry 3, DESIGN CHOICE). -/
def trapWord (b : Block) (n : Nat) : Word × Block :=
  let k := rfld b (laneReg n 0x314) 4 0
  if 27 < k then (0, b)
  else if (lane b n).saveValid then (tget 0 (lane b n).save k, b)
  else freeOf 32 b

/-- A lane page. LN_TICK_BUDGET.TRAP, undefined until the loads have ended (R57), shows the way the lane takes the tick, 0 before its load (log
entry 104, DESIGN CHOICE). -/
def laneView (b : Block) (a : Nat) : Word × Block :=
  let n := (a - 0x100000) / 0x1000
  let o := a % 0x1000
  let l := lane b n
  let w := rget b a
  if o = 0x88 then (toWord (frameBudget b % 65536 + 65536 * ofBool (laneTraps b n)), b)
  else if o = 0xA4 then (w ||| toWord (ofBool l.ps1), b)
  else if o = 0xC0 then (w ||| toWord (l.holding.length + 128 * ofBool (decide (64 ≤ l.holding.length))), b)
  else if o = 0xD0 then (setFld (setFld w 7 0 (openCount b n)) 23 16 (l.opens.filter (fun u =>
      u.failed && decide (1 < passesOf b (dieFamily b n u.die)))).length, b)
  else if o = 0xE4 then (waymark b n (rfld b (laneReg n 0xE0) 7 0), b)
  else if o = 0xE8 then (setFld w 8 0 (waitCount b n), b)
  else if 0x100 ≤ o ∧ o < 0x120 then (svcWord b n ((o - 0x100) / 4), b)
  else if o = 0x148 then (setFld w 8 0 (min 256 (poolCount b n)), b)
  else if o = 0x14C then (toWord ((l.arrive.filter (fun e => !(entry b e).armed)).length + 65536 * heldEntries b n), b)
  else if o = 0x158 then (toWord (suspMask b n), b)
  else if o = 0x15C then (toWord (suspMask b n / 2 ^ 32), b)
  else if o = 0x224 then (setFld w 30 24 ((validDies b n).filter (fun d => (die b n d).retrain.isSome)).length, b)
  else if o = 0x22C then (trainWord b n, b)
  else if o = 0x244 then (toWord (l.frames % 32 + 256 * framesFree b n + 65536 * l.heldFrames.length + l.frameSz / 64 * 2 ^ 24), b)
  else if o = 0x24C then (setFld w 31 16 (usedSlots b n).length, b)
  else if o = 0x318 then trapWord b n
  else (w, b)

/-- PV_STRIPE_LOW (R101). -/
def stripeLowWord (b : Block) (p : Nat) : Word :=
  match spentStripes b p with
  | [] => 0
  | s :: _ => toWord (s + 256)

/-- A submission doorbell reads HEAD and TAIL of its queue, a completion doorbell HEAD and TAIL of its ring; a queue of another
pavilion, or none, reads zero. -/
def sqDbWord (b : Block) (p : Nat) (q : Option Nat) : Word :=
  let x := sq b (sqKey p q)
  if x.live && decide (x.owner = p) then toWord (x.tail + 65536 * x.head) else 0

/-- A completion doorbell as it reads. -/
def cqDbWord (b : Block) (p : Nat) (q : Option Nat) : Word :=
  let x := cq b (cqKey p q)
  if x.live && decide (x.owner = p) then toWord (x.head + 65536 * x.tail) else 0

/-- A pavilion's window. -/
def pavView (b : Block) (a : Nat) : Word :=
  let p := (a - 0x200000) / 0x10000
  let o := a % 0x10000
  if o < 0x8000 then (if o % 8 = 0 then sqDbWord b p (some (o / 8)) else 0)
  else if o < 0xC000 then (if o % 8 = 0 then cqDbWord b p (some ((o - 0x8000) / 8)) else 0)
  else if o = 0xC000 then sqDbWord b p none
  else if o = 0xC008 then cqDbWord b p none
  else if o = 0xC210 then
    (rget b a &&& 0x1F1F03) ||| toWord (4 * ofBool (sq b (4096 + p)).stopped + 8 * ofBool (pav b p).exec.isSome)
  else if o = 0xC218 then stripeLowWord b p
  else if o = 0xD000 then pavCfgWord b p
  else rget b a

/-- The family window and the recovery-set view (R465, R466). -/
def tableView (b : Block) (a : Nat) : Word :=
  if a < 0x304000 then tget 0xFFFFFFFF b.tbl (a - 0x300000)
  else if 0x310000 ≤ a ∧ a < 0x319400 then
    let f := rfld b 0x8 3 0
    if recHeld b f then recWord b f (a - 0x310000) else 0
  else 0

/-- A register word as it reads. -/
def viewWord (nv : NonVol) (b : Block) (a : Nat) : Word × Block :=
  if a < 0x10000 then (sysView b a, b)
  else if a < 0x20000 then (ghView b a, b)
  else if a < 0x28000 then (cfView nv b a, b)
  else if a < 0x30000 then (0, b)
  else if a < 0x38000 then (tgView b a, b)
  else if a < 0x40000 then (pmView b a, b)
  else if a < 0x50000 then (icView b a, b)
  else if a < 0x70000 then (tgtView b a, b)
  else if a < 0x80000 then (0, b)
  else if a < 0xC0000 then junctionView b a
  else if a < 0x100000 then (0, b)
  else if a < 0x140000 then laneView b a
  else if a < 0x200000 then (0, b)
  else if a < 0x300000 then (pavView b a, b)
  else (tableView b a, b)

end Sys2Proof.Machine
end

