-- ==== Sys2Proof/Machine/Slave.lean ====
section
/-! DEFINITION. Any access of the register slave port (R14, R27, R462): a write of a register word to the part that it belongs to, a read
with the effect that the word's reading has. -/

namespace Sys2Proof.Machine

open Sys2Proof

/-- A write that only secure transactions may make. -/
def secureWrite (a : Nat) (v : Word) (sec : Bool) (b : Block) : Block := if sec then plainWrite b a 0xFFFFFFFF v else b

/-- A write of a word of the SYS page (R37, R43, R282, R290, R299, R461). -/
def sysWrite (a : Nat) (v : Word) (sec : Bool) (b : Block) : Block :=
  if a = 0x110 then epochWrite v sec b
  else if a = 0x118 then boardTempWrite v b
  else if a = 0x200 then tickCtrlWrite v sec b
  else if a = 0x300 ∨ a = 0x304 then stageWrite 0 false sec b
  else if a = 0x430 ∨ a = 0x434 then urecWrite 0 false sec b
  else if a = 0x828 then testCtrlWrite v sec b
  else if (0x400 ≤ a ∧ a < 0x42C) ∨ (0x800 ≤ a ∧ a < 0x840) then secureWrite a v sec b
  else plainWrite b a 0xFFFFFFFF v

/-- A write of a word of the Gatehouse page (R389, R393, R399, R402, R404, R407); the bits of pages 16 to 31 stay 1. -/
def ghWrite (a : Nat) (v : Word) (b : Block) : Block :=
  let o := a - 0x10000
  if o = 0x100 then rput b a (v ||| 0xFFFF0000)
  else if o = 0x314 then vlogPop v b
  else if o = 0x400 then keyCtrlWrite v b
  else if o = 0x414 then wkSelWrite v b
  else if 0x420 ≤ o ∧ o < 0x440 then wkDataWrite ((o - 0x420) / 4) v b
  else if o = 0x500 then rngCtrlWrite v b
  else if o = 0x600 then attWrite v b
  else plainWrite b a 0xFFFFFFFF v

/-- A write of a word of the CF registers outside the sequence (R409, R422). -/
def cfRegWrite (a : Nat) (v : Word) (sec : Bool) (b : Block) : Block :=
  if a = 0x20050 then protClose v sec b else secureWrite a v sec b

/-- A write of a word of the PM registers (R426). -/
def pmWrite (a : Nat) (v : Word) (sec : Bool) (b : Block) : Block :=
  if a = 0x38000 then pmCtrlWrite v sec b
  else if a = 0x38008 then pmWakeWrite v sec b
  else if a = 0x38040 then atriskCtrlWrite v sec b
  else if a = 0x38044 ∨ a = 0x38048 then atriskHoldWrite (decide (a = 0x38048)) v sec b
  else secureWrite a v sec b

/-- A write of a word of an interrupt target's page (R383). -/
def tgtWrite (a : Nat) (v : Word) (b : Block) : Block :=
  if a % 0x1000 = 4 then complete b ((a - 0x50000) / 0x1000) (fld v 9 0) else plainWrite b a 0xFFFFFFFF v

/-- A write of a word of a junction page (R339, R344, R346). -/
def junctionWrite (a : Nat) (v : Word) (sec : Bool) (b : Block) : Block :=
  let j := (a - 0x80000) / 0x8000
  let o := (a - 0x80000) % 0x8000
  if o = 0x1004 ∨ o = 0x1008 then eventWrite j (decide (o = 0x1008)) v b
  else if 0x1100 ≤ o ∧ o < 0x1700 then chanWrite a 0xFFFFFFFF v sec b
  else if 0x2000 ≤ o ∧ o < 0x2800 then progWrite j ((o - 0x2000) / 0x100) (a, 0xFFFFFFFF, v) b
  else plainWrite b a 0xFFFFFFFF v

/-- A write of a word of a lane page (R182, R436). -/
def laneWrite (a : Nat) (v : Word) (sec : Bool) (b : Block) : Block :=
  let n := (a - 0x100000) / 0x1000
  let o := a % 0x1000
  if o = 0xA8 then laneCtrlWrite n v sec b
  else if o = 0xE4 then waymarkWrite n v b
  else if o = 0xA0 ∨ o = 0x300 then secureWrite a v sec b
  else plainWrite b a 0xFFFFFFFF v

/-- A write of one register word, to the part of the window that it lies in (R462); outside the registers it is ignored. -/
def writeWord (a : Nat) (v : Word) (sec : Bool) (b : Block) : Block :=
  if a < 0x1000 then sysWrite a v sec b
  else if a < 0x10000 then b
  else if a < 0x20000 then ghWrite a v b
  else if a < 0x28000 then cfRegWrite a v sec b
  else if a < 0x30000 then b
  else if a < 0x38000 then (if sec then tollWrite b a v else b)
  else if a < 0x40000 then pmWrite a v sec b
  else if a < 0x50000 then secureWrite a v sec b
  else if a < 0x70000 then tgtWrite a v b
  else if a < 0x80000 then b
  else if a < 0xC0000 then junctionWrite a v sec b
  else if a < 0x100000 then b
  else if a < 0x140000 then laneWrite a v sec b
  else if a < 0x200000 then b
  else if a < 0x300000 then pavWrite a v sec b
  else familyWordWrite (a - 0x300000) v sec b

/-- A write of any register (R27): SYS_STAGE, SYS_UREC and the CFLASH sequence take an 8 B write as one, every other register word by
word. -/
def registerWrite (a : Nat) (bmask : BitVec 8) (v : Word64) (sec : Bool) (s : State) : State :=
  if 0x20000 ≤ a ∧ a < 0x20018 then cfAccess (a - 0x20000) bmask v sec s
  else if bmask = 0xFF ∧ a = 0x300 then { s with blk := stageWrite v true sec s.blk }
  else if bmask = 0xFF ∧ a = 0x430 then { s with blk := urecWrite v true sec s.blk }
  else { s with blk := each (maskWords a bmask v) (fun b x => writeWord x.1 x.2.2 sec b) s.blk }

/-- REGISTER_WRITE. -/
def execRegisterWrite (addr : Nat) (bmask : BitVec 8) (v : Word64) (sec : Bool) (s : State) : Host.Outcome State Fault Refusal :=
  (portWrite s addr bmask sec (registerWrite addr bmask v sec)).settled

/-- A peak that a read has cleared starts again from what it follows. -/
def repeak (a : Nat) (b : Block) : Block :=
  let n := (a - 0x100000) / 0x1000
  let o := a % 0x1000
  if 0x80000 ≤ a ∧ a < 0xC0000 ∧ (a - 0x80000) % 0x8000 = 0x208 then
    rmax b a 21 16 (junc b ((a - 0x80000) / 0x8000)).soft.length
  else if 0x100000 ≤ a ∧ a < 0x140000 then
    if o = 0xC0 then rmax b a 22 16 (lane b n).holding.length
    else if o = 0xD0 then noteOpen b n
    else if o = 0x148 then notePool b n
    else if o = 0x250 then noteStage b n
    else b
  else b

/-- A read of one register word, with its effect (R14, R101, R381, R403): RC fields are cleared. -/
def readWord (a : Nat) (s : State) : Word × State :=
  let b := s.blk
  if 0x50000 ≤ a ∧ a < 0x70000 ∧ a % 0x1000 = 0 then
    let t := (a - 0x50000) / 0x1000
    (toWord (claim b t).2, { s with blk := (claim b t).1 })
  else if a = 0x10508 then
    let (w, b) := rngData b
    (w, { s with blk := b })
  else if a = 0x208 then (b.milepost.extractLsb' 0 32, (milepostLo s).2)
  else
    let (w, b) := viewWord s.nv b a
    let b := repeak a (rcClear b a)
    let b := if 0x200000 ≤ a ∧ a < 0x300000 ∧ (a % 0x10000 = 0xC104 ∨ a % 0x10000 = 0xC108) then
        updPav b ((a - 0x200000) / 0x10000) (fun v => { v with errRaised := false })
      else b
    (w, { s with blk := b })

/-- A read of any register: 8 B reads both words, the lower first; one of SYS_MILEPOST shows one instant and latches nothing (R44). -/
def registerRead (a : Nat) (size8 : Bool) (s : State) : Answer × State :=
  if 0x28000 ≤ a ∧ a < 0x30000 then windowAccess ⟨a - 0x28000, size8, 0, false⟩ s
  else if size8 && decide (a = 0x208) then (⟨true, s.blk.milepost, stDone, none⟩, s)
  else if size8 then
    let (x, s) := readWord a s
    let (y, s) := readWord (a + 4) s
    (⟨true, y ++ x, stDone, none⟩, s)
  else
    let (x, s) := readWord a s
    (⟨true, laneOfWord a x, stDone, none⟩, s)

/-- RC_REGISTER_READ: a read of any register. -/
def execRcRegisterRead (addr : Nat) (size8 sec : Bool) (s : State) : Host.Outcome State Fault Refusal :=
  (portReadA s addr size8 sec (registerRead addr size8)).settled

end Sys2Proof.Machine
end

