-- ==== Sys2Proof/Machine/Dispatch.lean ====
section
/-! DEFINITION. Every command to its meaning. -/

namespace Sys2Proof.Machine

open Sys2Proof

/-- The meaning of a command, on everything but the queue of waiting commands. -/
def exec (i : Instr) (s : State) : Host.Outcome State Fault Refusal :=
  match i with
  | .powerOnReset ns => Sys2Proof.Machine.execPowerOnReset ns s
  | .blockReset ns => Sys2Proof.Machine.execBlockReset ns s
  | .brownOutReset ns => Sys2Proof.Machine.execBrownOutReset ns s
  | .controlStoreLoad n errs => Sys2Proof.Machine.execControlStoreLoad n errs s
  | .lxReady => Sys2Proof.Machine.execLxReady s
  | .laneStart n dies errs => Sys2Proof.Machine.execLaneStart n dies errs s
  | .dieTrain n d windows => Sys2Proof.Machine.execDieTrain n d windows s
  | .tick t0 t1 t2 t3 => Sys2Proof.Machine.execTick t0 t1 t2 t3 s
  | .laneSlipEvent n => Sys2Proof.Machine.execLaneSlipEvent n s
  | .frameBuild n => Sys2Proof.Machine.execFrameBuild n s
  | .suspendEarliestReached n d => Sys2Proof.Machine.execSuspendEarliestReached n d s
  | .suspendHoldExpiry n d => Sys2Proof.Machine.execSuspendHoldExpiry n d s
  | .ps1Entry n => Sys2Proof.Machine.execPs1Entry n s
  | .epochAdvance => Sys2Proof.Machine.execEpochAdvance s
  | .epochWrite v sec => Sys2Proof.Machine.execEpochWrite v sec s
  | .boardTempWrite v sec => Sys2Proof.Machine.execBoardTempWrite v sec s
  | .boardTempStale => Sys2Proof.Machine.execBoardTempStale s
  | .tickCtrlWrite v sec => Sys2Proof.Machine.execTickCtrlWrite v sec s
  | .milepostLoRead sec => Sys2Proof.Machine.execMilepostLoRead sec s
  | .telemetrySample v => Sys2Proof.Machine.execTelemetrySample v s
  | .tollgatePeriod => Sys2Proof.Machine.execTollgatePeriod s
  | .thermalLoop => Sys2Proof.Machine.execThermalLoop s
  | .thermalTrip sensor => Sys2Proof.Machine.execThermalTrip sensor s
  | .thermalRestart => Sys2Proof.Machine.execThermalRestart s
  | .supplyWarning w => Sys2Proof.Machine.execSupplyWarning w s
  | .supplyWarningEnd w us => Sys2Proof.Machine.execSupplyWarningEnd w us s
  | .refclkFail j => Sys2Proof.Machine.execRefclkFail j s
  | .idleSleepChange t idle sleep => Sys2Proof.Machine.execIdleSleepChange t idle sleep s
  | .fabricReadReturn port id seq data st => Sys2Proof.Machine.execFabricReadReturn port id seq data st s
  | .fabricWriteAck port id st => Sys2Proof.Machine.execFabricWriteAck port id st s
  | .fabricResponseTimeout port write id => Sys2Proof.Machine.execFabricResponseTimeout port write id s
  | .registerWrite addr bmask v sec => Sys2Proof.Machine.execRegisterWrite addr bmask v sec s
  | .sqDoorbell p q v sec => Sys2Proof.Machine.execSqDoorbell p q v sec s
  | .cqDoorbell p q v sec => Sys2Proof.Machine.execCqDoorbell p q v sec s
  | .pavilionFetch => Sys2Proof.Machine.execPavilionFetch s
  | .entryCheck p => Sys2Proof.Machine.execEntryCheck p s
  | .chainTimeout p q => Sys2Proof.Machine.execChainTimeout p q s
  | .pvErrRead p count sec => Sys2Proof.Machine.execPvErrRead p count sec s
  | .poolEntry n => Sys2Proof.Machine.execPoolEntry n s
  | .completionAccept cq src => Sys2Proof.Machine.execCompletionAccept cq src s
  | .sqCreate p => Sys2Proof.Machine.execSqCreate p s
  | .sqDelete p => Sys2Proof.Machine.execSqDelete p s
  | .cqCreate p => Sys2Proof.Machine.execCqCreate p s
  | .cqDelete p => Sys2Proof.Machine.execCqDelete p s
  | .sqResume p => Sys2Proof.Machine.execSqResume p s
  | .vectorBind p => Sys2Proof.Machine.execVectorBind p s
  | .keyCreate p => Sys2Proof.Machine.execKeyCreate p s
  | .keyLoad p => Sys2Proof.Machine.execKeyLoad p s
  | .keyExport p => Sys2Proof.Machine.execKeyExport p s
  | .keyDestroy p => Sys2Proof.Machine.execKeyDestroy p s
  | .stripeOpen p => Sys2Proof.Machine.execStripeOpen p s
  | .stripeAdd p => Sys2Proof.Machine.execStripeAdd p s
  | .stripeClose p => Sys2Proof.Machine.execStripeClose p s
  | .stripeCloseTaken n stripe => Sys2Proof.Machine.execStripeCloseTaken n stripe s
  | .identify p => Sys2Proof.Machine.execIdentify p s
  | .abort p => Sys2Proof.Machine.execAbort p s
  | .abortRequest n => Sys2Proof.Machine.execAbortRequest n s
  | .read n e k => Sys2Proof.Machine.execRead n e k s
  | .prog n e k => Sys2Proof.Machine.execProg n e k s
  | .append n e k => Sys2Proof.Machine.execAppend n e k s
  | .erase n e k => Sys2Proof.Machine.execErase n e k s
  | .eraseVerify n e k => Sys2Proof.Machine.execEraseVerify n e k s
  | .relocate n e k => Sys2Proof.Machine.execRelocate n e k s
  | .sample n e k => Sys2Proof.Machine.execSample n e k s
  | .fence n e k => Sys2Proof.Machine.execFence n e k s
  | .wait n e k => Sys2Proof.Machine.execWait n e k s
  | .waitTimeout n e k => Sys2Proof.Machine.execWaitTimeout n e k s
  | .signal n e k => Sys2Proof.Machine.execSignal n e k s
  | .featureGet n e k => Sys2Proof.Machine.execFeatureGet n e k s
  | .featureSet n e k => Sys2Proof.Machine.execFeatureSet n e k s
  | .dieStatus n e k => Sys2Proof.Machine.execDieStatus n e k s
  | .train n e k => Sys2Proof.Machine.execTrain n e k s
  | .raw n e k => Sys2Proof.Machine.execRaw n e k s
  | .nop n e k => Sys2Proof.Machine.execNop n e k s
  | .waymarkWrite n v sec => Sys2Proof.Machine.execWaymarkWrite n v sec s
  | .microRoutineStart n => Sys2Proof.Machine.execMicroRoutineStart n s
  | .phyCycleQueueEntry n din => Sys2Proof.Machine.execPhyCycleQueueEntry n din s
  | .mwNop n => Sys2Proof.Machine.execMwNop n s
  | .mwEnd n => Sys2Proof.Machine.execMwEnd n s
  | .mwJmp n => Sys2Proof.Machine.execMwJmp n s
  | .mwJz n => Sys2Proof.Machine.execMwJz n s
  | .mwJnz n => Sys2Proof.Machine.execMwJnz n s
  | .mwCall n => Sys2Proof.Machine.execMwCall n s
  | .mwRet n => Sys2Proof.Machine.execMwRet n s
  | .mwLoop n => Sys2Proof.Machine.execMwLoop n s
  | .mwMovi n => Sys2Proof.Machine.execMwMovi n s
  | .mwMovh n => Sys2Proof.Machine.execMwMovh n s
  | .mwMov n => Sys2Proof.Machine.execMwMov n s
  | .mwAdd n => Sys2Proof.Machine.execMwAdd n s
  | .mwSub n => Sys2Proof.Machine.execMwSub n s
  | .mwAnd n => Sys2Proof.Machine.execMwAnd n s
  | .mwOr n => Sys2Proof.Machine.execMwOr n s
  | .mwXor n => Sys2Proof.Machine.execMwXor n s
  | .mwShl n => Sys2Proof.Machine.execMwShl n s
  | .mwShr n => Sys2Proof.Machine.execMwShr n s
  | .mwAddi n => Sys2Proof.Machine.execMwAddi n s
  | .mwTst n => Sys2Proof.Machine.execMwTst n s
  | .mwLdp n => Sys2Proof.Machine.execMwLdp n s
  | .mwTmask n => Sys2Proof.Machine.execMwTmask n s
  | .tmaskForcedClose n => Sys2Proof.Machine.execTmaskForcedClose n s
  | .mwCe n => Sys2Proof.Machine.execMwCe n s
  | .mwCeoff n => Sys2Proof.Machine.execMwCeoff n s
  | .mwCmd n => Sys2Proof.Machine.execMwCmd n s
  | .mwConf n => Sys2Proof.Machine.execMwConf n s
  | .mwAdr n => Sys2Proof.Machine.execMwAdr n s
  | .mwAdrc n => Sys2Proof.Machine.execMwAdrc n s
  | .mwAdrr n => Sys2Proof.Machine.execMwAdrr n s
  | .mwTw n => Sys2Proof.Machine.execMwTw n s
  | .mwDly n => Sys2Proof.Machine.execMwDly n s
  | .mwDin n => Sys2Proof.Machine.execMwDin n s
  | .mwDout n => Sys2Proof.Machine.execMwDout n s
  | .mwPin n => Sys2Proof.Machine.execMwPin n s
  | .mwPout n params => Sys2Proof.Machine.execMwPout n params s
  | .mwStat n status => Sys2Proof.Machine.execMwStat n status s
  | .mwWrb n expired => Sys2Proof.Machine.execMwWrb n expired s
  | .rbNChange n ce level => Sys2Proof.Machine.execRbNChange n ce level s
  | .statusPoll n d => Sys2Proof.Machine.execStatusPoll n d s
  | .dieReady n d => Sys2Proof.Machine.execDieReady n d s
  | .operationTimeLimit n d kind => Sys2Proof.Machine.execOperationTimeLimit n d kind s
  | .dieTempPoll n d reading => Sys2Proof.Machine.execDieTempPoll n d reading s
  | .retrainDeferExpiry n d => Sys2Proof.Machine.execRetrainDeferExpiry n d s
  | .hardDecodeDone n cw out unsat => Sys2Proof.Machine.execHardDecodeDone n cw out unsat s
  | .softDecodeStart j d => Sys2Proof.Machine.execSoftDecodeStart j d s
  | .softDecodeDone j d out => Sys2Proof.Machine.execSoftDecodeDone j d out s
  | .cwJobFinish j c => Sys2Proof.Machine.execCwJobFinish j c s
  | .machineCheck n => Sys2Proof.Machine.execMachineCheck n s
  | .watchdogExpiry n => Sys2Proof.Machine.execWatchdogExpiry n s
  | .controlStoreReload n errs => Sys2Proof.Machine.execControlStoreReload n errs s
  | .laneReset n v sec => Sys2Proof.Machine.execLaneReset n v sec s
  | .pvCfgWrite p v sec => Sys2Proof.Machine.execPvCfgWrite p v sec s
  | .pvReset p v sec => Sys2Proof.Machine.execPvReset p v sec s
  | .pvResetDone p => Sys2Proof.Machine.execPvResetDone p s
  | .pvAdmEnable p v sec => Sys2Proof.Machine.execPvAdmEnable p v sec s
  | .pvAdmDisable p v sec => Sys2Proof.Machine.execPvAdmDisable p v sec s
  | .pvAdmResume p v sec => Sys2Proof.Machine.execPvAdmResume p v sec s
  | .sysStageWrite v size8 sec => Sys2Proof.Machine.execSysStageWrite v size8 sec s
  | .sysUrecWrite v size8 sec => Sys2Proof.Machine.execSysUrecWrite v size8 sec s
  | .familyTableWrite off bmask v sec => Sys2Proof.Machine.execFamilyTableWrite off bmask v sec s
  | .cwLoad j c v sec => Sys2Proof.Machine.execCwLoad j c v sec s
  | .cwDisable j c v sec => Sys2Proof.Machine.execCwDisable j c v sec s
  | .cwDisableClear j c v sec => Sys2Proof.Machine.execCwDisableClear j c v sec s
  | .cwProgramWrite j g k bmask v sec => Sys2Proof.Machine.execCwProgramWrite j g k bmask v sec s
  | .cwEventWrite j set v sec => Sys2Proof.Machine.execCwEventWrite j set v sec s
  | .cwMove j c => Sys2Proof.Machine.execCwMove j c s
  | .cwLoop j c => Sys2Proof.Machine.execCwLoop j c s
  | .cwWait j c => Sys2Proof.Machine.execCwWait j c s
  | .cwSignal j c => Sys2Proof.Machine.execCwSignal j c s
  | .cwEnd j c => Sys2Proof.Machine.execCwEnd j c s
  | .cwDrainComplete j c => Sys2Proof.Machine.execCwDrainComplete j c s
  | .icClaim t sec => Sys2Proof.Machine.execIcClaim t sec s
  | .icComplete t v sec => Sys2Proof.Machine.execIcComplete t v sec s
  | .moderationTimeout src => Sys2Proof.Machine.execModerationTimeout src s
  | .icSrcCfgWrite src bmask v sec => Sys2Proof.Machine.execIcSrcCfgWrite src bmask v sec s
  | .vlogPop v sec => Sys2Proof.Machine.execVlogPop v sec s
  | .keyArm v sec => Sys2Proof.Machine.execKeyArm v sec s
  | .keyZeroise v sec => Sys2Proof.Machine.execKeyZeroise v sec s
  | .wrapKeyLoad v sec => Sys2Proof.Machine.execWrapKeyLoad v sec s
  | .wrapKeyClear v sec => Sys2Proof.Machine.execWrapKeyClear v sec s
  | .rngReseed v sec => Sys2Proof.Machine.execRngReseed v sec s
  | .rngRestart v sec => Sys2Proof.Machine.execRngRestart v sec s
  | .rngHealthFail => Sys2Proof.Machine.execRngHealthFail s
  | .rngDataRead sec => Sys2Proof.Machine.execRngDataRead sec s
  | .attStart v sec => Sys2Proof.Machine.execAttStart v sec s
  | .cfSequenceStep off bmask v sec => Sys2Proof.Machine.execCfSequenceStep off bmask v sec s
  | .cfSequenceTimeout => Sys2Proof.Machine.execCfSequenceTimeout s
  | .wordProg data sec => Sys2Proof.Machine.execWordProg data sec s
  | .sectorErase addr sec => Sys2Proof.Machine.execSectorErase addr sec s
  | .rowProg data sec => Sys2Proof.Machine.execRowProg data sec s
  | .protProg data sec => Sys2Proof.Machine.execProtProg data sec s
  | .protErase addr sec => Sys2Proof.Machine.execProtErase addr sec s
  | .protLock data sec => Sys2Proof.Machine.execProtLock data sec s
  | .protUnlock data sec => Sys2Proof.Machine.execProtUnlock data sec s
  | .cfCommandEnd ok => Sys2Proof.Machine.execCfCommandEnd ok s
  | .cfProtClose v sec => Sys2Proof.Machine.execCfProtClose v sec s
  | .cfWindowRead off size8 sec corr unc => Sys2Proof.Machine.execCfWindowRead off size8 sec corr unc s
  | .pmReqPs2 v sec => Sys2Proof.Machine.execPmReqPs2 v sec s
  | .pmReqPs3 v sec => Sys2Proof.Machine.execPmReqPs3 v sec s
  | .pmReqCancel v sec => Sys2Proof.Machine.execPmReqCancel v sec s
  | .ps2Entry => Sys2Proof.Machine.execPs2Entry s
  | .ps2Exit => Sys2Proof.Machine.execPs2Exit s
  | .ps3Entry => Sys2Proof.Machine.execPs3Entry s
  | .pmWake v sec => Sys2Proof.Machine.execPmWake v sec s
  | .atriskRelease v sec => Sys2Proof.Machine.execAtriskRelease v sec s
  | .atriskLaneRelease hi v sec => Sys2Proof.Machine.execAtriskLaneRelease hi v sec s
  | .scrubWord lane find mem index synd lapEnd => Sys2Proof.Machine.execScrubWord lane find mem index synd lapEnd s
  | .mpTestArm v sec => Sys2Proof.Machine.execMpTestArm v sec s
  | .mpTestGo v sec => Sys2Proof.Machine.execMpTestGo v sec s
  | .fabricCredit port chan => Sys2Proof.Machine.execFabricCredit port chan s
  | .resetDeassert errs rowBad => Sys2Proof.Machine.execResetDeassert errs rowBad s
  | .vddCoreRestored errs rowBad => Sys2Proof.Machine.execVddCoreRestored errs rowBad s
  | .comparator105cChange sensor high => Sys2Proof.Machine.execComparator105cChange sensor high s
  | .pvSrcTgtWrite p v sec => Sys2Proof.Machine.execPvSrcTgtWrite p v sec s
  | .rcRegisterRead addr size8 sec => Sys2Proof.Machine.execRcRegisterRead addr size8 sec s
  | .drbgInstantiated => Sys2Proof.Machine.execDrbgInstantiated s

end Sys2Proof.Machine
end

