-- ==== Sys2Proof/Safety.lean ====
section
/-! DEFINITION. The terms that the statements use: the machine after a command, when a lane, its sequencer, an instruction of a
work entry or an admin instruction is ready for its command, and the canonical form of CFLASH. -/

namespace Sys2Proof.Machine

open Sys2Proof

/-- The machine that a command on the block leaves: the block `b`, with the interrupt router settled. -/
def after (s : State) (b : Block) : State := { s with blk := settle b }

/-- The sequencer of lane n runs and stands at a legal microword of operation `op` (R315, R327). -/
def AtWord (s : State) (n : Nat) (q : Seq) (op : Nat) : Prop :=
  (lane s.blk n).seq = some q ∧ laneRuns s.blk n = true ∧ mwOp (q.word s.blk n) = op ∧ microFault s.blk n q = 0

/-- Lane n takes up instruction i of entry e, of opcode `op`: it is its turn, the lane has started, its operands pass every check
and no die that it names is offline (R128, R222, R229, R243). -/
def TakenUp (s : State) (n e i op : Nat) : Prop :=
  takeUp s.blk n e i op = true ∧ startFailed s.blk n = false ∧ laneStarted s.blk n = true ∧
    operandFail s.blk n (instr s.blk e i).bytes (pavSec s.blk (sq s.blk (entry s.blk e).sq).owner)
      (sq s.blk (entry s.blk e).sq).service = none ∧
    offlineAt s.blk n e i = none

/-- The executor of pavilion p stands at instruction `x` of opcode `op`, not yet begun, whose form is good (R105, R107). -/
def AdminAt (s : State) (p op : Nat) (x : List Byte) : Prop :=
  running s.blk = true ∧ p < 16 ∧ iOp x = op ∧ adminForm x = none ∧
    ∃ ex, (pav s.blk p).exec = some ex ∧ ex.started = false ∧ ex.instrs[ex.idx]? = some x

/-- A secure access of a 4 B register is taken at the slave port: it is open, lx_ready is high or the page is one that answers without
it, and the build has the page (R6, R19, R27). -/
def PortTakes (s : State) (a : Nat) : Prop :=
  portOpen s.blk = true ∧ (s.blk.lxReady = true ∨ earlyPage a = true) ∧ pageImplemented a = true ∧ absent s.blk a = false

/-- The machine after a secure write of a 4 B register whose effect on the block is `h`, answered DONE. -/
def afterWrite (s : State) (h : Block → Block) : State := after s (answer (h s.blk) ⟨false, 0, stDone, none⟩)

/-- The machine after a non-secure write of a 4 B register that takes secure writes only, answered DONE: nothing changes, but that a write
which Gatehouse denies is logged as a violation (R389, R390, R393). -/
def afterIgnored (s : State) (a : Nat) : State := after s (answer (slaveGate s.blk a true false).2 ⟨false, 0, stDone, none⟩)

/-- The canonical form of CFLASH (R410): erased words of the array, the seals and the protection row, and blank words of the identity
row, are not listed. -/
def NonVol.wf (nv : NonVol) : Bool :=
  twf (fun _ => erasedWord) nv.arr && twf (fun _ => erasedWord) nv.seals && twf (fun _ => (0 : Word64)) nv.row &&
    twf (fun _ => erasedWord) nv.prot

end Sys2Proof.Machine
end

