-- ==== Sys2Proof/Certificates/Slice0/Obligations.lean ====
section
/-! DEFINITION. The statements for the provers, one definition of a proposition each. -/

open Sys2Proof Sys2Proof.Machine

/-- A step takes the command at the front of the queue and is exec of it on the rest; with nothing waiting the block idles (log
entry 2: the idling is the model's choice). -/
def Obligations.StepTakesTheFirstCommand : Prop :=
  (∀ (c : Instr) (s : State), step { s with pending := c :: s.pending } = exec c s) ∧
  (∀ s : State, s.pending = [] → step s = .next s)

/-- No command's effect reaches the queue: whatever answers, the commands that wait are those that waited. -/
def Obligations.ExecLeavesTheQueue : Prop :=
  ∀ (c : Instr) (s t : State), exec c s = .next t → t.pending = s.pending

/-- Every command answers a next state, but POWER_ON_RESET and BLOCK_RESET whose pulse lies in the range that R18 calls not defined:
those two stop, and nothing else does. -/
def Obligations.OnlyAnUndefinedPulseStops : Prop :=
  ∀ (c : Instr) (s : State),
    ((∃ t, exec c s = .next t) ↔ ¬ ∃ ns, 20 ≤ ns ∧ ns < 100 ∧ (c = .powerOnReset ns ∨ c = .blockReset ns)) ∧
    (∀ ns, 20 ≤ ns → ns < 100 → exec (.powerOnReset ns) s = .fault .resetPulseUndefined ∧
      exec (.blockReset ns) s = .fault .resetPulseUndefined)

/-- The microwords that compute (R316): the register A takes its value, Z follows the result where the operation sets it, the pc
goes on to the next word, behind word 8,191 to word 0 (log entry 116, DESIGN CHOICE), and a TMASK region counts the word's CYC + 1
cycles. Nothing else of the sequencer changes, and what putSeq
stores it with is stated in FaultyMicrowordsHaltTheLane. -/
def Obligations.ComputingMicrowords : Prop :=
  ∀ (s : State) (n : Nat) (q : Seq),
    let w := q.word s.blk n
    let A := mwA w
    let a := q.reg (mwA w)
    let x := q.reg (mwB w)
    let on (q' : Seq) : State := after s (putSeq n
      { q' with pc := (q.pc + 1) % 8192, tmask := q.tmask - (mwCyc w + 1), tmaskAge := q.tmaskAge + min q.tmask (mwCyc w + 1) } s.blk)
    let res (v : Word) : State := on { q with m := tset 0 q.m A v, z := decide (v = 0) }
    (AtWord s n q 0x00 → exec (.mwNop n) s = .next (on q)) ∧
    (AtWord s n q 0x08 → exec (.mwMovi n) s = .next (on { q with m := tset 0 q.m A (BitVec.ofNat 32 (mwImm w)) })) ∧
    (AtWord s n q 0x09 → exec (.mwMovh n) s = .next (on { q with m := tset 0 q.m A (setFld a 31 16 (mwImm w)) })) ∧
    (AtWord s n q 0x0A → exec (.mwMov n) s = .next (on { q with m := tset 0 q.m A x })) ∧
    (AtWord s n q 0x0B → exec (.mwAdd n) s = .next (res (a + x))) ∧
    (AtWord s n q 0x0C → exec (.mwSub n) s = .next (res (a - x))) ∧
    (AtWord s n q 0x0D → exec (.mwAnd n) s = .next (res (a &&& x))) ∧
    (AtWord s n q 0x0E → exec (.mwOr n) s = .next (res (a ||| x))) ∧
    (AtWord s n q 0x0F → exec (.mwXor n) s = .next (res (a ^^^ x))) ∧
    (AtWord s n q 0x10 → exec (.mwShl n) s = .next (res (a <<< (mwImm w)))) ∧
    (AtWord s n q 0x11 → exec (.mwShr n) s = .next (res (a >>> (mwImm w)))) ∧
    (AtWord s n q 0x12 → exec (.mwAddi n) s = .next (res (a + (BitVec.ofNat 16 (mwImm w)).signExtend 32))) ∧
    (AtWord s n q 0x13 → exec (.mwTst n) s = .next (on { q with z := decide (a &&& BitVec.ofNat 32 (mwImm w) = 0) }))

/-- The microwords that move the pc (R316, R317). LDP reads 1, 2 or 4 bytes of the family table of the routine's die; size code 3 is
not stated, so the value is free (log entry 3). TMASK opens a region of IMM cycles, or makes an open one last IMM cycles longer from here, which
goes on ageing from its own beginning (R323; log entry 42, DEDUCED). Behind word 8,191 comes word 0, and a CALL there pushes 8,192 (log
entry 116, DESIGN CHOICE). -/
def Obligations.JumpingMicrowords : Prop :=
  (∀ (s : State) (n : Nat) (q : Seq),
    let w := q.word s.blk n
    let goes (t : Nat) (q' : Seq) : State := after s (putSeq n
      { q' with pc := t, tmask := q.tmask - (mwCyc w + 1), tmaskAge := q.tmaskAge + min q.tmask (mwCyc w + 1) } s.blk)
    let on := (q.pc + 1) % 8192
    let a := q.reg (mwA w) - 1
    (AtWord s n q 0x02 → exec (.mwJmp n) s = .next (goes (mwImm w) q)) ∧
    (AtWord s n q 0x03 → exec (.mwJz n) s = .next (goes (if q.z then mwImm w else on) q)) ∧
    (AtWord s n q 0x04 → exec (.mwJnz n) s = .next (goes (if q.z then on else mwImm w) q)) ∧
    (AtWord s n q 0x05 → exec (.mwCall n) s = .next (goes (mwImm w) { q with stack := (q.pc + 1) :: q.stack })) ∧
    (AtWord s n q 0x06 → ∀ t rest, q.stack = t :: rest → exec (.mwRet n) s = .next (goes t { q with stack := rest })) ∧
    (AtWord s n q 0x07 → exec (.mwLoop n) s =
      .next (goes (if a = 0 then on else mwImm w) { q with m := tset 0 q.m (mwA w) a, z := decide (a = 0) }))) ∧
  (∀ (s : State) (n : Nat) (q : Seq),
    let w := q.word s.blk n
    let f := dieFamily s.blk n q.routine.die
    let o := mwImm w % 1024
    let ld (v : Word) (b : Block) : State := after s (putSeq n
      { q with
        m := tset 0 q.m (mwA w) v, pc := (q.pc + 1) % 8192, tmask := q.tmask - (mwCyc w + 1)
        tmaskAge := q.tmaskAge + min q.tmask (mwCyc w + 1) } b)
    (AtWord s n q 0x14 → mwImm w / 1024 % 4 = 0 → exec (.mwLdp n) s = .next (ld (BitVec.ofNat 32 (fam8 s.blk f o)) s.blk)) ∧
    (AtWord s n q 0x14 → mwImm w / 1024 % 4 = 1 → exec (.mwLdp n) s = .next (ld (BitVec.ofNat 32 (fam16 s.blk f o)) s.blk)) ∧
    (AtWord s n q 0x14 → mwImm w / 1024 % 4 = 2 → exec (.mwLdp n) s = .next (ld (BitVec.ofNat 32 (fam32 s.blk f o)) s.blk)) ∧
    (AtWord s n q 0x14 → mwImm w / 1024 % 4 = 3 →
      exec (.mwLdp n) s = .next (ld (Config.freeVal 32 s.blk.free) { s.blk with free := s.blk.free + 1 })) ∧
    (AtWord s n q 0x15 → exec (.mwTmask n) s =
      .next (after s (putSeq n
        { q with pc := (q.pc + 1) % 8192, tmask := mwImm w, tmaskAge := if q.tmask = 0 then 0 else q.tmaskAge + 1 } s.blk))))

/-- The queued microwords (R313, R316): with room in the cycle queue each posts its entry behind those waiting and the sequencer
goes on; with the queue full it stalls on the word. Depth is 4, or 1 in compatibility mode. -/
def Obligations.QueuedMicrowords : Prop :=
  ∀ (s : State) (n : Nat) (q : Seq),
    let b := s.blk
    let w := q.word b n
    let a := q.reg (mwA w)
    let f := dieFamily b n q.routine.die
    let posts (x : CycEntry) (c : Instr) (op : Nat) : Prop :=
      AtWord s n q op →
        (q.queue.length < (if laneNative b n then 4 else 1) → exec c s = .next (after s (putSeq n
          { q with
            queue := q.queue ++ [x], pc := (q.pc + 1) % 8192, tmask := q.tmask - 1, tmaskAge := q.tmaskAge + min q.tmask 1 } b))) ∧
        ((if laneNative b n then 4 else 1) ≤ q.queue.length → exec c s = .next (after s b))
    posts (.ce (fld a 3 0) (fld a 5 4)) (.mwCe n) 0x20 ∧
    posts .ceOff (.mwCeoff n) 0x21 ∧
    posts (.cmd (BitVec.ofNat 8 (cmdOverride b f (mwImm w % 256))) false) (.mwCmd n) 0x22 ∧
    posts (.cmd (BitVec.ofNat 8 (cmdOverride b f (mwImm w % 256))) true) (.mwConf n) 0x23 ∧
    posts (.adr [BitVec.ofNat 8 (mwImm w)]) (.mwAdr n) 0x24 ∧
    posts (.adr (leBytes (addrCol b f) a.toNat)) (.mwAdrc n) 0x25 ∧
    posts (.adr (leBytes (addrRow b f) a.toNat)) (.mwAdrr n) 0x26 ∧
    posts (.wait (dieTime b n q.routine.die (mwImm w % 32))) (.mwTw n) 0x27 ∧
    posts (.wait (mwImm w)) (.mwDly n) 0x28 ∧
    posts (.din a.toNat (q.reg (mwB w)).toNat) (.mwDin n) 0x29 ∧
    posts (.dout a.toNat (q.reg (mwB w)).toNat) (.mwDout n) 0x2A ∧
    posts (.pin a) (.mwPin n) 0x2B

/-- The synchronous microwords (R313, R316): each waits until the queue has drained, then takes what the die answers; a TMASK region
counts 24 cycles of its wait, so that one of 24 or fewer is over after it (log entry 42, DEDUCED). A STAT or a WRB of a RAW's first cycle is its confirm (R194).
END releases the chip enable and ends the routine, whose unspent cycles are free (R324); with an FSET still ahead of it the next entry
starts, on a lane that samples at boundaries only once its arbiter holds nothing (R326). -/
def Obligations.SynchronousMicrowords : Prop :=
  ∀ (s : State) (n : Nat) (q : Seq),
    let b := s.blk
    let w := q.word b n
    let on (q' : Seq) (b : Block) : State := after s (putSeq n
      { q' with pc := (q.pc + 1) % 8192, tmask := q.tmask - 24, tmaskAge := q.tmaskAge + min q.tmask 24 } b)
    let spent := q.spent + (if q.ce.isSome then dieTime b n q.routine.die 1 else 0)
    (∀ params, AtWord s n q 0x2C → exec (.mwPout n params) s = .next (if q.queue = [] then
      on { q with m := tset 0 q.m (mwA w) params, spent := q.spent + byteCycles b n (featBytes b n) } b else after s b)) ∧
    (∀ status : Byte, AtWord s n q 0x2D → exec (.mwStat n status) s = .next (if q.queue = [] then
      on { q with
        m := tset 0 q.m (mwA w) (status.zeroExtend 32), spent := q.spent + dieTime (rawConfirm n b) n q.routine.die 2 } (rawConfirm n b)
      else after s b)) ∧
    (∀ expired, AtWord s n q 0x2E → exec (.mwWrb n expired) s = .next (if q.queue = [] then
      on { q with z := expired } (rawConfirm n b) else after s b)) ∧
    (AtWord s n q 0x01 → q.routine.feats = [] → q.queue = [] → exec (.mwEnd n) s = .next (after s (afterRoutine n q.routine spent
      (routineEnd n { q with spent := spent } (updLane b n (fun l => { l with seq := none })))))) ∧
    (AtWord s n q 0x01 → q.queue = [] → ∀ x rest, q.routine.feats = x :: rest →
      let r := { q.routine with feats := rest, spent := spent }
      (holdsEvents b n = false → ∀ q', enterSeq b n r spent = some q' → exec (.mwEnd n) s = .next (after s (putSeq n q' b))) ∧
      (holdsEvents b n = true → exec (.mwEnd n) s =
        .next (after s (tickTaken n (updLane b n (fun l => { l with seq := none, frame := r :: l.frame })))))) ∧
    (AtWord s n q 0x01 → q.queue ≠ [] → exec (.mwEnd n) s = .next (after s b)) ∧
    (∀ r k, lane (freeCycles n r k b) n = { lane b n with used := (lane b n).used - (r.len - k) })

/-- Every microword command whose word is faulty, and MACHINE_CHECK itself, stops the lane with a machine check of the first cause that
holds (R327): wrong parity, an illegal word (an unknown OP, a field that its operation does not use, a CYC of more than an immediate
native word, a native-only operation, R315), a CALL on a full micro-stack or a RET on an empty one (R317), a jump, CALL or RET target at or
above WORDS; and so does the watchdog, with cause 5. The check saves the frame, counts, latches CAUSE and PC in LN_MCHK, marks the lane
halted and discards its work (R328), a parity error being an error of MEM 3 first (R455). A TMASK region still open 24 cycles after it
began is closed and counted in LN_SEQ_STAT, be it within a microword or in a wait; one of 24 or fewer has run out by itself (R323; log
entry 42, DEDUCED). -/
def Obligations.FaultyMicrowordsHaltTheLane : Prop :=
  (∀ (s : State) (n : Nat) (q : Seq) (params : Word) (status : Byte) (expired : Bool) (c : Instr) (op : Nat),
    (lane s.blk n).seq = some q → laneRuns s.blk n = true → microFault s.blk n q ≠ 0 →
    let halts : Host.Outcome State Fault Refusal := .next (after s (machineFault n (microFault s.blk n q) s.blk))
    exec (.machineCheck n) s = halts ∧
    ((c, op) ∈ [(.mwNop n, 0x00), (.mwEnd n, 0x01), (.mwJmp n, 0x02), (.mwJz n, 0x03), (.mwJnz n, 0x04), (.mwCall n, 0x05), (.mwRet n, 0x06),
      (.mwLoop n, 0x07), (.mwMovi n, 0x08), (.mwMovh n, 0x09), (.mwMov n, 0x0A), (.mwAdd n, 0x0B), (.mwSub n, 0x0C), (.mwAnd n, 0x0D),
      (.mwOr n, 0x0E), (.mwXor n, 0x0F), (.mwShl n, 0x10), (.mwShr n, 0x11), (.mwAddi n, 0x12), (.mwTst n, 0x13), (.mwLdp n, 0x14),
      (.mwTmask n, 0x15), (.mwCe n, 0x20), (.mwCeoff n, 0x21), (.mwCmd n, 0x22), (.mwConf n, 0x23), (.mwAdr n, 0x24), (.mwAdrc n, 0x25),
      (.mwAdrr n, 0x26), (.mwTw n, 0x27), (.mwDly n, 0x28), (.mwDin n, 0x29), (.mwDout n, 0x2A), (.mwPin n, 0x2B), (.mwPout n params, 0x2C),
      (.mwStat n status, 0x2D), (.mwWrb n expired, 0x2E)] →
      mwOp (q.word s.blk n) = op → exec c s = halts)) ∧
  (∀ (s : State) (n : Nat) (q : Seq), (lane s.blk n).seq = some q → laneRuns s.blk n = true →
    exec (.watchdogExpiry n) s = .next (after s (machineFault n 5 s.blk))) ∧
  (∀ (b : Block) (n cause : Nat) (q : Seq), (lane b n).seq = some q →
    let c := if cause = 1 then noteParity n q.pc b else b
    machineFault n cause b = haltLane n 1 (rset1 (rputF (rputF (rinc (saveFrame n c) (laneReg n 0x30C) 31 24 1)
      (laneReg n 0x30C) 2 0 cause) (laneReg n 0x30C) 20 8 q.pc) (laneReg n 0x304) 2)) ∧
  (∀ (b : Block) (n : Nat) (q : Seq),
    let w := q.word b n
    let op := mwOp w
    let words := (lane b n).words
    let legal : Prop := parityOk w = true ∧ microIllegal (laneNative b n) w = false
    let goes (t : Nat) : Prop := (words ≤ t → microFault b n q = 4) ∧ (t < words → microFault b n q = 0)
    (parityOk w = true ↔ ((List.range 33).filter (fun i => w.getLsbD i)).length % 2 = 1) ∧
    (parityOk w = false → microFault b n q = 1) ∧
    (parityOk w = true → microIllegal (laneNative b n) w = true → microFault b n q = 2) ∧
    (legal → op = 0x05 → (8 ≤ q.stack.length → microFault b n q = 3) ∧ (q.stack.length < 8 → goes (mwImm w))) ∧
    (legal → op = 0x06 → (q.stack = [] → microFault b n q = 3) ∧ ∀ t rest, q.stack = t :: rest → goes t) ∧
    (legal → op = 0x02 ∨ op = 0x03 ∧ q.z = true ∨ op = 0x04 ∧ q.z = false ∨ op = 0x07 ∧ q.reg (mwA w) ≠ 1 → goes (mwImm w)) ∧
    (legal → op = 0x03 ∧ q.z = false ∨ op = 0x04 ∧ q.z = true ∨ op = 0x07 ∧ q.reg (mwA w) = 1 → microFault b n q = 0) ∧
    (legal → op ∉ [0x02, 0x03, 0x04, 0x05, 0x06, 0x07] → microFault b n q = 0)) ∧
  (∀ (native : Bool) (w : BitVec 33),
    let op := mwOp w
    microIllegal native w = true ↔ 0x16 ≤ op ∧ op < 0x20 ∨ 0x2F ≤ op ∨
      mwA w ≠ 0 ∧ op ∈ [0x00, 0x01, 0x02, 0x03, 0x04, 0x05, 0x06, 0x15, 0x21, 0x22, 0x23, 0x24, 0x27, 0x28, 0x2E] ∨
      mwB w ≠ 0 ∧ op ∉ [0x0A, 0x0B, 0x0C, 0x0D, 0x0E, 0x0F, 0x29, 0x2A] ∨
      mwImm w ≠ 0 ∧ op ∈ [0x00, 0x01, 0x06, 0x0A, 0x0B, 0x0C, 0x0D, 0x0E, 0x0F, 0x20, 0x21, 0x25, 0x26, 0x29, 0x2A, 0x2B, 0x2C, 0x2D] ∨
      8192 ≤ mwImm w ∧ op ∈ [0x02, 0x03, 0x04, 0x05, 0x07] ∨ 32 ≤ mwImm w ∧ op ∈ [0x10, 0x11, 0x27] ∨
      256 ≤ mwImm w ∧ op ∈ [0x22, 0x23, 0x24] ∨ 4096 ≤ mwImm w ∧ op = 0x14 ∨ 8 ≤ mwImm w ∧ op = 0x2E ∨
      mwCyc w ≠ 0 ∧ (native = false ∨ op = 0x01 ∨ 0x20 ≤ op) ∨ native = false ∧ (op = 0x14 ∨ op = 0x15)) ∧
  (∀ (s : State) (n : Nat) (q : Seq), (lane s.blk n).seq = some q → laneRuns s.blk n = true →
    let closed := putSeq n { q with tmask := 0, tmaskAge := 0 } s.blk
    (q.tmask ≠ 0 → 24 < q.tmask + q.tmaskAge → exec (.tmaskForcedClose n) s =
      .next (after s (rinc closed (laneReg n 0x310) 23 16 1))) ∧
    (q.tmask ≠ 0 → q.tmask + q.tmaskAge ≤ 24 → exec (.tmaskForcedClose n) s = .next (after s closed)) ∧
    (q.tmask = 0 → exec (.tmaskForcedClose n) s = .next (after s s.blk))) ∧
  (∀ (b : Block) (n : Nat) (q : Seq),
    (q.tmaskAge < 24 ∨ q.tmaskAge = 24 ∧ q.tmask = 0 → putSeq n q b = tickTaken n (updLane b n (fun l => { l with seq := some q }))) ∧
    (24 < q.tmaskAge ∨ q.tmaskAge = 24 ∧ q.tmask ≠ 0 → putSeq n q b = tickTaken n (updLane (rinc b (laneReg n 0x310) 23 16 1) n
      (fun l => { l with seq := some { q with tmask := 0, tmaskAge := 0 } }))))

/-- The PHY executes the entry at the head of the cycle queue (R313, R316): the chip enable is held or released, a command that is
no confirm goes out, address and wait cycles are spent, and data is put, a codeword's bytes from and to its own place, and the parameters P1 to P4 of a
PIN once or twice by the mode (R236); the entry leaves the queue. Commands and addresses go out on CA where the lane uses it, and on DQ otherwise (R231). A confirm is taken and starts its
operation, unless a supply warning holds it back (R322, R429); the first cycle of a RAW is its confirm (R194), which for a
wait for ready is the first entry of its queue. A data-out that finds no
frame waits, and so does a data-in of a pass whose codeword is not in its frame (R280, R281). -/
def Obligations.CycleQueueEntriesExecute : Prop :=
  ∀ (s : State) (n : Nat) (q : Seq) (x : CycEntry) (rest : List CycEntry) (din : List Byte),
    (lane s.blk n).seq = some q → laneRuns s.blk n = true → q.queue = x :: rest →
    let b := s.blk
    let c := rawConfirm n b
    let r := q.routine
    let t (b : Block) (i : Nat) : Nat := dieTime b n q.routine.die i
    let p := { q with queue := rest }
    let bus (l : List Byte) : Seq := if (lane c n).sca then { p with ca := l } else { p with sent := l }
    let a := if r.isRawWait b = true then c else b
    (∀ k l, x = .ce k l → exec (.phyCycleQueueEntry n din) s = .next (after s (putSeq n { p with ce := some (k, l), spent := q.spent + t b 0 } a))) ∧
    (x = .ceOff → exec (.phyCycleQueueEntry n din) s = .next (after s (putSeq n { p with ce := none, spent := q.spent + t b 1 } a))) ∧
    (∀ l, x = .adr l → exec (.phyCycleQueueEntry n din) s =
      .next (after s (putSeq n { bus l with spent := q.spent + l.length * t c 2 } c))) ∧
    (∀ k, x = .wait k → exec (.phyCycleQueueEntry n din) s = .next (after s (putSeq n { p with spent := q.spent + k } c))) ∧
    (∀ w, x = .pin w → exec (.phyCycleQueueEntry n din) s =
      .next (after s (putSeq n { p with
        sent := (leBytes 4 w.toNat).flatMap (List.replicate (featBytes c n / 4)), spent := q.spent + byteCycles c n (featBytes c n) } c))) ∧
    (∀ y, x = .cmd y false → exec (.phyCycleQueueEntry n din) s = .next (after s (putSeq n
      { bus [y] with spent := q.spent + t c 2, pageLoad := q.pageLoad || loadsPage c (dieFamily c n r.die) r y }
      (if r.feats = [] ∨ r.isFeatSet = true then firstCommand n r c else c)))) ∧
    (∀ y, x = .cmd y true → exec (.phyCycleQueueEntry n din) s =
      if warnStops c r = true then .next (after s c)
      else .next (after s (putSeq n { bus [y] with spent := q.spent + t c 2, confirmed := true, pageLoad := false }
        (if r.feats = [] ∨ r.isFeatSet = true then firstCommand n r (confirmTaken n r c) else c)))) ∧
    (∀ k a, x = .din k a →
      (dinBytes n r k a c = none → exec (.phyCycleQueueEntry n din) s = .next (after s c)) ∧
      (∀ l b', dinBytes n r k a c = some (l, b') → exec (.phyCycleQueueEntry n din) s = .next (after s (framesFreed n
        (putSeq n { p with sent := l, spent := q.spent + byteCycles b' n k } b'))))) ∧
    (∀ k a, x = .dout k a → din.length ≠ k → exec (.phyCycleQueueEntry n din) s = .next (after s c)) ∧
    (∀ k a, x = .dout k a → din.length = k →
      let b' := releaseHeld n (framesWanted c q) c
      let y := putBytes b' q.dataIn (a * cwLen b' (dieFamily b' n r.die)) din
      exec (.phyCycleQueueEntry n din) s =
        if framesFree b' n < framesWanted b' q then .next (after s b')
        else .next (after s (putSeq n { p with dataIn := y.1, spent := q.spent + byteCycles y.2 n k } (takeFrames y.2 q))))

/-- The first routine of a lane's frame that may start does, where nothing runs, the arbiter holds nothing that a lane sampling at
boundaries must take first, and no reload is due (R312, R314, R318, R326): its sequencer enters the START of its entry, of the first
FSET entry ahead of it where it has one, with Z clear, an empty micro-stack and the registers of R314. A cycle of a RAW holds its die; a
pass takes its trim set now and its codewords go to its frames (R306, R281). The lane first reads its state and tables (R455): a word of
them that the test mode planted and that cannot be corrected may halt it, and then nothing starts; with none planted it reads without
error. Which planted word it reads is a free value (log entry 9, DESIGN CHOICE). -/
def Obligations.MicroRoutineStarts : Prop :=
  (∀ (s : State) (n : Nat) (r : Routine) (c : Block),
    laneRuns s.blk n = true → (lane s.blk n).seq = none → holdsEvents s.blk n = false → (lane s.blk n).ps1 = false →
    rbit s.blk (laneReg n 0x304) 3 = false → nextRoutine s.blk n = some r → (entryWord s.blk n r.entryOf.kind).isSome = true →
    let started (x : Routine) (b : Block) : Block :=
      updLane b n (fun l => { l with frame := l.frame.erase r, seq := enterSeq b n x r.spent })
    let y := issuePass c n r
    ((∀ x ∈ s.blk.planted, x.ofLane n = false) → laneReads n s.blk = (true, s.blk)) ∧
    (laneReads n s.blk = (false, c) → exec (.microRoutineStart n) s = .next (after s c)) ∧
    (laneReads n s.blk = (true, c) → (∃ e i k, r.purpose = .rawCycle e i k) → exec (.microRoutineStart n) s =
      .next (after s (updDie (started r c) n r.die (fun x => { x with raw := true })))) ∧
    (laneReads n s.blk = (true, c) → (∃ e i u wl k, r.purpose = .pass e i u wl k) → r.spent = 0 → exec (.microRoutineStart n) s =
      .next (after s (loadPass n r (started y.1 y.2)))) ∧
    (laneReads n s.blk = (true, c) → (∃ e i u wl k, r.purpose = .pass e i u wl k) → r.spent ≠ 0 →
      exec (.microRoutineStart n) s = .next (after s (started r c))) ∧
    (laneReads n s.blk = (true, c) → (∀ e i k, r.purpose ≠ .rawCycle e i k) → (∀ e i u wl k, r.purpose ≠ .pass e i u wl k) →
      exec (.microRoutineStart n) s = .next (after s (started r c)))) ∧
  (∀ (b : Block) (n : Nat) (r : Routine) (k w : Nat), entryWord b n r.entryOf.kind = some w → enterSeq b n r k =
    some { routine := r, pc := bitsOf w 13 0, z := false, m := entryRegs b n r.entryOf, stack := [], queue := [], ce := none
           tmask := 0, tmaskAge := 0, dataIn := [], sent := [], ca := [], spent := k, confirmed := false, pageLoad := false }) ∧
  (∀ (b : Block) (n : Nat) (r : Routine),
    let v (i : Nat) : Word := tget 0 (entryRegs b n r) i
    v 8 = r.row ∧ v 9 = r.col ∧ v 10 = BitVec.ofNat 32 r.mask ∧ v 11 = r.bytes ∧ v 12 = BitVec.ofNat 32 r.ncw ∧
      v 13 = BitVec.ofNat 32 (dieCe b n r.die + 16 * dieLun b n r.die + (if 1 < lunsPerCe b (dieFamily b n r.die) then 256 else 0)) ∧
      v 14 = r.m14 ∧ v 15 = BitVec.ofNat 32 r.kind ∧ ∀ i, i < 8 → v i = 0) ∧
  (∀ (b : Block) (n d : Nat), dieCe b n d < 16 ∧ dieLun b n d < 4)

/-- A submission doorbell that passes its check moves the queue's tail to the value written and nothing else of the rings; one that
fails writes no queue, latches and counts its cause and raises the pavilion's error source (R71, R72, R447). A completion doorbell
that passes its check moves the queue's head (R71, R87); one that fails is ignored, latched and counted. -/
def Obligations.Doorbells : Prop :=
  (∀ (s : State) (p : Nat) (q : Option Nat) (v : Word), PortTakes s (sqDbAddr p q) →
    (sqDoorbellCause s.blk p q v = none → exec (.sqDoorbell p q v true) s =
      .next (afterWrite s (fun b => wakePs2 (updSq b (sqKey p q) (fun x => { x with tail := v.toNat % 65536 }))))) ∧
    (∀ c, sqDoorbellCause s.blk p q v = some c →
      exec (.sqDoorbell p q v true) s = .next (afterWrite s (fun b => doorbellErr b p q false v c)) ∧
      (doorbellErr s.blk p q false v c).sqs = s.blk.sqs ∧ (doorbellErr s.blk p q false v c).cqs = s.blk.cqs ∧
      (pav (doorbellErr s.blk p q false v c) p).errRaised = true)) ∧
  (∀ (s : State) (p : Nat) (q : Option Nat) (v : Word), PortTakes s (cqDbAddr p q) →
    (cqDoorbellCause s.blk p q v = none → exec (.cqDoorbell p q v true) s =
      .next (afterWrite s (fun b => wakePs2 (updCq b (cqKey p q) (fun x => { x with head := v.toNat % 65536 }))))) ∧
    (∀ c, cqDoorbellCause s.blk p q v = some c →
      exec (.cqDoorbell p q v true) s = .next (afterWrite s (fun b => doorbellErr b p q true v c))))

/-- A submission ring's indices (R64): an accepted doorbell sets the tail to the slot it names and leaves the head, so that both stay
below 2^k, no posted slot is lost, and at most 2^k − 1 slots are posted. The ring is empty just where tail and head are equal, and
full just where tail + 1 meets head. -/
def Obligations.DoorbellsPostNoSlotTwice : Prop :=
  ∀ (b : Block) (p : Nat) (q : Option Nat) (v : Word),
    let x := sq b (sqKey p q)
    x.head < 2 ^ x.k → x.tail < 2 ^ x.k → sqDoorbellCause b p q v = none →
    let y := sq (sqDoorbell p q v b) (sqKey p q)
    y.head = x.head ∧ y.k = x.k ∧ y.tail = v.toNat ∧ y.tail < 2 ^ y.k ∧ x.posted ≤ y.posted ∧ y.posted ≤ 2 ^ y.k - 1 ∧
      (y.posted = 0 ↔ y.tail = y.head) ∧ (y.posted = 2 ^ y.k - 1 ↔ (y.tail + 1) % 2 ^ y.k = y.head)

/-- A fetch begins (R68): the pavilion whose turn it is takes its next queue and asks for the entry's first slots, as many of those
posted as one burst may hold (R65, R21, R63), and its turn in both round robins moves on. An open chain whose time has come is malformed
with detail 0x0C, its latch word naming the chain's CID and first slot, and LEN and FLAGS where the next slot had been read (R78, R92). A read of PV_SQ_ERR or PV_DB_ERR_CNT answers the word as it stood, and clears its counter and the pavilion's
error source (R101). The lane's event arbiter takes the next routed entry into its pool, behind the entries there, and releases its
instructions (R172, R203). -/
def Obligations.PavilionEvents : Prop :=
  (∀ (s : State) (p key : Nat), running s.blk = true → nextPav s.blk = some p → nextQueue s.blk p = some key →
    let slot := (sq s.blk key).fetch
    let m := burstSlots (2 ^ (sq s.blk key).k) slot (sq s.blk key).unfetched
    let b := updPav s.blk p (fun v => { v with
      fetch := some ⟨key, slot, 0, [], 0, false⟩, last := if isAdmin key then v.last else key, adminTurn := !isAdmin key })
    let b := updSq b key (fun q => { q with full := none, short := 0 })
    exec .pavilionFetch s = .next (after s (fetchLen (fetchPart p { b with lastPav := p } (slot, 0, m)) p))) ∧
  (∀ size slot left, slot < size → 0 < left →
    let m := burstSlots size slot left
    1 ≤ m ∧ m ≤ left ∧ m ≤ 4 ∧ slot + m ≤ size ∧ (slot + m - 1) / 64 = slot / 64) ∧
  (∀ (s : State) (p : Nat) (q : Option Nat) (ch : Chain), (sq s.blk (sqKey p q)).chain = some ch →
    (sq s.blk (sqKey p q)).owner = p → ch.due ≤ now s.blk → s.blk.inReset = false →
    exec (.chainTimeout p q) s = .next (after s
      (malformed s.blk (sqKey p q) (sq s.blk (sqKey p q)).fetch (headSeen s.blk p (sqKey p q) % 256) (headSeen s.blk p (sqKey p q) / 256)
        ch.cid 0xC (ch.cid + ch.slot * 65536)))) ∧
  (∀ (s : State) (p : Nat) (count : Bool), PortTakes s (pvErrAddr p count) →
    exec (.pvErrRead p count true) s = .next (after s (answer
      (updPav (rcClear s.blk (pvErrAddr p count)) p (fun v => { v with errRaised := false }))
      ⟨true, laneOfWord (pvErrAddr p count) (rget s.blk (pvErrAddr p count)), stDone, none⟩))) ∧
  (∀ (s : State) (n e : Nat), laneRuns s.blk n = true → nextArrival s.blk n = some e →
    exec (.poolEntry n) s = .next (after s (afterFinish
      (updEntry (updLane s.blk n (fun l => { l with arrive := l.arrive.filter (· != e), pool := l.pool ++ [e] })) e
        (fun x => { x with pooled := true })) e)))

/-- A checked entry (R91, R92, R201, R89): nothing is made of one whose queue is fetched from no more (R91, R99, R110), or of one that
comes in while the block is shut down (R374); one that fails a check stops its queue; one for a full lane is left, and counted where
the pool is full, and one whose lane takes none for its ring is fetched and left too (the model's reading of R89, log entry 38, DEDUCED);
an admin entry and one whose lane takes it are admitted. -/
def Obligations.EntriesAreChecked : Prop :=
  ∀ (s : State) (p : Nat) (f : Fetch), running s.blk = true → (pav s.blk p).fetch = some f → f.waiting = 0 → f.len ≠ 0 →
    let key := f.sq
    let q := sq s.blk key
    let x := fetchBytes f
    let b := updPav s.blk p (fun v => { v with fetch := none })
    (fetchOff b p key = true ∨ q.fetch ≠ f.slot → exec (.entryCheck p) s = .next (after s b)) ∧
    (q.fetch = f.slot → fetchOff b p key = false →
    (∀ z, entryChecks b key x = .inl z →
      exec (.entryCheck p) s = .next (after s (malformed b key f.slot (hLen x) (hFlags x) (hCid x) z.1 z.2))) ∧
    (∀ l, entryChecks b key x = .inr l → isAdmin key = true → exec (.entryCheck p) s =
      .next (after s (admitEntry b key f.slot x ⟨none, [], []⟩ (mkInstrs ⟨none, [], []⟩ l)))) ∧
    (∀ l n, entryChecks b key x = .inr l → isAdmin key = false → (routeEntry b key l).lane = some n →
      (poolRoom b n q.service = false → exec (.entryCheck p) s =
        .next (after s (rinc (updSq b key (fun y => { y with full := some n, seen := headBytes f })) (laneReg n 0x154) 31 16 1))) ∧
      (poolRoom b n q.service = true → takesFor b n q.cq = false → exec (.entryCheck p) s =
        .next (after s (updSq b key (fun y => { y with full := some n, seen := headBytes f })))) ∧
      (poolRoom b n q.service = true → takesFor b n q.cq = true → exec (.entryCheck p) s =
        .next (after s (admitEntry b key f.slot x (routeEntry b key l) (mkInstrs (routeEntry b key l) l))))) ∧
    (∀ l, entryChecks b key x = .inr l → isAdmin key = false → (routeEntry b key l).lane = none → exec (.entryCheck p) s =
      .next (after s (admitEntry b key f.slot x (routeEntry b key l)
        (finishUnrouted (pavSec b p) q.service (mkInstrs (routeEntry b key l) l))))))

/-- The malformed checks run in the order of R92, an earlier one hiding every later one: LEN, CRC, reserved bits, the FRAMING walk of
R473 with its first faulty unit, an opcode that the queue may not hold, a CID in use, and the chain rules, each with its latch word; an
entry that passes them all gives its instructions. The operand checks run in the order of R128 and R170: permission first, then NU,
reserved bits and options, then the PA and the plane mask, then the host addresses; an earlier failure hides every later one. That the PA fields which must be zero by R183 come behind the reserved
bytes is log entry 108 (DESIGN CHOICE). -/
def Obligations.ChecksRunInOrder : Prop :=
  (∀ (b : Block) (key : Nat) (x : List Byte),
    let q := sq b key
    let crc := crc32c (x.take 8 ++ zeros 4 ++ x.drop 12)
    let len : Prop := 1 ≤ hLen x ∧ hLen x ≤ 16
    let header : Prop := len ∧ hLen x ≤ 2 ^ q.k - 1 ∧ fieldAt x 8 4 = crc ∧ hFlags x < 4 ∧ fieldAt x 12 4 = 0
    let total := 4 * hLen x
    let nu (u : Nat) : Nat := byteAt x (16 * u + 1)
    let start (i : Nat) : Nat := (fun u => u + nu u)^[i] 1
    let fits (i : Nat) : Prop := start i ≠ total ∧ nu (start i) ≠ 0 ∧ start i + nu (start i) ≤ total
    let zero (u : Nat) : Prop := ∀ y ∈ (x.drop (16 * u)).take 16, y = 0
    let framed : Prop := byteAt x 7 ≠ 0 ∧ (∀ i < byteAt x 7, fits i) ∧ ∀ u, start (byteAt x 7) ≤ u → u < total → zero u
    let op (i : Nat) : Nat := byteAt x (16 * start i)
    let bad (i : Nat) : Prop := opcodeBad (op i) (isAdmin key) (pavSec b q.owner) = true
    let good : Prop := header ∧ framed ∧ (∀ i < byteAt x 7, ¬ bad i) ∧ ¬ (hFirst x = true ∧ cidInUse b key (hCid x) = true)
    (¬ len → entryChecks b key x = .inl (1, 0)) ∧
    (len → 2 ^ q.k - 1 < hLen x → entryChecks b key x = .inl (2, q.k)) ∧
    (len → hLen x ≤ 2 ^ q.k - 1 → fieldAt x 8 4 ≠ crc → entryChecks b key x = .inl (3, crc)) ∧
    (len → hLen x ≤ 2 ^ q.k - 1 → fieldAt x 8 4 = crc → 4 ≤ hFlags x ∨ fieldAt x 12 4 ≠ 0 →
      entryChecks b key x = .inl (4, fieldAt x 12 4)) ∧
    (header → byteAt x 7 = 0 → entryChecks b key x = .inl (5, 0)) ∧
    (header → ∀ i < byteAt x 7, (∀ k < i, fits k) → ¬ fits i → entryChecks b key x = .inl (5, start i)) ∧
    (header → byteAt x 7 ≠ 0 → (∀ i < byteAt x 7, fits i) → ∀ u, start (byteAt x 7) ≤ u → u < total → ¬ zero u →
      (∀ v, start (byteAt x 7) ≤ v → v < u → zero v) → entryChecks b key x = .inl (5, u)) ∧
    (header → framed → ∀ i < byteAt x 7, (∀ k < i, ¬ bad k) → bad i → entryChecks b key x = .inl (6, op i + 256 * start i)) ∧
    (header → framed → (∀ i < byteAt x 7, ¬ bad i) → hFirst x = true → cidInUse b key (hCid x) = true →
      entryChecks b key x = .inl (7, 0)) ∧
    (good → ∀ ch, q.chain = some ch →
      let word := ch.cid + ch.slot * 65536
      (hFirst x = true → entryChecks b key x = .inl (8, word)) ∧
      (hFirst x = false → ch.members = 63 → hLast x = false → entryChecks b key x = .inl (0xA, word)) ∧
      (hFirst x = false → ch.members ≠ 63 ∨ hLast x = true → hCid x ≠ ch.cid ∨ hDeadline x ≠ ch.deadline →
        entryChecks b key x = .inl (0xB, word))) ∧
    (good → q.chain = none → hFirst x = false → entryChecks b key x = .inl (9, 0)) ∧
    (good → q.chain = none ∧ hFirst x = true ∨ (∃ ch, q.chain = some ch ∧ hFirst x = false ∧ (ch.members ≠ 63 ∨ hLast x = true) ∧
        hCid x = ch.cid ∧ hDeadline x = ch.deadline) →
      entryChecks b key x = .inr ((List.range (byteAt x 7)).map (fun i => (x.drop (16 * start i)).take (16 * nu (start i)))))) ∧
  (∀ (op : Nat) (secure : Bool),
    (opcodeBad op true secure = true ↔ op ∉ [0x80, 0x81, 0x82, 0x83, 0x84, 0x88, 0x90, 0x91, 0x92, 0x93, 0x98, 0x99, 0x9A, 0xA0, 0xA8]) ∧
    (opcodeBad op false secure = true ↔ op ∉ [0x01, 0x08, 0x09, 0x0C, 0x0D, 0x10, 0x11, 0x20, 0x21, 0x22, 0x28, 0x29, 0x2A, 0x30, 0x31, 0x38] ∨
      op = 0x31 ∧ secure = false)) ∧
  (∀ (b : Block) (n : Nat) (x : List Byte) (secure service : Bool),
    let fails (o r : Nat) : Prop := operandFail b n x secure service = some (o, r)
    let ready : Prop := notPermitted x secure service = false ∧ iNu x = nuWanted x ∧ reservedAt x = none ∧ ctlPaZero x = true
    let passes : Prop := notPermitted x secure service = false ∧ formFail x = none
    (notPermitted x secure service = true ↔ (iOp x = 0x29 ∨ iOp x = 0x30) ∧ secure = false ∧ service = false) ∧
    (notPermitted x secure service = true → fails 0 9) ∧
    (notPermitted x secure service = false → iNu x ≠ nuWanted x → fails 1 7) ∧
    (notPermitted x secure service = false → iNu x = nuWanted x → ∀ o, reservedAt x = some o → fails o 7) ∧
    (notPermitted x secure service = false → iNu x = nuWanted x → reservedAt x = none → ctlPaZero x = false → fails 8 7) ∧
    (ready → iOp x = 0x01 ∨ iOp x = 0x11 → (iCount x = 0 ∨ 8 < iCount x → fails 3 6) ∧
      (1 ≤ iCount x → iCount x ≤ 8 → 16 < byteAt x 6 → fails 6 6)) ∧
    (ready → iOp x = 0x10 → (relocMode x = 3 ∨ relocPlace x = true ∧ relocMode x = 1 → fails 2 6) ∧
      (relocMode x ≠ 3 → relocPlace x = false ∨ relocMode x ≠ 1 → iCount x = 0 ∨ 8 < iCount x → fails 3 6)) ∧
    (ready → iOp x = 0x22 → byteAt x 5 = 0 → fails 5 6) ∧
    (ready → iOp x = 0x31 → (iCount x = 0 ∨ 64 < iCount x → fails 3 6) ∧
      (1 ≤ iCount x → iCount x ≤ 64 → ∀ i < iCount x, rawRecordOk x i (rawStats x i) = false →
        (∀ k < i, rawRecordOk x k (rawStats x k) = true) → fails (32 + 2 * i) 6)) ∧
    (notPermitted x secure service = false → ∀ z, formFail x = some z → operandFail b n x secure service = some z) ∧
    (passes → ∀ z, paFail b n x = some z → operandFail b n x secure service = some z) ∧
    (passes → paFail b n x = none → operandFail b n x secure service = hostFail x))

/-- The arbiter of a ring accepts a completion of a source while the ring exists, is not broken and is not full (R86, R88, R90), the
block is out of reset and in PS0: the oldest that the source has for the ring, one in a lane's holding area before one that waits; a
FAULT_DISCARD event only once no earlier one of its queue waits (R437). That a slot whose write is not yet answered counts as used is log
entry 89 (DEDUCED). Accepting it takes the ring's next slot, whose passing from the last to the first inverts the phase (R84), makes its
commands outstanding no longer (R61), and issues its 32 bytes as one write beat in that slot (R85), which counts as written at once where
Gatehouse denies it. -/
def Obligations.CompletionsAreAccepted : Prop :=
  (∀ (s : State) (c src : Nat),
    let from_ := if src < 64 then some src else none
    ((cq s.blk c).live = true → (cq s.blk c).blocked = false → s.blk.inReset = false → powerState s.blk = 0 →
      faulted s.blk = false ∨ s.blk.lxReady = true →
      (∀ x b, takeCompl s.blk c from_ = some (x, b) → exec (.completionAccept c src) s = .next (after s (acceptCompl b c x))) ∧
      (takeCompl s.blk c from_ = none → exec (.completionAccept c src) s = .next (after s s.blk))) ∧
    ((cq s.blk c).blocked = true ↔ (cq s.blk c).broken = true ∨
      ((cq s.blk c).issue + 1) % 2 ^ (cq s.blk c).k = (cq s.blk c).head) ∧
    ((cq s.blk c).live = false ∨ (cq s.blk c).blocked = true → exec (.completionAccept c src) s = .next (after s s.blk))) ∧
  (∀ (b : Block) (c : Nat) (src : Option Nat) (x : Compl) (older newer : List Compl) (before behind : List (Nat × Compl)),
    let q := cq b c
    let holds : Prop := ∃ n, src = some n ∧ ∃ y ∈ (lane b n).holding, y.1 = c
    let waits : Prop := q.wait = older ++ x :: newer ∧ x.lane = src ∧ ∀ y ∈ older, y.lane ≠ src
    (∀ n, src = some n → (lane b n).holding = before ++ (c, x) :: behind → (∀ y ∈ before, y.1 ≠ c) →
      takeCompl b c src = some (x, updLane b n (fun l => { l with holding := before ++ behind }))) ∧
    (¬ holds → waits → x.event = false ∨ x.status ≠ 0x70 →
      takeCompl b c src = some (x, updCq b c (fun q => { q with wait := older ++ newer }))) ∧
    (¬ holds → waits → x.event = true → x.status = 0x70 → (∃ y ∈ older, y.sq = x.sq) → takeCompl b c src = none) ∧
    (¬ holds → (∀ y ∈ q.wait, y.lane ≠ src) → takeCompl b c src = none)) ∧
  (∀ (b : Block) (c : Nat) (x : Compl),
    let q := cq b c
    let next := (q.issue + 1) % 2 ^ q.k
    (cq (acceptCompl b c x) c).issue = next ∧ (cq (acceptCompl b c x) c).phase = (if next = 0 then !q.phase else q.phase) ∧
    (∀ k ∈ x.cmds, ∀ y ∈ (acceptCompl b c x).cmds, y.1 ≠ k) ∧
    ∃ b1 : Block, b1.bursts = b.bursts ∧ (cq b1 c).tail = q.tail ∧ (cq b1 c).inFlight = q.inFlight ++ [(q.issue, x)] ∧
      acceptCompl b c x = reholdAll (
        let y := issue b1 (mkWrite (pavPort b1 q.owner) (24 + q.owner) 3 (.comp c q.issue) (q.base + 64 * (q.issue / 2))
          [BitVec.ofNat 512 (leNat (complBytes b x q.phase) * 2 ^ (256 * (q.issue % 2)))]
          [BitVec.ofNat 64 (0xFFFFFFFF * 2 ^ (32 * (q.issue % 2)))] (pavSec b1 q.owner))
        if y.1 then y.2 else complAck y.2 c q.issue))

/-- The 32 bytes of a completion (R81): their number, and every field in its place. That SQ_HEAD of an event whose queue is deleted is
that of the queue now under its number is log entry 109 (DESIGN CHOICE). -/
def Obligations.CompletionLayout : Prop :=
  ∀ (b : Block) (x : Compl) (phase : Bool),
    let l := complBytes b x phase
    l.length = 32 ∧ fieldAt l 0 2 = x.cid % 65536 ∧ (x.sq < 4096 → fieldAt l 2 2 = x.sq) ∧ (4096 ≤ x.sq → fieldAt l 2 2 = 0x8000) ∧
      byteAt l 4 = x.status % 256 ∧ byteAt l 5 = x.detail % 256 ∧ (byteAt l 6).testBit 0 = phase ∧
      (byteAt l 6).testBit 1 = (complLate b x).isSome ∧ (byteAt l 6).testBit 2 = x.event ∧ byteAt l 7 = min 255 x.retry ∧
      byteAt l 6 < 8 ∧ fieldAt l 8 8 = x.result.toNat ∧ fieldAt l 16 2 = x.maxCorr % 65536 ∧
      fieldAt l 18 2 = (sq b x.sq).head % 65536 ∧ fieldAt l 20 4 = now b % 2 ^ 32 ∧ fieldAt l 24 8 = x.aux.toNat

/-- SQ.CREATE and CQ.CREATE with good operands make their queue, its heads and tails 0 and its ring where the instruction says
(R108, R112). SQ.DELETE of a queue with no open chain and no outstanding command removes it at once; CQ.DELETE of a ring to which no
queue is bound removes it (R110, R111). SQ.RESUME moves a stopped queue's head to the slot given and lets it be fetched (R113);
VECTOR.BIND binds the ring to its vector with its target, count and time (R114, R387). -/
def Obligations.QueueCommands : Prop :=
  (∀ (s : State) (p : Nat) (x : List Byte),
    (AdminAt s p 0x80 x →
      let q := aId x
      let c := fieldAt x 4 2 % 2048
      let ks := fieldAt x 10 2 % 4096
      let svc := (byteAt x 7).testBit 0
      let cls := byteAt x 7 / 2 % 8
      let n := byteAt x 8 % 64
      q < s.blk.build.sqMax → granted s.blk p 0xD010 q = true → (sq s.blk q).live = false → ownCq s.blk p c = true →
      (cq s.blk c).broken = false → 4 ≤ byteAt x 6 → byteAt x 6 ≤ 16 →
      (svc = true → rbit s.blk (pavReg p 0xD000) 2 = true ∧ n < s.blk.build.lanes ∧ serviceQueue s.blk n cls = none) →
      (ks = 0 ∧ pavSec s.blk p = true ∨ ks ≠ 0 ∧ (keySlot s.blk ks).st = .live ∧ (keySlot s.blk ks).owner = p) →
      iAddr x % 4096 = 0 → iAddr x < 2 ^ 48 →
      exec (.sqCreate p) s = .next (after s (adminOk (updSq s.blk q (fun _ => { Sq.none with
        live := true, owner := p, k := byteAt x 6, base := iAddr x, cq := c, key := ks, service := svc, lane := n, cls := cls })) p))) ∧
    (AdminAt s p 0x82 x →
      let c := aCqid x
      c < s.blk.build.cqMax → granted s.blk p 0xD014 c = true → (cq s.blk c).live = false → 4 ≤ byteAt x 6 → byteAt x 6 ≤ 16 →
      iAddr x % 4096 = 0 → iAddr x < 2 ^ 48 →
      exec (.cqCreate p) s = .next (after s (adminOk (updCq s.blk c (fun _ => { Cq.none with
        live := true, owner := p, k := byteAt x 6, base := iAddr x })) p)))) ∧
  (∀ (s : State) (p : Nat) (x : List Byte),
    (AdminAt s p 0x81 x → sqFail s.blk p (aId x) = none → (sq s.blk (aId x)).chain = none →
      (∀ y ∈ s.blk.cmds, y.2.sq ≠ aId x) → exec (.sqDelete p) s = .next (after s (adminOk
        (removeSq (adminWait (fetchGone (updSq s.blk (aId x) (fun y => { y with deleting := true, chain := none })) (aId x)) p) (aId x)) p))) ∧
    (AdminAt s p 0x83 x → cqFail s.blk p (aCqid x) = none → boundTo s.blk (aCqid x) = none →
      exec (.cqDelete p) s = .next (after s (adminOk (removeCq s.blk (aCqid x)) p)))) ∧
  (∀ (s : State) (p : Nat) (x : List Byte),
    (AdminAt s p 0x84 x → sqFail s.blk p (aId x) = none → (sq s.blk (aId x)).stopped = true →
      resumeOk (sq s.blk (aId x)) (fieldAt x 4 2) = true → exec (.sqResume p) s = .next (after s (adminOk
        (updSq s.blk (aId x) (fun q => { q with
          stopped := false, head := fieldAt x 4 2 % 2 ^ q.k, fetch := fieldAt x 4 2 % 2 ^ q.k, short := 0, seen := 0, full := none
          chain := none })) p))) ∧
    (AdminAt s p 0x84 x → sqFail s.blk p (aId x) = none → (sq s.blk (aId x)).stopped = true →
      let y := sq s.blk (aId x)
      ((fieldAt x 4 2 + 2 ^ y.k - y.head) % 2 ^ y.k ≤ y.posted ↔ resumeOk y (fieldAt x 4 2) = true) ∧
      (resumeOk y (fieldAt x 4 2) = false → exec (.sqResume p) s = .next (after s (adminFail s.blk p 4 6)))) ∧
    (AdminAt s p 0xA0 x →
      let v := fieldAt x 4 2 % 1024
      let t := byteAt x 6 % 32
      cqFail s.blk p (aCqid x) = none → (v = 0 ∨ 64 ≤ v ∧ granted s.blk p 0xD01C v = true ∧ vectorTaken s.blk p v = false) →
      rbit s.blk (pavReg p 0xD004) t = true → byteAt x 7 ≠ 0 → fieldAt x 8 2 ≠ 0 →
      exec (.vectorBind p) s = .next (after s (adminOk (bindVector (updCq s.blk (aCqid x) (fun q => { q with vector := v })) v t
        (byteAt x 7) (fieldAt x 8 2)) p))))

/-- The key commands (R115, R396 to R400): KEY.CREATE draws a fresh key into an empty slot, KEY.DESTROY empties an unbound one,
KEY.LOAD reads its two beats under the wrap key that the pavilion selects, and KEY.EXPORT writes the wrapped blob of an exportable
slot, whose key it reads (R454 to R456): a slot whose key is lost to an error fails with reason 4 at offset 0. An overwritten slot keeps nothing that
the test mode planted in it (R400; log entry 9). -/
def Obligations.KeyCommands : Prop :=
  ∀ (s : State) (p : Nat) (x : List Byte),
    let b := s.blk
    let k := aId x
    keyRange b p k = true →
    (AdminAt s p 0x90 x → retired b = false → (keySlot b k).st = .empty → rbit b 0x10504 1 = false → rngReady b = true →
      exec (.keyCreate p) s = .next (after s
        (adminOk (fillSlot (drawKey b).2 p k (drawKey b).1 ((byteAt x 4).testBit 0)) p))) ∧
    (AdminAt s p 0x93 x → (keySlot b k).st ≠ .empty → boundQueues b k = [] →
      let clean := { b with planted := b.planted.filter (fun y => !decide (y.mem = 5 ∧ Config.memWordOwner 5 0 y.index = k)) }
      exec (.keyDestroy p) s = .next (after s (adminOk (updKey clean k (fun _ => KeySlot.none)) p))) ∧
    (AdminAt s p 0x91 x → retired b = false → ∀ wk, wrapKeyOf b p = some wk → (keySlot b k).st = .empty → addrBad (iAddr x) 128 = false →
      exec (.keyLoad p) s = .next (after s (adminTransferEnd
        (adminBurst (updExec (adminWait b p) p (fun y => { y with wrapKey := some wk })) p 0 (iAddr x) 2 none) p))) ∧
    (AdminAt s p 0x92 x → ∀ wk, wrapKeyOf b p = some wk → (keySlot b k).st = .live → (keySlot b k).exportable = true →
      addrBad (iAddr x) 128 = false →
      ((readKey b k).1 = true → exec (.keyExport p) s = .next (after s (adminTransferEnd (adminBurst (adminWait (readKey b k).2 p) p 0 (iAddr x) 2
        (some (toBeats (keyWrap wk (blobPlain (keySlot b k))), [maskFirst 64, maskFirst 16]))) p))) ∧
      ((readKey b k).1 = false → exec (.keyExport p) s = .next (after s (adminFail (readKey b k).2 p 0 4)))) ∧
    ((keySlot b k).st = .live → plantedKeys b k = [] → readKey b k = (true, b))

/-- The stripe commands (R116): OPEN makes an empty open stripe, told from every earlier opening of its number, ADD a member with the pages from its first to its last, CLOSE asks
every member lane, or removes a stripe without members at once. A lane takes a stripe's close (R116): the last of them ends the
stripe and the STRIPE.CLOSE that waits. -/
def Obligations.StripeCommands : Prop :=
  (∀ (s : State) (p : Nat) (x : List Byte),
    let b := s.blk
    let st := byteAt x 2
    let a := iPa x
    let n := paLane a
    let last := fieldAt x 16 2
    let lanes := (List.range 64).filter (fun m => (stripe b st).members.any (fun y => decide (y.lane = m)))
    stripeNamed b p st = true →
    (AdminAt s p 0x98 x → (stripe b st).isOpen = false → exec (.stripeOpen p) s =
      .next (after s (adminOk (updStripe (newId b).2 st (fun _ => { Stripe.none with isOpen := true, owner := p, opening := (newId b).1 })) p))) ∧
    (AdminAt s p 0x9A x → (stripe b st).isOpen = true → (stripe b st).members.length < 64 → n < b.build.lanes →
      dieValid b n (paDie a) = true → unitInStripe b n (paDie a) (paUnit a) = false → paPage a ≤ last →
      exec (.stripeAdd p) s = .next (after s (adminOk (updStripe b st (fun y => { y with
        members := y.members ++ [⟨n, paDie a, paUnit a, paPage a, last, false⟩]
        counts := tupd 0 y.counts n (· + (last - paPage a + 1)) })) p))) ∧
    (AdminAt s p 0x99 x → (stripe b st).isOpen = true → lanes = [] →
      exec (.stripeClose p) s = .next (after s (adminOk { b with stripes := terase b.stripes st } p))) ∧
    (AdminAt s p 0x99 x → (stripe b st).isOpen = true → lanes ≠ [] →
      exec (.stripeClose p) s = .next (after s (adminWait (each lanes (fun b m => updLane b m (fun l => { l with
        closes := l.closes ++ [st] })) (updStripe b st (fun y => { y with isOpen := false, closing := lanes, closer := some p }))) p)))) ∧
  (∀ (s : State) (n st : Nat), (stripe s.blk st).closing.contains n = true → (lane s.blk n).closes.contains st = true →
    laneRuns s.blk n = true →
    let b := updLane s.blk n (fun l => { l with closes := l.closes.filter (· != st) })
    let rest := (stripe s.blk st).closing.filter (· != n)
    (rest ≠ [] → exec (.stripeCloseTaken n st) s = .next (after s (updStripe b st (fun y => { y with closing := rest })))) ∧
    (rest = [] → ∀ p, (stripe s.blk st).closer = some p →
      exec (.stripeCloseTaken n st) s = .next (after s (adminOk { b with stripes := terase b.stripes st } p))))

/-- ABORT of a command that no member lane can find any more, or that is not there (R118, R121), and of an armed one, whose lanes
are asked; IDENTIFY writes its 4 KiB page as sixteen bursts of four beats
(R117; the page's bytes are constants without a body, log entry 10, DESIGN CHOICE). An abort request that a lane takes (R120): a
member with no die confirm is aborted with everything unfinished in it, and its pavilion's ABORT counts it; one with a confirm, or
done, is too late. It waits for the die-ready events that the lane's arbiter holds (R51). -/
def Obligations.AbortAndIdentify : Prop :=
  (∀ (s : State) (p : Nat) (x : List Byte),
    let b := s.blk
    let found := b.cmds.find? (fun y => decide (y.2.sq = aId x ∧ y.2.cid = fieldAt x 4 2) && !y.2.discarded)
    (AdminAt s p 0x88 x → (pav b p).exec.bind (·.abort) = none → sqFail b p (aId x) = none → found = none →
      exec (.abort p) s = .next (after s (adminDone b p stNotFound 0 0))) ∧
    (AdminAt s p 0x88 x → (pav b p).exec.bind (·.abort) = none → sqFail b p (aId x) = none →
      ∀ y, found = some y → y.2.armed = true →
      let waits := y.2.entries.filter (fun e => (entry b e).lane.isSome && !entryDone b e)
      let asked := each waits (fun b e => match (entry b e).lane with
        | some n => updLane b n (fun l => { l with aborts := l.aborts ++ [(p, e)] })
        | none => b) b
      exec (.abort p) s = .next (after s (abortEnd (updExec (adminWait asked p) p (fun z => { z with
        abort := some ⟨y.1, waits, 0, y.2.entries.length - waits.length⟩ })) p))) ∧
    (AdminAt s p 0xA8 x → byteAt x 2 ≤ 3 → fieldAt x 4 2 < (if byteAt x 2 = 2 then b.build.lanes else if byteAt x 2 = 3 then 16 else 1) →
      addrBad (iAddr x) 4096 = false →
      exec (.identify p) s = .next (after s (adminTransferEnd (each (List.range 16) (fun b i => adminBurst b p (4 * i)
        (iAddr x + 256 * i) 4 (some (toBeats ((List.range 256).map (fun o => Config.identifyByte s.blk.build.lanes (byteAt x 2)
          (fieldAt x 4 2) (256 * i + o) (identifyFacts s.blk p (byteAt x 2) (fieldAt x 4 2)))), List.replicate 4 (maskFirst 64))))
        (adminWait b p)) p)))) ∧
  (∀ (s : State) (n p e : Nat) (rest : List (Nat × Nat)), (lane s.blk n).aborts = (p, e) :: rest →
    laneRuns s.blk n = true → (lane s.blk n).seq = none → (lane s.blk n).events = [] →
    let b := updLane s.blk n (fun l => { l with aborts := rest })
    let known := b.entries.any (fun y => decide (y.1 = e ∧ y.2.lane = some n))
    (known = true → entryDone b e = false → memberConfirmed b e = false →
      exec (.abortRequest n) s = .next (after s (abortDecided (abortMember n e b) p e true))) ∧
    (known = false ∨ entryDone b e = true ∨ memberConfirmed b e = true →
      exec (.abortRequest n) s = .next (after s (abortDecided b p e false)))) ∧
  (∀ (s : State) (n : Nat), (lane s.blk n).events ≠ [] → exec (.abortRequest n) s = .next (after s s.blk))

/-- What taking up an instruction of a work entry does before the instruction's own effect (R128, R229, R243), whatever its opcode:
on a lane whose start has failed it completes INVALID_FIELD, reason 4; on one not yet started it waits, unchecked; an operand that
fails a check completes it with that check's offset and reason; so does an offline die. -/
def Obligations.InstructionsAreChecked : Prop :=
  ∀ (s : State) (n e i : Nat) (c : Instr) (op : Nat),
    (c, op) ∈ [(.read n e i, opRead), (.prog n e i, opProg), (.append n e i, opAppend), (.erase n e i, opErase),
      (.eraseVerify n e i, opVerify), (.relocate n e i, opReloc), (.sample n e i, opSample), (.fence n e i, opFence),
      (.wait n e i, opWait), (.signal n e i, opSignal), (.featureGet n e i, opFeatGet), (.featureSet n e i, opFeatSet),
      (.dieStatus n e i, opDieStatus), (.train n e i, opTrain), (.raw n e i, opRaw), (.nop n e i, opNop)] →
    let b := s.blk
    let x := (instr b e i).bytes
    let q := sq b (entry b e).sq
    takeUp b n e i op = true →
    (startFailed b n = true → exec c s = .next (after s (finishInvalid b e i (dieOffset x) 4))) ∧
    (startFailed b n = false → laneStarted b n = false → exec c s = .next (after s b)) ∧
    (startFailed b n = false → laneStarted b n = true → places x = false →
      ∀ o r, operandFail b n x (pavSec b q.owner) q.service = some (o, r) → exec c s = .next (after s (finishInvalid b e i o r))) ∧
    (startFailed b n = false → laneStarted b n = true → places x = true →
      ∀ o r, operandFail b n x (pavSec b q.owner) q.service = some (o, r) → exec c s =
        .next (after s (finishInvalid (if (instr b e i).place.isSome then unplace b n e i else b) e i o r))) ∧
    (startFailed b n = false → laneStarted b n = true → operandFail b n x (pavSec b q.owner) q.service = none →
      ∀ o, offlineAt b n e i = some o → exec c s = .next (after s (finishInvalid (unplace b n e i) e i o 4)))

/-- NOP, FENCE, WAIT and SIGNAL (R176, R179, R181, R193): FENCE and SIGNAL wait for every instruction before them in their entry; a
FENCE with STOPFAIL behind a failure aborts what follows; a WAIT ends where its waymark has reached its value; a SIGNAL adds to its
waymark, unless ONOK meets a failure. The running frame is topped up as the instruction is pooled (R204). -/
def Obligations.OrderingInstructions : Prop :=
  ∀ (s : State) (n e i : Nat),
    let b := s.blk
    let l := (entry b e).instrs
    let x := (instr b e i).bytes
    let w := waymark b n (waymarkOf b e i)
    let up (b' : Block) : Block := if (instr b e i).phase = .pooled then topUp n b' else b'
    (TakenUp s n e i opNop → exec (.nop n e i) s = .next (after s (up (finishInstr b e i stOk 0)))) ∧
    (TakenUp s n e i opFence → earlierDone l i = false → exec (.fence n e i) s = .next (after s (up (setPhase b e i .waiting)))) ∧
    (TakenUp s n e i opFence → earlierDone l i = true → (iOpt x 0 && earlierFailed l i) = false →
      exec (.fence n e i) s = .next (after s (up (finishInstr b e i stOk 0)))) ∧
    (TakenUp s n e i opFence → earlierDone l i = true → (iOpt x 0 && earlierFailed l i) = true →
      exec (.fence n e i) s = .next (after s (up (abortRest n e (i + 1) (setStatus b e i stOk 0))))) ∧
    (TakenUp s n e i opWait → (w - BitVec.ofNat 32 (fieldAt x 8 4)).toNat < 2 ^ 31 →
      exec (.wait n e i) s = .next (after s (up (finishAux b e i stOk 0 (waymarkAux w))))) ∧
    (TakenUp s n e i opWait → 2 ^ 31 ≤ (w - BitVec.ofNat 32 (fieldAt x 8 4)).toNat →
      exec (.wait n e i) s = .next (after s (up (setPhase b e i .waiting)))) ∧
    (TakenUp s n e i opSignal → earlierDone l i = false → exec (.signal n e i) s = .next (after s (up (setPhase b e i .waiting)))) ∧
    (TakenUp s n e i opSignal → earlierDone l i = true → (iOpt x 0 && earlierFailed l i) = true →
      exec (.signal n e i) s = .next (after s (up (finishInstr b e i stAborted 0)))) ∧
    (TakenUp s n e i opSignal → earlierDone l i = true → (iOpt x 0 && earlierFailed l i) = false →
      exec (.signal n e i) s = .next (after s (up (setWaymark n (waymarkOf b e i) (w + BitVec.ofNat 32 (byteAt x 5))
        (finishAux b e i stOk 0 (waymarkAux (w + BitVec.ofNat 32 (byteAt x 5))))))))

/-- A WAIT that has waited TIMEOUT ticks completes ABORTED 0x01, counts in LN_WM_STAT, and what follows it in its entry completes
ABORTED (R180); a write of LN_WM_DATA gives the selected waymark its value and wakes the lane (R182, R212). -/
def Obligations.WaitsTimeOut : Prop :=
  ∀ (s : State) (n e i : Nat) (v : Word),
    let b := s.blk
    let r := instr b e i
    let t := fieldAt r.bytes 12 2
    (laneRuns b n = true → (entry b e).lane = some n → r.phase = .waiting → iOp r.bytes = opWait → t ≠ 0 → r.started + t ≤ now b →
      exec (.waitTimeout n e i) s = .next (after s (abortRest n e (i + 1) (setStatus (updInstr (rinc b (laneReg n 0xE8) 23 16 1) e i
        (fun y => { y with aux := waymarkAux (waymark b n (waymarkOf b e i)) })) e i stAborted 1)))) ∧
    (t = 0 ∨ now b < r.started + t → exec (.waitTimeout n e i) s = .next (after s b)) ∧
    (PortTakes s (laneReg n 0xE4) → exec (.waymarkWrite n v true) s =
      .next (afterWrite s (setWaymark n (rfld b (laneReg n 0xE0) 7 0) v)))

/-- Setting a waymark gives it its value, leaves every other waymark of the lane as it was, and takes the lane out of PS1 (R177,
R182, R212), whatever WAITs end by it and whatever their ends bring about. -/
def Obligations.SetWaymark : Prop :=
  ∀ (b : Block) (n k : Nat) (v : Word),
    waymark (setWaymark n k v b) n k = v ∧ (∀ j, j ≠ k → waymark (setWaymark n k v b) n j = waymark b n j) ∧
    (lane (setWaymark n k v b) n).ps1 = false

/-- The instructions that read (R134, R167, R222, R298): READ, SAMPLE and RELOCATE in mode 1 fetch the records of the units that they
read, once, and wait while a page they read is still being written or a FEATURE.SET of their die is due; otherwise their codewords
start. ERASE and ERASE.VERIFY (R156, R158, R159, R222): a
pooled ERASE releases its units at once; it waits for earlier work on them and then its routine waits for its die. ERASE.VERIFY of a
unit with an erase pending, or with pages in staging, ends at once; otherwise it reads page 0. The running frame is
topped up as the instruction is pooled (R204). -/
def Obligations.ReadsAndErasesStart : Prop :=
  (∀ (s : State) (n e i : Nat) (c : Instr),
    let b := fetchRecords n e i s.blk
    let up (b' : Block) : Block := if (instr s.blk e i).phase = .pooled then topUp n b' else b'
    (TakenUp s n e i opRead ∧ c = .read n e i ∨ TakenUp s n e i opSample ∧ c = .sample n e i ∨
      TakenUp s n e i opReloc ∧ c = .relocate n e i ∧ relocMode (instr b e i).bytes = 1) →
    (readWaits b n e i = true → exec c s = .next (after s (up (setPhase b e i .waiting)))) ∧
    (readWaits b n e i = false → exec c s = .next (after s (up (startReads n e i b))))) ∧
  (∀ (s : State) (n e i : Nat),
    let b := s.blk
    let up (b' : Block) : Block := if (instr b e i).phase = .pooled then topUp n b' else b'
    let a := iPa (instr b e i).bytes
    let us := eraseUnits (instr b e i).bytes
    let b' := if (instr b e i).phase = .pooled then erasePooled b n e i else b
    let busy := (earlierOf b' n e i).any (fun y => (namedUnits b' y.1 y.2).any (fun u => us.contains u)) || featBarred b' n e i
    let writes := featBarred b n e i || (earlierOf b n e i).any (fun y => (progPages b y.1 y.2).any (fun p =>
      decide (p.1 = paDie a ∧ p.2.1 = paUnit a) && !pageStaged b n (paDie a) (paUnit a) p.2.2))
    let staged := (lane b n).pages.any (fun p => decide (p.die = paDie a ∧ p.unit = paUnit a) && p.staged)
    (TakenUp s n e i opErase → busy = true → exec (.erase n e i) s = .next (after s (up (setPhase b' e i .waiting)))) ∧
    (TakenUp s n e i opErase → busy = false → exec (.erase n e i) s =
      .next (after s (up (addTodo (setPhase b' e i .active) n (eraseRoutine b' n e i))))) ∧
    (TakenUp s n e i opVerify → erasePending b n e i (paDie a) (paUnit a) = true →
      exec (.eraseVerify n e i) s = .next (after s (up (finishInstr b e i stErasePending 0)))) ∧
    (TakenUp s n e i opVerify → erasePending b n e i (paDie a) (paUnit a) = false → writes = true →
      exec (.eraseVerify n e i) s = .next (after s (up (setPhase b e i .waiting)))) ∧
    (TakenUp s n e i opVerify → erasePending b n e i (paDie a) (paUnit a) = false → writes = false → staged = true →
      exec (.eraseVerify n e i) s = .next (after s (up (finishInstr b e i stEraseIncomplete 2)))) ∧
    (TakenUp s n e i opVerify → erasePending b n e i (paDie a) (paUnit a) = false → writes = false → staged = false →
      exec (.eraseVerify n e i) s = .next (after s (up (verifyRead n e i 0 (setPhase b e i .active))))))

/-- The instructions that program (R141, R150, R222, R285): PROG, and RELOCATE without PLACE, wait while a FEATURE.SET of their die
is due, and are decided otherwise; APPEND, and RELOCATE with PLACE, first take a page of their stripe's member, in the opening of the
stripe that they were routed in, or end with the status their stripe gives. The running frame is topped up as the instruction
is pooled (R204). -/
def Obligations.ProgramsStart : Prop :=
  (∀ (s : State) (n e i : Nat) (c : Instr),
    let b := if c = .relocate n e i then fetchRecords n e i s.blk else s.blk
    let r := instr b e i
    let up (b' : Block) : Block := if (instr s.blk e i).phase = .pooled then topUp n b' else b'
    (TakenUp s n e i opProg ∧ c = .prog n e i ∨ TakenUp s n e i opAppend ∧ c = .append n e i ∨
      TakenUp s n e i opReloc ∧ c = .relocate n e i ∧ relocMode r.bytes ≠ 1) →
    (featBarred b n e i = true → exec c s = .next (after s (up (setPhase b e i .waiting)))) ∧
    (featBarred b n e i = false → places r.bytes = false ∨ r.place.isSome = true → exec c s = .next (after s (up (progDecide n e i b)))) ∧
    (featBarred b n e i = false → places r.bytes = true → r.place = none →
      (∀ z, choosePage b n (iStripe r.bytes) r.opening = .inr z → exec c s = .next (after s (up (finishInstr b e i z.1 z.2)))) ∧
      (choosePage b n (iStripe r.bytes) r.opening = .inl none → exec c s = .next (after s (up (setPhase b e i .waiting)))) ∧
      (∀ m, choosePage b n (iStripe r.bytes) r.opening = .inl (some m) →
        let b' := updInstr (updMember b (iStripe r.bytes) m (fun x => { x with taken := true })) e i (fun y => { y with place := some m })
        (iOp r.bytes = opReloc → iCount r.bytes ≠ cppOf b' (dieFamily b' n m.die) →
          exec c s = .next (after s (up (finishInvalid (unplace b' n e i) e i 3 6)))) ∧
        (iOp r.bytes ≠ opReloc ∨ iCount r.bytes = cppOf b' (dieFamily b' n m.die) →
          (∀ o, offlineAt b' n e i = some o → exec c s = .next (after s (up (finishInvalid (unplace b' n e i) e i o 4)))) ∧
          (offlineAt b' n e i = none → exec c s = .next (after s (up (progDecide n e i b')))))))) ∧
  (∀ (b : Block) (n st opening : Nat),
    (stripe b st).opening ≠ opening → choosePage b n st opening = .inr (stStripeClosed, 1))

/-- A program whose page may be written (R141, R145, R147, R148, R283, R285): its checks run in order, and with none failing it
reserves its staging slots and asks for its data, a codeword at a time. -/
def Obligations.ProgramsAreDecided : Prop :=
  ∀ (b : Block) (n e i : Nat),
    let x := (instr b e i).bytes
    let pages := progPages b e i
    let f := dieFamily b n ((pages.head?.map (·.1)).getD 0)
    let stop (st det : Nat) (aux : Word64) : Block := finishAux (unplace b n e i) e i st det aux
    let busy : Prop := ∃ y ∈ pages, (stPage b n y.1 y.2.1 y.2.2).isSome = true ∨ beingWritten b n e i y.1 y.2.1 y.2.2 = true
    let pending : Prop := ∃ y ∈ pages, erasePending b n e i y.1 y.2.1 = true
    let bad : Prop := ∃ y ∈ pages, (y.1, y.2.1) ∈ (instr b e i).badUnits
    let held : Prop := (∃ y ∈ pages, suspWaits b n e i y.1 = true) ∨ readWaits b n e i = true
    let failed : Prop := ∃ y ∈ pages, ∃ o, openUnit b n y.1 y.2.1 = some o ∧ o.failed = true
    let wrong : Prop := ∃ y ∈ pages, ∃ o, openUnit b n y.1 y.2.1 = some o ∧ o.next ≠ y.2.2
    let fresh := (pages.filter (fun y => !(openUnit b n y.1 y.2.1).isSome)).length
    let full : Prop := 1 < passesOf b f ∧ 128 < openCount b n + fresh
    (busy → progDecide n e i b = stop stPageBusy 0 0) ∧
    (¬ busy → pending → progDecide n e i b = setPhase b e i .waiting) ∧
    (¬ busy → ¬ pending → bad → progDecide n e i b = stop stEraseFailed 0x10 0) ∧
    (¬ busy → ¬ pending → ¬ bad → held → progDecide n e i b = setPhase b e i .waiting) ∧
    (¬ busy → ¬ pending → ¬ bad → ¬ held → failed →
      progDecide n e i b = stop stProgFailed 3 (BitVec.ofNat 64 ((destPa b e i).getD 0))) ∧
    (¬ busy → ¬ pending → ¬ bad → ¬ held → ¬ failed → wrong → progDecide n e i b = stop stInvalid 8 (invalidAux 4 (i + 1))) ∧
    (¬ busy → ¬ pending → ¬ bad → ¬ held → ¬ failed → ¬ wrong → full → progDecide n e i b = stop stNoResource 2 0) ∧
    (¬ busy → ¬ pending → ¬ bad → ¬ held → ¬ failed → ¬ wrong → ¬ full →
      (reserveStaging b n e i = none → progDecide n e i b = rinc (stop stNoResource 3 0) (laneReg n 0x250) 23 16 1) ∧
      (∀ b', reserveStaging b n e i = some b' →
        let b1 := setPhase b' e i .active
        (iOp x = opReloc → relocMode x = 0 → progDecide n e i b = startReads n e i b1) ∧
        (iOp x = opProg ∨ iOp x = opAppend → progDecide n e i b =
          each ((destCws b1 n e i).filter (fun c => decide ((cw b1 c).k < cppOf b1 f * pages.length)))
            (fun b c => pushIn b n (mkJob (.hostIn e i c) (iAddr x + 4096 * (cw b c).k) 4096 (entrySec b e) [])) b1)))

/-- FEATURE.GET, FEATURE.SET, DIE.STATUS, TRAIN and RAW (R183 to R192): behind a FEATURE.SET of the die all but DIE.STATUS wait;
then each is carried out, its routine or its training waiting for the die. A TRAIN goes to the first of its dies that can be trained,
and counts as failed every die before it that cannot (R189; log entry 87, DEDUCED). A RAW on a lane without entry kind 19 is not
permitted. The running frame is topped up as the instruction is pooled (R204). -/
def Obligations.DieInstructionsStart : Prop :=
  (∀ (s : State) (n e i : Nat),
    let b := s.blk
    let x := (instr b e i).bytes
    let d := paDie (iPa x)
    let b' := setPhase b e i .active
    let up (b' : Block) : Block := if (instr b e i).phase = .pooled then topUp n b' else b'
    (featBarred b n e i = true →
      (TakenUp s n e i opFeatGet → exec (.featureGet n e i) s = .next (after s (up (setPhase b e i .waiting)))) ∧
      (TakenUp s n e i opFeatSet → exec (.featureSet n e i) s = .next (after s (up (setPhase b e i .waiting)))) ∧
      (TakenUp s n e i opTrain → exec (.train n e i) s = .next (after s (up (setPhase b e i .waiting)))) ∧
      (TakenUp s n e i opRaw → (entryWord b n 19).isSome = true → exec (.raw n e i) s = .next (after s (up (setPhase b e i .waiting))))) ∧
    (TakenUp s n e i opFeatGet → featBarred b n e i = false → exec (.featureGet n e i) s =
      .next (after s (up (addTodo b' n (featureRoutine b' n e i false))))) ∧
    (TakenUp s n e i opFeatSet → featBarred b n e i = false →
      let b1 := addTodo b' n (featureRoutine b' n e i true)
      exec (.featureSet n e i) s = .next (after s (up (resumeCheck n (paDie (iPa (instr b1 e i).bytes)) b1)))) ∧
    (TakenUp s n e i opDieStatus → exec (.dieStatus n e i) s =
      .next (after s (up (addTodo b' n (mkRoutine b' n 10 (paDie (iPa (instr b' e i).bytes)) e i (.status e i)))))) ∧
    (TakenUp s n e i opTrain → featBarred b n e i = false →
      let b1 := updInstr b' e i (fun r => { r with aux := BitVec.ofNat 64 (0xFF * 2 ^ 40), left := 0 })
      let y := (instr b1 e i).bytes
      exec (.train n e i) s = .next (after s (up (if iOpt y 0 then trainSeek n e i (validDies b1 n) b1
        else resumeCheck n (paDie (iPa y)) (updInstr b1 e i (fun r => { r with place := some ⟨n, paDie (iPa y), 0, 0, 0, false⟩ })))))) ∧
    (TakenUp s n e i opRaw → entryWord b n 19 = none → exec (.raw n e i) s = .next (after s (up (finishInvalid b e i 0 4)))) ∧
    (TakenUp s n e i opRaw → (entryWord b n 19).isSome = true → featBarred b n e i = false → exec (.raw n e i) s =
      .next (after s (up (resumeCheck n d (rawStep n e i 0 b')))))) ∧
  (∀ (b : Block) (n e i : Nat) (pre : List Nat),
    let passed := pre.foldl (fun b x => trainNote e i x false [] b) b
    (∀ x ∈ pre, trainable b n x = false) →
    trainSeek n e i pre b = trainOver passed e i ∧
    (∀ d l, trainable b n d = true → trainSeek n e i (pre ++ d :: l) b =
      resumeCheck n d (updInstr passed e i (fun r => { r with place := some ⟨n, d, 0, 0, 0, false⟩ }))))

/-- The lane scheduler's own events (R204, R206, R218, R220, R445, R57): a frame is built once, under the budget of the period in
force as it is built (log entry 83, DESIGN CHOICE) less the cycles carried into it, with tenants, service and tenants again placed in
turn and suspensions judged after the carried work and after each; the trainings that can run hold their dies first, and the suspended
dies that nothing waits for resume last (R220, R249); a deferred suspension is tried again at
its tick, a suspension that has lasted HOLD_MAX ticks is resumed, an idle lane enters PS1, and a run of slips raises the event once.
-/
def Obligations.LaneSchedulerEvents : Prop :=
  ∀ (s : State) (n d : Nat),
    let b := s.blk
    let l := lane b n
    let c := rfld b (laneReg n 0x80) 15 0
    (lanePlaces b n = false → exec (.frameBuild n) s = .next (after s b)) ∧
    (lanePlaces b n = true → l.built = false →
      let b' := updLane b n (fun l =>
        { l with built := true, next := [], nextUsed := 0, nextBudget := frameBudget b, nextStall := false })
      exec (.frameBuild n) s = .next (after s (resumeAll n
        (placeAll n (Placing.suspend n ⟨b', true, frameBudget b', l.used - l.budget⟩)).blk))) ∧
    (∀ (b : Block) (p : Placing), (Placing.suspend n p).blk = suspendCheck n p.blk ∧
      resumeAll n b = each (validDies b n) (fun b d => resumeCheck n d b) b ∧ beginTrains n b = each (validDies b n) (beginTrain n) b) ∧
    (∀ p : Placing,
      let p0 := { p with blk := beginTrains n p.blk }
      let room := p0.limit - reserveOf n p0
      let p1 := ((tenantRoutines p0.blk n).foldl (fun p r =>
        if p.used n + (readied p.blk n r).1.len ≤ room then tryPlace n p r else p) p0).suspend n
      let p2 := (placeService (serviceVisits p1.blk n) n p1).suspend n
      placeAll n p = ((tenantRoutines p2.blk n).foldl (tryPlace n) p2).suspend n) ∧
    (l.built = true → exec (.frameBuild n) s = .next (after s b)) ∧
    (∀ t, (die b n d).waitSusp = some t → t ≤ now b → lanePlaces b n = true → exec (.suspendEarliestReached n d) s =
      .next (after s (each (waitingReads b n d) (suspendFor n d) (updDie b n d (fun x => { x with waitSusp := none }))))) ∧
    ((die b n d).susp.isSome = true → (die b n d).suspAt + max 1 (rfld b (laneReg n 0x144) 23 16) ≤ now b → lanePlaces b n = true →
      exec (.suspendHoldExpiry n d) s = .next (after s (placeResume b n d))) ∧
    (lanePlaces b n = true → l.ps1 = false → rfld b (laneReg n 0xA0) 15 0 ≠ 0 → rfld b (laneReg n 0xA0) 15 0 ≤ l.idle →
      l.seq = none → diesQuiet b n = true → (∀ d ∈ validDies b n, (die b n d).retrain = none ∧ (die b n d).training = false) →
      exec (.ps1Entry n) s = .next (after s (rinc (updLane b n (fun l => { l with ps1 := true })) (laneReg n 0xA4) 31 16 1))) ∧
    (l.slipRaised = false → c ≠ 0 → rfld b 0x200 23 16 ≠ 0 → rfld b 0x200 23 16 ≤ c →
      exec (.laneSlipEvent n) s = .next (after s (raiseLaneSlip (updLane b n (fun l => { l with slipRaised := true })) n))) ∧
    (l.slipRaised = true → exec (.laneSlipEvent n) s = .next (after s b))

/-- What brings a die's operation on (R239, R212, R214, R219, R244, R249): a poll is placed; RB_n's rise is a die-ready event where the
chip enable has one LUN and the family uses it, and elsewhere has the dies polled; the event wakes the lane and moves the operation to its data or status read, or ends its suspension, of which the resume is decided
first, and then tops up the frame; a temperature reading is a GET FEATURES, settles the band, and outside −40 to 125 °C is left out
(R39); a retraining held back for DEFER ticks holds the die. Training and the limits on
a die's operations (R189, R241 to R243, R246): a die whose training can run is out of service from then on, which confirms its TRAIN (R194), and takes its
outcome; an erase or a pass beyond its limit
fails with its own status after a LUN reset, a suspend command beyond its limit leaves the operation running, and each expiry is
counted towards the die's going offline. The entries that the lane runs for a die are recorded by log entry 96, and a suspension counts from
its ready event by log entry 112 (both DEDUCED). -/
def Obligations.DieEvents : Prop :=
  (∀ (s : State) (n d : Nat),
    let b := s.blk
    let ran := wakeLane (updLane b n (fun l => { l with events := l.events.erase (d, true) })) n
    (lanePlaces b n = true → exec (.statusPoll n d) s = .next (after s (placePoll n d b))) ∧
    (b.inReset = false → laneStarted b n = true → ∀ ce, (validDies b n).filter (fun d => decide (dieCe b n d = ce)) = [d] →
      exec (.rbNChange n ce true) s = .next (after s (
        if lunsPerCe b (dieFamily b n d) ≤ 1 ∧ famOption b (dieFamily b n d) 4 = true then
          updLane b n (fun l => { l with events := l.events ++ [(d, true)] })
        else statusPoll n d b))) ∧
    (∀ ce, exec (.rbNChange n ce false) s = .next (after s b)) ∧
    (laneRuns b n = true → (lane b n).seq = none → (lane b n).events.contains (d, true) = true →
      ∀ o, (die ran n d).op = some o → o.ready = false →
      ((die ran n d).suspending = false → exec (.dieReady n d) s = .next (after s (topUp n (opReady n d o ran)))) ∧
      ((die ran n d).suspending = true → exec (.dieReady n d) s = .next (after s (topUp n (resumeCheck n d (updDie ran n d (fun y =>
        { y with op := none, susp := some o, suspending := false, suspAt := now ran, consec := 0 }))))))) ∧
    (lanePlaces b n = true → (lane b n).ps1 = false → dieInService b n d = true → dieOffline b n d = false → (die b n d).op = none →
      (die b n d).suspending = false → (die b n d).raw = false → (die b n d).training = false →
      fam8 b (dieFamily b n d) 0x220 ≠ 0 → ∀ t : Int,
      let a := featForm b n d (fam8 b (dieFamily b n d) 0x220)
      let b1 := noteSteps n [{ enteredAt b n d 9 a with result := (BitVec.ofInt 8 t).zeroExtend 64 }] (clearSteps n d b)
      exec (.dieTempPoll n d t) s = .next (after s (evalBand n d (updDie b1 n d (fun x =>
        { x with temp := if -40 ≤ t ∧ t ≤ 125 then some t else none, tempAt := now b }))))) ∧
    (∀ t, (die b n d).retrain = some t → t + rfld b (laneReg n 0x220) 15 8 ≤ now b → lanePlaces b n = true →
      exec (.retrainDeferExpiry n d) s = .next (after s (updDie b n d (fun x => { x with training := true }))))) ∧
  (∀ (s : State) (n d : Nat) (windows : List (Nat × Nat)),
    let b := s.blk
    let x := die b n d
    let off := updDie b n d (fun y => { y with op := none })
    let reset := needLunReset (endSuspended n d off) n d
    let held := updDie b n d (fun y => { y with training := true })
    let begun := beginTrain n b d
    (trainRuns b n d = true → (trainInstr held n d = none → begun = held) ∧
      (∀ e i, trainInstr held n d = some (e, i) → begun = updInstr held e i (fun r => { r with confirmed := true })) ∧
      exec (.dieTrain n d windows) s = .next (after s (trainNext n d (windowsGood begun (dieFamily begun n d) windows) windows
        (takeTraining n d (trainZq begun n d) windows (clearSteps n d (updDie begun n d (fun y => { y with consec := 0 })))))) ∧
      (laneRuns b n = true → exec (.operationTimeLimit n d .training) s = .next (after s (countExpiry n d .training (trainNext n d false []
        (needLunReset (trainFailed n d (updDie begun n d (fun y => { y with retrain := none, training := false }))) n d)))))) ∧
    (laneRuns b n = true → ∀ o, x.op = some o → o.ready = false → x.suspending = false →
      (∀ e i, o.kind = .erase → o.purpose = .eraseIssue e i → exec (.operationTimeLimit n d .erase) s =
        .next (after s (countExpiry n d .erase (eraseEnded reset n e i stEraseFailed 1 0)))) ∧
      (∀ k p, o.kind = .pass k → passOf reset n d o.purpose = some p → exec (.operationTimeLimit n d .pass) s =
        .next (after s (countExpiry n d .pass (passExpired reset n p))))) ∧
    (laneRuns b n = true → x.suspending = true → exec (.operationTimeLimit n d .suspend) s =
      .next (after s (countExpiry n d .suspend (updDie b n d (fun y => { y with suspending := false, noSusp := true }))))))

/-- The decoders (R268, R271, R275, R277, R307): an output that satisfies every parity check is the codeword's data, with the bits that
it differs from what was read as its corrected count; any other output fails the decode, and so the codeword where a soft decode was
its last step. The soft decoder takes the codeword with the earliest due tick, its centre sense derandomised as the hard plane, and the
magnitudes of JN_SOFT_LLR. -/
def Obligations.Decoders : Prop :=
  ∀ (s : State) (n j d id : Nat) (out : List Byte) (unsat : Nat),
    let b := s.blk
    let c := cw b id
    let good : Prop := ldpcValid out = true ∧ out.length = cwLen b (dieFamily b c.lane (paDie c.pa))
    (cwLive b id = true → c.lane = n → c.stage = .hard → laneRuns b n = true →
      (good → exec (.hardDecodeDone n id out unsat) s = .next (after s (escalate n (cwDecoded id (bitDiff (randomise c.pa c.raw) out) out
        (updCw b id (fun x => { x with stage := .done }))) id))) ∧
      (¬ good → exec (.hardDecodeDone n id out unsat) s = .next (after s (hardFailed id unsat b)))) ∧
    (∀ y rest, (junc b j).soft = y :: rest → tget 0 (junc b j).dec d = 0 → running b = true → d < 4 →
      let best := rest.foldl (fun m x => if softBefore b m x then m else x) y
      exec (.softDecodeStart j d) s = .next (after s (rinc (updCw (updJunc b j (fun q => { q with
        soft := q.soft.filter (· != best), dec := tput q.dec d (best + 1), input := tput q.input d (softInput b (cw b best)) })) best (fun c => { c with stage := .softDecode }))
        (juncReg j 0x20C) 31 0 1))) ∧
    (tget 0 (junc b j).dec d = id + 1 → running b = true → cwLive b id = true → c.stage = .softDecode →
      let b' := updJunc b j (fun q => { q with dec := terase q.dec d, input := terase q.input d })
      (good → exec (.softDecodeDone j d out) s = .next (after s
        (cwDecoded id (bitDiff (randomise c.pa (c.soft.headD [])) out) out (rinc b' (laneReg c.lane 0x25C) 15 0 1)))) ∧
      (¬ good → exec (.softDecodeDone j d out) s = .next (after s (cwOutcome id stUncorr
        (if recoveryMode (instr b c.e c.i).bytes = 3 then 1 else 0) (rinc b' (laneReg c.lane 0x25C) 31 16 1))))) ∧
    (∀ c : Cw, (softInput b c).hard = randomise c.pa (c.soft.getD 0 []) ∧
      (softInput b c).mags = [rfld b (juncReg (c.lane / 8) 0x204) 5 0, rfld b (juncReg (c.lane / 8) 0x204) 13 8,
        rfld b (juncReg (c.lane / 8) 0x204) 21 16, rfld b (juncReg (c.lane / 8) 0x204) 29 24])

/-- The resets (R18, R431, R433, R436, R444): a pulse below 20 ns changes nothing; one of 100 ns or more makes a power-on reset give
every register its reset value (the input pins keep their levels, log entry 1), and a block reset keep the always-on registers, hold every lane and record its cause; a brown-out
does the same with its own cause until VDD_CORE is back, one of a dip below 100 ns or in PS3 nothing. CFLASH changes only by what an abandoned command leaves. The block leaves
reset (R18, R19, R431, R449): the tables are loaded and Gatehouse starts; lx_ready rises once every lane's load has ended, and the
loop starts; the lx_ready that ends PS3 also takes STATE to PS0, sets PS3_OUT, and lets the tick go on. -/
def Obligations.ResetsAndStart : Prop :=
  (∀ (s : State) (ns : Nat),
    let a := cfAbandon s
    (ns < 20 → exec (.powerOnReset ns) s = .next s ∧ exec (.blockReset ns) s = .next s) ∧
    (100 ≤ ns → exec (.powerOnReset ns) s = .next { a with blk := { Block.inReset0 a.blk.build with
      brownHold := a.blk.brownHold, comp105 := a.blk.comp105, idleIn := a.blk.idleIn, sleepIn := a.blk.sleepIn,
      free := a.blk.free, nextId := a.blk.nextId, order := a.blk.order } }) ∧
    (100 ≤ ns → exec (.blockReset ns) s = .next { a with blk := { rset1 (coldBlock (holdAll a.blk)) 0x38030 1 with rstPin := true } }) ∧
    (100 ≤ ns → powerState s.blk ≠ 3 → exec (.brownOutReset ns) s = .next { a with blk :=
      { rset1 (rset1 (coldBlock (holdAll a.blk)) 0x38030 2) 0x38024 12 with brownHold := true } }) ∧
    (ns < 100 ∨ powerState s.blk = 3 → exec (.brownOutReset ns) s = .next s)) ∧
  (∀ (s : State) (errs : List ReadErr) (rowBad : Bool),
    let b := s.blk
    (b.rstPin = true → b.brownHold = false → exec (.resetDeassert errs rowBad) s =
      .next (after s (startBlock s.nv errs rowBad { b with rstPin := false, porPin := false }))) ∧
    (b.rstPin = true → b.brownHold = true → exec (.resetDeassert errs rowBad) s =
      .next (after s { b with rstPin := false, porPin := false })) ∧
    (b.brownHold = true → b.rstPin = false → exec (.vddCoreRestored errs rowBad) s =
      .next (after s (startBlock s.nv errs rowBad { b with brownHold := false }))) ∧
    (b.brownHold = false → powerState b = 3 → rbit b 0x38008 0 = true → b.restoring = false → b.inReset = false →
      exec (.vddCoreRestored errs rowBad) s =
        .next (after s { startBlock s.nv errs rowBad (rclr1 (restoreImage b) 0x38008 0) with restoring := true })) ∧
    (b.inReset = false → b.lxReady = false → faulted b = false → powerState b = 0 → b.restoring = false →
      (∀ n < b.build.lanes, (lane b n).loadPend = false) →
      exec .lxReady s = .next (after s (loopStart (rset1 { b with lxReady := true } 0x4 0)))) ∧
    (b.inReset = false → b.lxReady = false → faulted b = false → b.restoring = true →
      (∀ n < b.build.lanes, (lane b n).loadPend = false) →
      exec .lxReady s = .next (after s (rset1 (rputF
        { loopStart (rset1 { b with lxReady := true } 0x4 0) with restoring := false, ticking := true } 0x38004 1 0 0) 0x38010 2))))

/-- What a block reset leaves (R444): the block is in reset with its clocks' and queues' state gone; each always-on register reads
as the reset found it, and every other register reads its reset value. The always-on registers are SYS_EPOCH and VALID, the refresh LAST and
band, PM_SUPPLY_STAT, PM_SUPPLY_LAST, PM_RESET_CAUSE and the at-risk list. -/
def Obligations.BlockResetState : Prop :=
  ∀ (b : Block),
    let c := coldBlock b
    c.inReset = true ∧ c.lxReady = false ∧ c.milepost = 0 ∧ c.sqs = [] ∧ c.cqs = [] ∧ c.keys = [] ∧ c.lanes = [] ∧ c.dies = [] ∧
      c.bursts = [] ∧ c.entries = [] ∧ c.cmds = [] ∧ c.build = b.build ∧ c.atRisk = b.atRisk ∧ c.rstPin = b.rstPin ∧
      c.porPin = b.porPin ∧ c.warnWhole = false ∧
      (let aon := [0x110, 0x114, 0x450, 0x454, 0x38024, 0x38028, 0x38030, 0x38040, 0x38044, 0x38048]
       (∀ a ∈ aon, rget c a = rget b a) ∧ (∀ a, a ∉ aon → rget c a = resetWord a))

/-- Supply warnings (R427 to R433): the first that holds is counted, holds every lane's at-risk bits, raises GEN and takes back what
has not been confirmed; the end of the last records its length and releases the lanes that the warning held. In a block or brown-out
reset the warnings are kept by the always-on domain alone (the model's reading, log entry 101): no lane acts, and RECOVERED sets only
where no reset came in the warning. -/
def Obligations.SupplyWarnings : Prop :=
  ∀ (s : State) (w : Supply) (us : Nat),
    let b := s.blk
    let k := supplyBit w
    let on := rset1 (rset1 b 0x38024 k) 0x38024 (8 + k)
    let held := { holdAll (rinc on 0x38024 31 16 1) with
      warnHeld := (laneNums on).filter (fun n => !laneHeld on n), warnWhole := true }
    (b.porPin = false → powerState b ≠ 3 → rbit b 0x38024 k = false →
      (warned b = true → exec (.supplyWarning w) s = .next (after s on)) ∧
      (warned b = false → held.inReset = false → exec (.supplyWarning w) s = .next (after s (each (laneNums held) warnLane held))) ∧
      (warned b = false → held.inReset = true → exec (.supplyWarning w) s = .next (after s held))) ∧
    (b.porPin = false → powerState b ≠ 3 → rbit b 0x38024 k = true →
      let off := rclr1 b 0x38024 k
      let whole := if off.warnWhole = true then rset1 off 0x38024 11 else off
      let len := rput whole 0x38028 (BitVec.ofNat 32 (min us 0xFFFFFFFF))
      let r := { each len.warnHeld releaseLane len with warnHeld := [], warnWhole := false }
      (warned off = true → exec (.supplyWarningEnd w us) s = .next (after s off)) ∧
      (warned off = false → exec (.supplyWarningEnd w us) s = .next (after s r)))

/-- Shutdown by heat, and a lost clock (R374, R375, R39, R438): a trip of a valid sensor abandons every micro-routine, cuts the
allowance and empties the buckets; the restart resets every lane with discard, lets the fetches go on and starts the loop; a failed phy_refclk halts its
junction's eight lanes, but in PS3, where it is not watched. -/
def Obligations.TripsAndRestarts : Prop :=
  ∀ (s : State) (k j : Nat) (high : Bool),
    let b := s.blk
    (b.inReset = false → powerState b ≠ 3 → (b.sensors.getD k none).isSome = true →
      let b1 := rinc (rset1 (rset1 b 0x30008 4) 0x300C0 0) 0x300C0 15 8 1
      let b2 := each (laneNums b1) (fun b n => abandonSeq n b) b1
      exec (.thermalTrip k) s = .next (after s (noteCooling (emptyBuckets { b2 with toll := { b2.toll with u := 0, uNext := none } })))) ∧
    (b.inReset = false → exec (.comparator105cChange k high) s =
      .next (after s (noteCooling { b with comp105 := b.comp105.set k high }))) ∧
    (tripped b = true → coolNow b = true → b.inReset = false → faulted b = false → powerState b ≠ 3 →
      let b1 := holdAll (rset1 (rset1 (rclr1 (rclr1 b 0x300C0 0) 0x300C0 1) 0x30008 5) 0x38030 3)
      let b2 := discardLanes (laneNums b1) 3 7 0 b1
      let b3 := each (laneNums b2) (fun b n => resetLane false n b) b2
      let b4 := each (juncNums b3) (fun b j => each (List.range 8) (chanRestart j) b) b3
      exec .thermalRestart s = .next (after s (loopStart (each (juncNums b4) (fun b j => pump j false b) b4)))) ∧
    (powerState b = 3 → exec (.refclkFail j) s = .next (after s b)) ∧
    (b.inReset = false → j < b.build.juncs → faulted b = false → powerState b ≠ 3 → exec (.refclkFail j) s = .next (after s
      (each ((List.range 8).map (fun k => 8 * j + k)) (fun b n => haltLane n 3 b) (rset1 b 0x120 (6 + j)))))

/-- The power states (R426, R446 to R449): a request is a secure write of PM_CTRL; that PM_STATUS.WAITING is the request, set by a REQ of 2
or 3 in any state and cleared at entry while REQ stays, is log entry 59 (DEDUCED). A non-secure write of a PM register is ignored. With its conditions met the block
enters PS2, its tick stopped, or PS3, its configuration saved; PM_WAKE or a doorbell ends PS2. The at-risk list (R432, R433):
RELEASE releases every held lane, a 1 in a hold register releases its lane, and a released lane's bits follow its dies' state again.
-/
def Obligations.PowerStates : Prop :=
  (∀ (s : State) (v : Word),
    let b := s.blk
    let ask (b : Block) : Block := rputB (rputF b 0x38000 1 0 (if fld v 1 0 = 1 then 0 else fld v 1 0)) 0x38004 2
      (decide ((if fld v 1 0 = 1 then 0 else fld v 1 0) ≠ 0))
    (PortTakes s 0x38000 → exec (.pmReqPs2 v true) s = .next (afterWrite s ask) ∧ exec (.pmReqPs3 v true) s = .next (afterWrite s ask) ∧
      exec (.pmReqCancel v true) s = .next (afterWrite s ask) ∧
      (∀ c ∈ [Instr.pmReqPs2 v false, .pmReqPs3 v false, .pmReqCancel v false], exec c s = .next (afterIgnored s 0x38000))) ∧
    (requested b 2 = true → blockQuiet b = true →
      let b1 := each (laneNums b) (fun b n => each (validDies b n) (fun b d =>
        updDie b n d (fun x => { x with ps2Band := dieBand b n d })) b) b
      exec .ps2Entry s = .next (after s (rset1 (rclr1 (rputF { b1 with ticking := false } 0x38004 1 0 2) 0x38004 2) 0x38010 0))) ∧
    (powerState b = 2 → rbit b 0x38008 0 = true →
      let b1 := rputF (rclr1 { b with ticking := true } 0x38008 0) 0x38004 1 0 0
      let b2 := each ((laneNums b1).filter (laneStarted b1)) (fun b n => each (validDies b n) (wakeDie n) b) b1
      let b3 := each (juncNums b2) (fun b j => each (List.range 8) (wakeChan j) b) b2
      exec .ps2Exit s = .next (after s (rset1 (loopStart b3) 0x38010 1))) ∧
    (requested b 3 = true → blockQuiet b = true → blockEmpty b = true → exec .ps3Entry s =
      .next (after s (rclr1 (rputF (ps3Block b) 0x38004 1 0 3) 0x38004 2))) ∧
    (PortTakes s 0x38008 → exec (.pmWake v true) s = .next (afterWrite s (fun b =>
      if v.getLsbD 0 && decide (powerState b ≠ 0) then rset1 b 0x38008 0 else b)) ∧
      exec (.pmWake v false) s = .next (afterIgnored s 0x38008))) ∧
  ((∀ (s : State) (v : Word), PortTakes s 0x38040 → v.getLsbD 0 = true → exec (.atriskRelease v true) s =
    .next (afterWrite s (fun b => each ((List.range 64).filter (laneHeld b)) releaseLane b)) ∧
      exec (.atriskRelease v false) s = .next (afterIgnored s 0x38040)) ∧
  (∀ (s : State) (hi : Bool) (v : Word), PortTakes s (if hi then 0x38048 else 0x38044) → exec (.atriskLaneRelease hi v true) s =
    .next (afterWrite s (fun b => each ((List.range 32).filter (fun i => v.getLsbD i)) (fun b i => releaseLane b (i + 32 * ofBool hi)) b)) ∧
      exec (.atriskLaneRelease hi v false) s = .next (afterIgnored s (if hi then 0x38048 else 0x38044))) ∧
  (∀ (b : Block) (n : Nat), n < 64 → progBits (releaseLane b n) n = dieMask (riskProg b n) ∧
    eraseBits (releaseLane b n) n = dieMask (riskErase b n)) ∧
  (∀ (b : Block) (n : Nat), n < 64 → progBits (holdLane b n) n = progBits b n ∧ eraseBits (holdLane b n) n = eraseBits b n))

/-- The tick (R41 to R43, R35): outside reset and with the tick running, SYS_MILEPOST advances by one, a written period takes effect,
the junction sensors are read, and a period of Tollgate begins where it is due; then every lane meets its boundary, each junction's
from lane 8j + (k mod 8) on (R211), and works out the bands of its dies. Where the test mode has
planted no word (log entry 9), no key, submission queue or answer of the port changes. A stopped tick changes nothing. -/
def Obligations.TicksAdvanceTheMilepost : Prop :=
  (∀ (s : State) (t0 t1 t2 t3 : Int),
    let b := s.blk
    (b.inReset = true ∨ b.ticking = false → exec (.tick t0 t1 t2 t3) s = .next (after s b)) ∧
    (b.inReset = false → b.ticking = true →
      let b1 := readSensors t0 t1 t2 t3 (takePeriod { b with milepost := b.milepost + 1 })
      let b2 := if b1.lxReady && !faulted b1 then tollTick b1 else b1
      let b3 := each (tickLanes b2) (fun b n => laneTick n b) (tickReads b2)
      let b4 := each (laneNums b3) (fun b n => laneBands n b) b3
      exec (.tick t0 t1 t2 t3) s = .next (after s b4) ∧
      (b.planted = [] → b4.milepost = b.milepost + 1 ∧ b4.newPeriod = none ∧
        b4.sensors = [sensorReading t0, sensorReading t1, sensorReading t2, sensorReading t3] ∧
        b4.keys = b.keys ∧ b4.sqs = b.sqs ∧ b4.answers = b.answers ∧ b4.rstPin = b.rstPin))) ∧
  (∀ (b : Block) (t0 t1 t2 t3 : Int),
    (∀ p, b.newPeriod = some p → rfld (takePeriod b) 0x200 5 0 = p.toNat ∧ rbit (takePeriod b) 0x200 8 = false) ∧
    (b.newPeriod = none → takePeriod b = b) ∧
    rbit (readSensors t0 t1 t2 t3 b) 0x120 5 =
      decide (([t0, t1, t2, t3].filter (fun t => decide (-40 ≤ t ∧ t ≤ 150))).length < 2)) ∧
  (∀ (b : Block) (n : Nat), n ∈ tickLanes b ↔ n < 8 * b.build.juncs)

/-- The board's registers (R36, R37, R43, R44, R468): an hour passed advances a valid SYS_EPOCH, but not beyond 0xFFFF_FFFE; the first
write makes it valid, it never goes back once it is, and a write of 0xFFFF_FFFF is ignored; a board temperature inside its range makes
the report fresh until it is STALE × 1,024 ticks old, any other sets BOARD_RANGE, and STALE is taken either way; a PERIOD of 2 to 32 µs
waits for the next boundary and with any other the write is ignored; a 4 B read of SYS_MILEPOST_LO latches the high half.
A non-secure write of SYS_EPOCH or SYS_TICK_CTRL is ignored. That the writes are taken in PS3 too is log entry 79 (DESIGN CHOICE), and that
the age of the report goes on from its count behind PS3 is log entry 98 (DEDUCED). -/
def Obligations.BoardRegisters : Prop :=
  ∀ (s : State) (v : Word),
    let b := s.blk
    (epochValid b = true → (epochNow b).toNat < 0xFFFFFFFE →
      exec .epochAdvance s = .next (after s (refreshCheck (rput b 0x110 (epochNow b + 1))))) ∧
    (epochValid b = false ∨ 0xFFFFFFFE ≤ (epochNow b).toNat → exec .epochAdvance s = .next (after s b)) ∧
    (PortTakes s 0x110 → v = 0xFFFFFFFF → exec (.epochWrite v true) s = .next (afterWrite s (fun b => b))) ∧
    (PortTakes s 0x110 → epochValid b = true → v ≠ 0xFFFFFFFF → v.toNat < (epochNow b).toNat →
      exec (.epochWrite v true) s = .next (afterWrite s (fun b => rset1 b 0x120 4))) ∧
    (PortTakes s 0x110 → epochValid b = true → v ≠ 0xFFFFFFFF → (epochNow b).toNat ≤ v.toNat →
      exec (.epochWrite v true) s = .next (afterWrite s (fun b => refreshCheck (rput b 0x110 v)))) ∧
    (PortTakes s 0x110 → epochValid b = false → v ≠ 0xFFFFFFFF → exec (.epochWrite v true) s =
      .next (afterWrite s (fun b => refreshCheck (rput (rset1 (rput b 0x110 v) 0x114 0) 0x450 v)))) ∧
    (PortTakes s 0x118 → -40 ≤ sbyte (fld v 7 0) → sbyte (fld v 7 0) ≤ 125 → exec (.boardTempWrite v true) s =
      .next (afterWrite s (fun b => rclr1 { rputF (rputF b 0x118 31 16 (fld v 31 16)) 0x118 7 0 (fld v 7 0) with
        boardAt := some (now b) } 0x120 3))) ∧
    (PortTakes s 0x118 → (sbyte (fld v 7 0) < -40 ∨ 125 < sbyte (fld v 7 0)) → exec (.boardTempWrite v true) s =
      .next (afterWrite s (fun b => rset1 (rputF b 0x118 31 16 (fld v 31 16)) 0x120 2))) ∧
    (∀ t, b.boardAt = some t →
      (boardFresh b = true ↔ now b < t + rfld b 0x118 31 16 * 1024) ∧
      (t + rfld b 0x118 31 16 * 1024 ≤ now b → powerState b ≠ 3 →
        exec .boardTempStale s = .next (after s (rset1 { b with boardAt := none } 0x120 3))) ∧
      (now b < t + rfld b 0x118 31 16 * 1024 ∨ powerState b = 3 → exec .boardTempStale s = .next (after s b))) ∧
    (b.boardAt = none → boardFresh b = false ∧ exec .boardTempStale s = .next (after s b)) ∧
    (PortTakes s 0x200 → (fld v 5 0 < 2 ∨ 32 < fld v 5 0) → exec (.tickCtrlWrite v true) s =
      .next (afterWrite s (fun b => rset1 b 0x200 9))) ∧
    (PortTakes s 0x200 → 2 ≤ fld v 5 0 → fld v 5 0 ≤ 32 → exec (.tickCtrlWrite v true) s =
      .next (afterWrite s (fun b =>
        let c := rputF b 0x200 23 16 (fld v 23 16)
        rset1 { (if v.getLsbD 9 then rclr1 c 0x200 9 else c) with newPeriod := some (BitVec.ofNat 6 (fld v 5 0)) } 0x200 8))) ∧
    (PortTakes s 0x110 → exec (.epochWrite v false) s = .next (afterIgnored s 0x110)) ∧
    (PortTakes s 0x200 → exec (.tickCtrlWrite v false) s = .next (afterIgnored s 0x200)) ∧
    (PortTakes s 0x208 → exec (.milepostLoRead true) s = .next (after s (answer { b with mileLatch := b.milepost.extractLsb' 32 32 }
      ⟨true, laneOfWord 0x208 (b.milepost.extractLsb' 0 32), stDone, none⟩)))

/-- Tollgate (R34, R358, R360 to R364, R367 to R371, R373): every telemetry sample of a running block replaces the one before it in its period, a
further one sets TEL_EXTRA and 0xFFFF sets TEL_INVALID (that a 0xFFFF replaces a valid sample is log entry 80, DESIGN CHOICE); a period
boundary sets the sample of the period that ends apart, and a tick refills the buckets with the output computed before; a due period takes that
sample as the measurement or counts an overrun, goes through the steps of its mode (a change to automatic mode in the first to third
overrun is log entry 100, DEDUCED), and leaves the thermal loop to its own command, which finishes it. The computation, the profile, the
thermal loop, the bumpless change, the estimate, the following error and the fault are those of the spec, with the integer part of x in e and in
fe (log entry 15, DEDUCED); a product beyond 48 bits is free (log entry 14, DESIGN CHOICE). -/
def Obligations.TollgateEvents : Prop :=
  (∀ (s : State) (v : BitVec 16),
    let b := s.blk
    (b.inReset = false → b.lxReady = true → powerState b = 0 →
      let b1 := if 1 ≤ b.toll.samples then rset1 b 0x120 0 else b
      let b2 := if v = 0xFFFF then rset1 b1 0x120 1 else b1
      exec (.telemetrySample v) s = .next (after s { b2 with toll := { b.toll with sample := some v, samples := b.toll.samples + 1 } })) ∧
    (b.inReset = true ∨ b.lxReady = false ∨ powerState b ≠ 0 → exec (.telemetrySample v) s = .next (after s b)) ∧
    (b.toll.due = true → running b = true →
      let ok := b.toll.ended.isSome && decide (b.toll.ended ≠ some 0xFFFF)
      let miss := if ok then 0 else min 31 (rfld b 0x30004 12 8 + 1)
      let b1 := { b with toll := { b.toll with due := false, safe := sword (rget b 0x3002C) } }
      let b2 := rputF (if sensorLow b1 then b1 else rclr1 b1 0x30004 2) 0x30004 12 8 miss
      let b3 := if ok then b2 else rinc b2 0x30090 15 0 1
      let meas : Int := if ok then ((b.toll.ended.getD 0).toNat : Int) else b.toll.meas
      let b4 := { b3 with toll := { b3.toll with meas := meas, ended := none } }
      let b5 := if loopClosed b4 then autoPeriod b4 miss else manualPeriod b4 miss
      let b6 := { b5 with toll := { b5.toll with charged := 0 :: b5.toll.charged.take 255 } }
      exec .tollgatePeriod s = .next (after s b6) ∧ b6.toll.due = false ∧ b6.toll.ended = none ∧ b6.toll.sample = b.toll.sample ∧
        b6.milepost = b.milepost ∧ b6.lanes = b.lanes ∧ b6.sqs = b.sqs ∧ b6.keys = b.keys) ∧
    (b.toll.due = false ∨ running b = false → exec .tollgatePeriod s = .next (after s b)) ∧
    (b.toll.thermal = true → running b = true → exec .thermalLoop s = .next (after s (finishPeriod (thermalStep b)))) ∧
    (b.toll.thermal = false ∨ running b = false → exec .thermalLoop s = .next (after s b))) ∧
  (∀ x : Int, sat32 x = if x < -2147483648 then -2147483648 else if 2147483647 < x then 2147483647 else x) ∧
  (∀ (k e : Int) (sh : Nat), -140737488355328 ≤ k * e → k * e < 140737488355328 → loopTerm k e sh = sat32 (k * e / 2 ^ sh)) ∧
  (∀ q : Int, 0 ≤ q → q < 2 ^ 48 → isqrt16 q * isqrt16 q ≤ q * 65536 ∧ q * 65536 < (isqrt16 q + 1) * (isqrt16 q + 1)) ∧
  (∀ b : Block,
    let t := b.toll
    let g (a hi lo : Nat) : Int := (rfld b a hi lo : Nat)
    let clamp (x lo hi : Int) : Int := max lo (min hi x)
    let iceil := g 0x30040 15 0
    (let e := sat32 (t.x / 65536 - t.meas)
     let integ := if sensorLow b then t.integ else
       clamp (sat32 (t.integ + loopTerm (g 0x30010 31 16) e (rfld b 0x30018 12 8))) (sword (rget b 0x30020)) (sword (rget b 0x30024))
     let p := loopTerm (g 0x30010 15 0) e (rfld b 0x30018 4 0)
     let dterm := loopTerm (g 0x30014 15 0) (t.measPrev - t.meas) (rfld b 0x30018 20 16)
     let u1 := clamp (sat32 (p + integ + dterm)) 0 (sword (rget b 0x30028))
     let u := if sensorLow b then max 0 (min u1 t.safe) else u1
     (computeOutput b).toll = { t with integ := integ, measPrev := t.meas, uNext := some u } ∧
     rget (computeOutput b) 0x30030 = BitVec.ofInt 32 u ∧
     rbit (computeOutput b) 0x30004 3 = decide (integ = sword (rget b 0x30024)) ∧
     rbit (computeOutput b) 0x30004 4 = decide (integ = sword (rget b 0x30020))) ∧
    (let tgt := sat32 (min iceil t.thc * 65536)
     let d := sat32 (tgt - t.x)
     let rate := sword (rget b 0x30050)
     let acc := sword (rget b 0x30054)
     let jerk := sword (rget b 0x30058)
     let vw := d.sign * min rate (isqrt16 (prod48 (2 * acc) d.natAbs / 65536))
     let aw := clamp (sat32 (vw - t.v)) (-acc) acc
     let a := sat32 (t.a + clamp (sat32 (aw - t.a)) (-jerk) jerk)
     let v := clamp (sat32 (t.v + a)) (-rate) rate
     let xn := sat32 (t.x + v)
     ((d < 0 ∧ rbit b 0x30000 1 = true) ∨ (tgt - xn) * d ≤ 0 → profileStep b = { b with toll := { t with x := tgt, v := 0, a := 0 } }) ∧
     (¬ (d < 0 ∧ rbit b 0x30000 1 = true) → 0 < (tgt - xn) * d → profileStep b = { b with toll := { t with x := xn, v := v, a := a } })) ∧
    (thermalInput b = if rfld b 0x30060 17 16 = 0 then blockTemp b else if rfld b 0x30060 17 16 = 1 then hottestDie b
      else match blockTemp b, hottestDie b with
        | some x, some y => some (max x y)
        | some x, none => some x
        | none, y => y) ∧
    (thermalInput b = none → (thermalStep b).toll = t) ∧
    (∀ h, thermalInput b = some h →
      let eT := sbyte (rfld b 0x30060 7 0) - h
      let tacc := clamp (sat32 (t.tacc + loopTerm (g 0x30064 31 16) eT (rfld b 0x30068 12 8))) 0 (iceil * 65536)
      let thc := clamp (sat32 (tacc / 65536 + loopTerm (g 0x30064 15 0) eT (rfld b 0x30068 4 0))) 0 iceil
      (thermalStep b).toll = { t with tacc := tacc, thc := thc } ∧ (t.thc = iceil → thc < iceil → rbit (thermalStep b) 0x30008 3 = true)) ∧
    ((closeLoop b).toll = { t with
        integ := clamp (sword (rget b 0x30030)) (sword (rget b 0x30020)) (sword (rget b 0x30024))
        x := t.meas * 65536, measPrev := t.meas, v := 0, a := 0, tacc := iceil * 65536, thc := iceil, div := 0 } ∧
      tollLoop (closeLoop b) = 1 ∧ rfld (closeLoop b) 0x30004 23 16 = 0) ∧
    (currentEstimate b = g 0x30048 15 0 + ((64 * (t.charged.take (max 1 (rfld b 0x30048 23 16))).sum /
      (10 * 65536 * max 1 (rfld b 0x30048 23 16) * tollPeriod b * max 1 (rfld b 0x200 5 0)) : Nat) : Int)) ∧
    (∀ cause ∈ [1, 2], let c := openLoop b cause
      tollLoop c = 3 ∧ rfld c 0x30004 7 5 = cause ∧ rbit c 0x30000 0 = false ∧ rget c 0x30030 = rget b 0x3002C ∧
      c.toll = { t with uNext := some (max 0 (sword (rget b 0x3002C))) } ∧ rbit c 0x30008 cause = true) ∧
    (∀ miss, (16 ≤ miss → autoPeriod b miss = openLoop b 1) ∧ (1 ≤ miss → miss ≤ 3 → rbit b 0x30000 0 = true → autoPeriod b miss = b) ∧
      (miss = 0 ∨ (4 ≤ miss ∧ miss < 16) →
        let c := if miss = 0 then rputF b 0x30004 1 0 1 else
          let b1 := if tollLoop b = 2 then b else rset1 (rputF b 0x30004 1 0 2) 0x30008 0
          { b1 with toll := { b1.toll with meas := currentEstimate b1 } }
        let n := if ((rfld c 0x30044 15 0 : Nat) : Int) < c.toll.meas - c.toll.x / 65536 then min 255 (rfld c 0x30004 23 16 + 1) else 0
        let f := rputF c 0x30004 23 16 n
        let opens : Prop := 0 < n ∧ max 1 (rfld c 0x30044 23 16) ≤ n
        (opens → autoPeriod b miss = openLoop f 2) ∧
        (¬ opens → rbit f 0x30000 0 = false → autoPeriod b miss =
          let m := rputF f 0x30004 1 0 0
          { m with toll := { m.toll with uNext := some (manualOut m) } }) ∧
        (¬ opens → rbit f 0x30000 0 = true → autoPeriod b miss = afterChecks f))) ∧
    (let n := t.div + 1
     let div := max 1 (rfld b 0x30060 15 8)
     (div ≤ n → afterChecks b = { b with toll := { t with div := 0, thermal := true } }) ∧
     (n < div → afterChecks b = computeOutput (profileStep { b with toll := { t with div := n, thermal := false } }))) ∧
    (let c := tollTick b
     let u1 := t.uNext.getD t.u
     let u := if tripped b then 0 else if sensorLow b then max 0 (min u1 t.safe) else u1
     let ends : Prop := b.milepost.toNat % tollPeriod b = 0
     c.toll.u = u ∧ (c.toll.due = true ↔ ends ∧ running b = true) ∧ (ends → c.toll.ended = t.sample ∧ c.toll.sample = none) ∧
     (¬ ends → c.toll.ended = t.ended ∧ c.toll.sample = t.sample) ∧
     (∀ j < b.build.juncs, (junc c j).bucket =
       min ((junc b j).bucket + (u / b.build.juncs).toNat) (rfld b 0x30070 23 0 * 65536))))

/-- A pavilion's own registers (R95, R98, R102 to R104, R387, R443): a write that would change WORLD or SERVICE of a pavilion that
is not idle is ignored and sets BAD_WRITE, any other is taken and RESET starts its reset; PV_ADM_CTRL starts the admin queue where its
bases and sizes are good, and stops it; PV_ADM_RESUME lets a stopped one go on; a range register changes only while the pavilion is idle;
PV_CFG, PV_SRC_TGT and the range registers ignore a non-secure write. In a block that has not faulted, a reset ends once no
ring of the pavilion has a completion left that has room: its completion queues are gone, its waymarks zero, both enables and its
PM_PVRST bit clear, PVRST_DONE set, and every LIVE key slot stays. -/
def Obligations.PavilionRegisters : Prop :=
  ∀ (s : State) (p : Nat) (v : Word),
    let b := s.blk
    let cfg := pavReg p 0xD000
    let adm := pavReg p 0xC210
    let idle := !rbit b cfg 0 && pavEmpty b p
    (PortTakes s cfg → ∀ c ∈ [Instr.pvCfgWrite p v true, .pvReset p v true],
      (fld v 2 1 ≠ rfld b cfg 2 1 → idle = false → exec c s = .next (afterWrite s (fun b => rset1 b cfg 5))) ∧
      (fld v 2 1 = rfld b cfg 2 1 ∨ idle = true →
        (v.getLsbD 4 = false → exec c s = .next (afterWrite s (fun b => plainWrite b cfg 0xFFFFFFFF v))) ∧
        (v.getLsbD 4 = true → exec c s = .next (afterWrite s (fun b => pavResetStart p (plainWrite b cfg 0xFFFFFFFF v)))))) ∧
    (PortTakes s cfg → ∀ c ∈ [Instr.pvCfgWrite p v false, .pvReset p v false], exec c s = .next (afterIgnored s cfg)) ∧
    (∀ o ∈ [0xD010, 0xD014, 0xD018, 0xD01C, 0xD020], p < 16 → PortTakes s (pavReg p o) →
      let a := pavReg p o
      let m : BitVec 8 := if o % 8 = 0 then 0x0F else 0xF0
      (v = rget b a → exec (.registerWrite a m (v ++ v) true) s = .next (afterWrite s (fun b => b))) ∧
      (v ≠ rget b a → idle = true → exec (.registerWrite a m (v ++ v) true) s = .next (afterWrite s (fun b => rput b a v))) ∧
      (v ≠ rget b a → idle = false → exec (.registerWrite a m (v ++ v) true) s = .next (afterWrite s (fun b => rset1 b cfg 5))) ∧
      exec (.registerWrite a m (v ++ v) false) s = .next (afterIgnored s a)) ∧
    (PortTakes s adm → ∀ c ∈ [Instr.pvAdmEnable p v true, .pvAdmDisable p v true],
      let b1 (b : Block) : Block := if v.getLsbD 1 then rclr1 b adm 1 else b
      let b2 (b : Block) : Block := rputF (rputF (b1 b) adm 12 8 (fld v 12 8)) adm 20 16 (fld v 20 16)
      let good := baseOk (rget64 (b2 b) (pavReg p 0xC200)) && baseOk (rget64 (b2 b) (pavReg p 0xC208)) && kOk (fld v 12 8) &&
        kOk (fld v 20 16)
      (rbit b adm 0 = true → v.getLsbD 0 = true → exec c s = .next (afterWrite s b1)) ∧
      (rbit b adm 0 = true → v.getLsbD 0 = false → exec c s = .next (afterWrite s (fun b => admStop p (b1 b)))) ∧
      (rbit b adm 0 = false → v.getLsbD 0 = false → exec c s = .next (afterWrite s b2)) ∧
      (rbit b adm 0 = false → v.getLsbD 0 = true → good = true → exec c s =
        .next (afterWrite s (fun b => admStart p (fld v 12 8) (fld v 20 16) (b2 b)))) ∧
      (rbit b adm 0 = false → v.getLsbD 0 = true → good = false → exec c s =
        .next (afterWrite s (fun b => rset1 (b2 b) adm 1)))) ∧
    (PortTakes s (pavReg p 0xC214) →
      let q := sq b (4096 + p)
      (q.live = true → q.stopped = true → resumeOk q (fld v 15 0) = true → exec (.pvAdmResume p v true) s =
        .next (afterWrite s (fun b => resumeSq b (4096 + p) (fld v 15 0)))) ∧
      (q.live = false ∨ q.stopped = false ∨ resumeOk q (fld v 15 0) = false → exec (.pvAdmResume p v true) s =
        .next (afterWrite s (fun b => rset1 b adm 1)))) ∧
    (PortTakes s (pavReg p 0xD008) → exec (.pvSrcTgtWrite p v true) s =
      .next (afterWrite s (fun b => plainWrite b (pavReg p 0xD008) 0xFFFFFFFF v)) ∧
      exec (.pvSrcTgtWrite p v false) s = .next (afterIgnored s (pavReg p 0xD008))) ∧
    (b.inReset = false → p < 16 →
      let rings := (b.cqs.filter (fun x => x.2.live && decide (x.2.owner = p))).map (·.1)
      ((pav b p).resetting = true → faulted b = false → rings.all (ringDone b) = true → ∃ t, exec (.pvResetDone p) s = .next t ∧ t.nv = s.nv ∧
        (pav t.blk p).resetting = false ∧ rbit t.blk cfg 0 = false ∧ rbit t.blk adm 0 = false ∧ rbit t.blk 0x38038 p = false ∧
        rbit t.blk 0x38010 3 = true ∧ (∀ c ∈ rings, (cq t.blk c).live = false) ∧
        (∀ n j, n < b.build.lanes → j < 16 → waymark t.blk n (16 * p + j) = 0) ∧
        (∀ k, (keySlot b k).st = .live → keySlot t.blk k = keySlot b k)) ∧
      ((pav b p).resetting = false ∨ faulted b = true ∨ rings.all (ringDone b) = false → exec (.pvResetDone p) s = .next (after s b)))

/-- What the fabric brings (R20 to R26, R39): a beat in its turn joins its burst, and the last ends it; an acknowledge ends a write burst
whose flits have all been put, one for each beat; a response for a quarantined id is discarded, its last beat counted as late and the id
released; a burst whose time is up is counted, its id quarantined and the burst ended in error, and 128 such ids of one direction of a
port are a block fault; a credit is kept, up to 255 (the loss of those beyond is log entry 11, DESIGN CHOICE), and lets the port put what waits,
but for the master ports in PS3. That an id is released with its last late beat, that QUAR_MAX and the 128 count per direction of one port,
and that a timed-out write burst still puts its flits, is log entry 62 (DEDUCED). -/
def Obligations.FabricResponses : Prop :=
  (∀ (s : State) (port id i : Nat) (x : Burst) (data : Beat) (st : BitVec 3), s.blk.inReset = false →
    let b := s.blk
    let y := { x with got := x.got + 1, data := x.data ++ [data], bad := x.bad || decide (st ≠ stDone) }
    (findBurst b port false id = some (i, x) → y.got < y.beats →
      exec (.fabricReadReturn port id x.got data st) s = .next (after s { b with bursts := b.bursts.set i y })) ∧
    (findBurst b port false id = some (i, x) → y.beats ≤ y.got →
      exec (.fabricReadReturn port id x.got data st) s = .next (after s (burstOver i y { b with bursts := b.bursts.set i y }))) ∧
    (∀ k, findBurst b port false id = none → exec (.fabricReadReturn port id k data st) s = .next (after s (portGoesOn port (lateResponse b port false id)))) ∧
    (findBurst b port true id = some (i, x) → x.put < x.beats → exec (.fabricWriteAck port id st) s = .next (after s b)) ∧
    (findBurst b port true id = some (i, x) → x.beats ≤ x.put → x.timeout = false →
      exec (.fabricWriteAck port id st) s = .next (after s (burstOver i { x with bad := decide (st ≠ stDone) } b))) ∧
    (findBurst b port true id = some (i, x) → x.beats ≤ x.put → x.timeout = true →
      exec (.fabricWriteAck port id st) s = .next (after s (portGoesOn port (rinc { b with bursts := b.bursts.eraseIdx i } 0x108 23 16 1)))) ∧
    (findBurst b port true id = none → exec (.fabricWriteAck port id st) s = .next (after s (portGoesOn port (lateResponse b port true id)))) ∧
    (∀ write, findBurst b port write id = some (i, x) → x.timeout = false →
      let b1 := rinc (quarantine i x b) 0x108 15 8 1
      let b2 := burstOver i { x with bad := true, timeout := true, data := [] }
        (rmax b1 0x108 31 24 (min 255 (quarantined b1 port write)))
      (quarantined b2 port write < 128 → exec (.fabricResponseTimeout port write id) s = .next (after s b2)) ∧
      (128 ≤ quarantined b2 port write → exec (.fabricResponseTimeout port write id) s = .next (after s (blockFault 1 b2)))) ∧
    (∀ c, port < b.build.juncs → c = 0 ∨ c = 2 → powerState b ≠ 3 → exec (.fabricCredit (some port) c) s = .next (after s (portGoesOn port
      { b with credits := tset 0 b.credits (creditKey (some port) c) (min 255 (credit b (creditKey (some port) c) + 1)) }))) ∧
    (∀ c, powerState b = 3 → exec (.fabricCredit (some port) c) s = .next (after s b)) ∧
    (∀ c, c = 1 ∨ c = 3 → exec (.fabricCredit none c) s = .next (after s (putAnswers b.answers.length
      { b with credits := tset 0 b.credits (creditKey none c) (min 255 (credit b (creditKey none c) + 1)) })))) ∧
  (∀ (b : Block) (port id i : Nat) (write : Bool) (x : Burst) (q : Quar),
    ((write = true → x.beats ≤ x.put) → quarantine i { x with write := write } b = { b with quar := b.quar ++
      [⟨x.port, write, x.id.getD 0, x.ini, if write then 1 else x.beats - (b.bursts.getD i x).got⟩] }) ∧
    (write = true → x.put < x.beats → quarantine i { x with write := write } b =
      { b with bursts := b.bursts ++ [{ x with write := true, timeout := true, dropped := true }] }) ∧
    (b.quar.find? (fun y => decide (y.port = port ∧ y.write = write ∧ y.id = id)) = some q → 1 < q.beats →
      lateResponse b port write id = { b with quar := b.quar.map (fun y =>
        if y.port = port ∧ y.write = write ∧ y.id = id then { y with beats := y.beats - 1 } else y) }) ∧
    (b.quar.find? (fun y => decide (y.port = port ∧ y.write = write ∧ y.id = id)) = some q → q.beats ≤ 1 →
      lateResponse b port write id =
        rinc { b with quar := b.quar.filter (fun y => !decide (y.port = port ∧ y.write = write ∧ y.id = id)) } 0x108 23 16 1) ∧
    (b.quar.find? (fun y => decide (y.port = port ∧ y.write = write ∧ y.id = id)) = none → lateResponse b port write id = b))

/-- A burst takes an id that no outstanding or quarantined burst of its port and direction holds (R24, R26). -/
def Obligations.IdsAreNotReused : Prop :=
  ∀ (b : Block) (port n : Nat) (write : Bool), (pickId b port write).1 = some n →
    (∀ y ∈ b.bursts, y.port = port → y.write = write → y.id ≠ some n) ∧
    (∀ q ∈ b.quar, q.port = port → q.write = write → q.id ≠ n)

/-- Any access of the register slave port (R6, R14, R19, R25, R27, R44, R389, R390, R393, R462). One that Gatehouse admits, a secure one or one of a
non-secure page: a write reaches the part of the window that its address lies in, word by word, and is answered DONE, a read answers what the
word reads as, with its effect, an 8 B read both words, and SYS_MILEPOST from one instant; a size that does not fit its address is REFUSED.
One that Gatehouse denies, one of an absent lane or junction or of an unimplemented page, and one outside SYS and PM before lx_ready read
zero, change no register and are DONE; only the first is a violation. A port in reset or full takes nothing. The doorbells, PV_ERR reads, claims and
completes of a non-secure page are the same to either world. A word of no behaviour of its own is written by its access codes: an RW bit takes the value, a W1C
bit goes with a 1, an RC bit returns to its reset value with a read (log entry 7, DEDUCED), every other bit stays. -/
def Obligations.RegisterAccesses : Prop :=
  (∀ (s : State) (a : Nat) (bmask : BitVec 8) (v : Word64) (sec : Bool),
    let b := s.blk
    let done (t : State) : State := after t (answer t.blk ⟨false, 0, stDone, none⟩)
    let read (t : State) (w : Word64) : State := after t (answer t.blk ⟨true, w, stDone, none⟩)
    let zero (b : Block) : State := after s (answer b ⟨true, 0, stDone, none⟩)
    let kept (b : Block) : State := after s (answer b ⟨false, 0, stDone, none⟩)
    (PortTakes s a → sec = true ∨ pageSecure b a = false →
      (maskFits a bmask = true → exec (.registerWrite a bmask v sec) s = .next (done (registerWrite a bmask v sec s))) ∧
      (a % 4 = 0 → a < 0x28000 ∨ 0x30000 ≤ a → exec (.rcRegisterRead a false sec) s =
        .next (read (readWord a s).2 (laneOfWord a (readWord a s).1))) ∧
      (a % 8 = 0 → a < 0x28000 ∨ 0x30000 ≤ a → a ≠ 0x208 →
        let x := readWord a s
        let y := readWord (a + 4) x.2
        exec (.rcRegisterRead a true sec) s = .next (read y.2 (y.1 ++ x.1))) ∧
      (a = 0x208 → exec (.rcRegisterRead a true sec) s = .next (read s b.milepost))) ∧
    (PortTakes s a → maskFits a bmask = false → exec (.registerWrite a bmask v sec) s = .next (after s (answer b ⟨false, 0, stRefused, none⟩))) ∧
    (PortTakes s a → a % 8 ≠ 0 → exec (.rcRegisterRead a true sec) s = .next (after s (answer b ⟨true, 0, stRefused, none⟩))) ∧
    (PortTakes s a → pageSecure b a = true →
      let log (write : Bool) : Block := logViolation b ⟨write, false, 0, 63, false, a, tick32 b, 1⟩
      (maskFits a bmask = true → exec (.registerWrite a bmask v false) s = .next (kept (log true))) ∧
      exec (.rcRegisterRead a false false) s = .next (zero (log false)) ∧
      (a % 8 = 0 → exec (.rcRegisterRead a true false) s = .next (zero (log false)))) ∧
    (portOpen b = true → b.lxReady = true ∨ earlyPage a = true → pageImplemented a = false ∨ absent b a = true →
      (maskFits a bmask = true → exec (.registerWrite a bmask v sec) s = .next (kept b)) ∧
      exec (.rcRegisterRead a false sec) s = .next (zero b) ∧
      (a % 8 = 0 → exec (.rcRegisterRead a true sec) s = .next (zero b))) ∧
    (portOpen b = true → b.lxReady = false → earlyPage a = false →
      exec (.registerWrite a bmask v sec) s = .next (kept b) ∧ ∀ size8, exec (.rcRegisterRead a size8 sec) s = .next (zero b)) ∧
    (portOpen b = false → exec (.registerWrite a bmask v sec) s = .next (after s b) ∧
      ∀ size8, exec (.rcRegisterRead a size8 sec) s = .next (after s b)) ∧
    (pageSecure b a = false → ∀ (p t : Nat) (q : Option Nat) (w : Word) (count : Bool), portOpen b = true →
      (a = sqDbAddr p q → exec (.sqDoorbell p q w false) s = exec (.sqDoorbell p q w true) s) ∧
      (a = cqDbAddr p q → exec (.cqDoorbell p q w false) s = exec (.cqDoorbell p q w true) s) ∧
      (a = pvErrAddr p count → exec (.pvErrRead p count false) s = exec (.pvErrRead p count true) s) ∧
      (a = tgtReg t 0 → exec (.icClaim t false) s = exec (.icClaim t true) s) ∧
      (a = tgtReg t 4 → exec (.icComplete t w false) s = exec (.icComplete t w true) s)) ∧
    (a < 0x20000 ∨ 0x20018 ≤ a → bmask ≠ 0xFF ∨ (a ≠ 0x300 ∧ a ≠ 0x430) →
      let lo := v.extractLsb' 0 32
      let hi := v.extractLsb' 32 32
      let b1 := if bmask = 0xFF then writeWord (a + 4) hi sec (writeWord a lo sec b) else writeWord a (if a % 8 = 0 then lo else hi) sec b
      registerWrite a bmask v sec s = { s with blk := b1 })) ∧
  (∀ (b : Block) (a : Nat) (v : Word) (sec : Bool),
    let plain := plainWrite b a 0xFFFFFFFF v
    (a < 0x1000 → a ∉ [0x110, 0x118, 0x200, 0x300, 0x304, 0x430, 0x434, 0x828] → a < 0x400 ∨ (0x42C ≤ a ∧ a < 0x800) ∨ 0x840 ≤ a →
      writeWord a v sec b = plain) ∧
    ((0x400 ≤ a ∧ a < 0x42C) ∨ (0x800 ≤ a ∧ a < 0x840 ∧ a ≠ 0x828) ∨ (0x20018 ≤ a ∧ a < 0x28000 ∧ a ≠ 0x20050) ∨
        (0x38000 ≤ a ∧ a < 0x40000 ∧ a ∉ [0x38000, 0x38008, 0x38040, 0x38044, 0x38048]) ∨ (0x40000 ≤ a ∧ a < 0x50000) →
      writeWord a v sec b = if sec then plain else b) ∧
    (0x100000 ≤ a → a < 0x140000 → a % 0x1000 ∉ [0xA0, 0xA8, 0xE4, 0x300] → writeWord a v sec b = plain) ∧
    (0x100000 ≤ a → a < 0x140000 → a % 0x1000 ∈ [0xA0, 0x300] → writeWord a v sec b = if sec then plain else b) ∧
    (0x10000 ≤ a → a < 0x20000 → a ∉ [0x10100, 0x10314, 0x10400, 0x10414, 0x10500, 0x10600] → a < 0x10420 ∨ 0x10440 ≤ a →
      writeWord a v sec b = plain) ∧
    (0x30000 ≤ a → a < 0x38000 → writeWord a v sec b = if sec then tollWrite b a v else b) ∧
    ((0x1000 ≤ a ∧ a < 0x10000) ∨ (0x70000 ≤ a ∧ a < 0x80000) ∨ (0xC0000 ≤ a ∧ a < 0x100000) ∨ (0x140000 ≤ a ∧ a < 0x200000) →
      writeWord a v sec b = b) ∧
    (regDesc a = none → plain = b ∧ rcClear b a = b) ∧
    (∀ r, regDesc a = some r →
      (∀ i < 32, (rget plain a).getLsbD i =
        ((if r.rw.getLsbD i then v.getLsbD i else (rget b a).getLsbD i) && !(r.w1c.getLsbD i && v.getLsbD i))) ∧
      (∀ i < 32, (rget (rcClear b a) a).getLsbD i = if r.rc.getLsbD i then r.rst.getLsbD i else (rget b a).getLsbD i) ∧
      (∀ c, c ≠ a → rget plain c = rget b c ∧ rget (rcClear b a) c = rget b c))) ∧
  (∀ (s : State) (a : Nat), a < 0x1000 → a ∉ [0x0, 0x208, 0x20C, 0x818, 0x820] → readWord a s =
    (rget s.blk a, { s with blk := rcClear s.blk a }))

/-- The regions and the family window (R253, R282 to R284, R299, R465): a region is taken only as one secure 8 B write of a good
value, the staging region only while no lane holds a page or an open unit; a family word is taken while no started lane has a die of
its family in service, whatever the size of the write. A non-secure write is ignored, and where Gatehouse admits it, it leaves BAD or REFUSED. -/
def Obligations.RegionWrites : Prop :=
  ∀ (s : State) (v : Word64) (off : Nat) (m : BitVec 8) (size8 : Bool),
    let b := s.blk
    (PortTakes s 0x300 → regionBad v = false → stagingInUse b = false → exec (.sysStageWrite v true true) s =
      .next (afterWrite s (fun b => each (laneNums b) restage (regionTaken 0x300 v b)))) ∧
    (PortTakes s 0x300 → size8 = false ∨ regionBad v = true ∨ stagingInUse b = true → exec (.sysStageWrite v size8 true) s =
      .next (afterWrite s (fun b => rset1 b 0x304 31))) ∧
    (PortTakes s 0x430 → regionBad v = false → exec (.sysUrecWrite v true true) s =
      .next (afterWrite s (fun b => each (laneNums b) rerecord (regionTaken 0x430 v b)))) ∧
    (PortTakes s 0x430 → size8 = false ∨ regionBad v = true → exec (.sysUrecWrite v size8 true) s =
      .next (afterWrite s (fun b => rset1 b 0x434 31))) ∧
    (regionBad v = true ↔ bitsOf v.toNat 20 16 ≠ 0 ∨ 1 ≤ bitsOf v.toNat 15 0 ∧ bitsOf v.toNat 15 0 ≤ 63) ∧
    (PortTakes s (0x300000 + off) → maskFits (0x300000 + off) m = true → off < 0x4000 → familyInUse b (off / 0x400) = false →
      exec (.familyTableWrite off m v true) s = .next (afterWrite s (fun b => each (maskWords off m v) (fun b x =>
        { b with
          tbl := tset 0xFFFFFFFF b.tbl x.1 x.2.2
          tblBad := b.tblBad.filter (· != x.1 / 4)
          famDirty := if b.famDirty.contains (x.1 / 0x400) then b.famDirty else b.famDirty ++ [x.1 / 0x400] }) b))) ∧
    (PortTakes s (0x300000 + off) → maskFits (0x300000 + off) m = true → off < 0x4000 → familyInUse b (off / 0x400) = true →
      exec (.familyTableWrite off m v true) s = .next (afterWrite s (fun b => each (maskWords off m v) (fun b _ => rset1 b 0x8 8) b))) ∧
    (PortTakes s (0x300000 + off) → maskFits (0x300000 + off) m = false →
      exec (.familyTableWrite off m v true) s = .next (after s (answer b ⟨false, 0, stRefused, none⟩))) ∧
    ((slaveGate b 0x300 true false).1 = true → PortTakes s 0x300 → exec (.sysStageWrite v size8 false) s =
      .next (afterWrite s (fun b => rset1 b 0x304 31))) ∧
    ((slaveGate b 0x300 true false).1 = false → PortTakes s 0x300 → exec (.sysStageWrite v size8 false) s = .next (afterIgnored s 0x300)) ∧
    ((slaveGate b 0x430 true false).1 = true → PortTakes s 0x430 → exec (.sysUrecWrite v size8 false) s =
      .next (afterWrite s (fun b => rset1 b 0x434 31))) ∧
    ((slaveGate b 0x430 true false).1 = false → PortTakes s 0x430 → exec (.sysUrecWrite v size8 false) s = .next (afterIgnored s 0x430)) ∧
    ((slaveGate b (0x300000 + off) true false).1 = true → PortTakes s (0x300000 + off) → maskFits (0x300000 + off) m = true → off < 0x4000 →
      exec (.familyTableWrite off m v false) s = .next (afterWrite s (fun b => each (maskWords off m v) (fun b _ => rset1 b 0x8 8) b))) ∧
    ((slaveGate b (0x300000 + off) true false).1 = false → PortTakes s (0x300000 + off) → maskFits (0x300000 + off) m = true →
      exec (.familyTableWrite off m v false) s = .next (afterIgnored s (0x300000 + off)))

/-- The commands of a Causeway channel (R336, R339, R344, R346, R353, R354): LOAD of an idle or stopped channel hands its shadow set over
and starts it, in PS2 once the clocks go on, of a running one waits, and locks the shadow set; DISABLE drops its work and its clearing leaves it IDLE, to start where LOAD is set; a lane-bound
channel ignores both; a program word is taken while the channel does not run; CW_EVENT is cleared by ones and set through CW_EVENT_SET.
-/
def Obligations.ChannelCommands : Prop :=
  ∀ (s : State) (j g i : Nat) (v : Word) (w : Word64) (m : BitVec 8), g < 8 →
    let b := s.blk
    let a := chanReg j (16 + g) 4
    let p := juncReg j (0x2000 + 0x100 * g + 8 * i) + (if m = 0xF0 then 4 else 0)
    let was := (chan b j g).run
    let set (b : Block) : Block := if v.getLsbD 0 then rset1 (plainWrite b a 0xFFFFFFFF v) a 0 else plainWrite b a 0xFFFFFFFF v
    let idle (b : Block) : Block := updChan (set b) j g (fun c => { c with run := 0 })
    let starts (b : Block) : Block := if engineRuns b then pump j true (drainLanded 16 j g (handover b j g)) else
      updChan b j g (fun c => { c with loadWait := true })
    (∀ c ∈ [Instr.cwLoad j (16 + g) v true, .cwDisable j (16 + g) v true, .cwDisableClear j (16 + g) v true], PortTakes s a →
      (v.getLsbD 1 = true → was ≠ 5 → exec c s = .next (afterWrite s (fun b => disableChan (set b) j g))) ∧
      (v.getLsbD 1 = true → was = 5 → exec c s = .next (afterWrite s set)) ∧
      (v.getLsbD 1 = false → was = 5 → exec c s = .next (afterWrite s (fun b =>
        if rbit (idle b) a 0 then starts (idle b) else idle b))) ∧
      (v.getLsbD 1 = false → was = 0 ∨ was = 4 → v.getLsbD 0 = true → exec c s = .next (afterWrite s (fun b => starts (set b)))) ∧
      (v.getLsbD 1 = false → was = 0 ∨ was = 4 → v.getLsbD 0 = false → exec c s = .next (afterWrite s set)) ∧
      (v.getLsbD 1 = false → was = 1 ∨ was = 2 ∨ was = 3 → exec c s = .next (afterWrite s set))) ∧
    (∀ k < 16, ∀ c ∈ [Instr.cwLoad j k v true, .cwDisable j k v true, .cwDisableClear j k v true], PortTakes s (chanReg j k 4) →
      exec c s = .next (afterWrite s (fun b => plainWrite b (chanReg j k 4) 0xFFFFFFFF v))) ∧
    (PortTakes s p → maskFits p m = true → was = 0 ∨ was = 4 ∨ was = 5 → i < 32 → exec (.cwProgramWrite j g i m w true) s =
      .next (afterWrite s (fun b => each (maskWords p m w) (fun b x => replaceProg j g i (plainWrite b x.1 0xFFFFFFFF x.2.2)) b))) ∧
    (PortTakes s p → maskFits p m = true → was = 1 ∨ was = 2 ∨ was = 3 → exec (.cwProgramWrite j g i m w true) s =
      .next (afterWrite s (fun b => each (maskWords p m w) (fun b _ => rset1 b (chCtrl j g) 3) b))) ∧
    (PortTakes s (juncReg j 0x1004) → exec (.cwEventWrite j false v true) s =
      .next (afterWrite s (fun b => plainWrite b (juncReg j 0x1004) 0xFFFFFFFF v))) ∧
    (PortTakes s (juncReg j 0x1008) → exec (.cwEventWrite j true v true) s =
      .next (afterWrite s (fun b => rput b (juncReg j 0x1004) (rget b (juncReg j 0x1004) ||| (v &&& 0xFFFF))))) ∧
    (∀ f ∈ [0x10, 0x14, 0x18, 0x1C, 0x20], ∀ sec, j < 8 → rbit b a 0 = true →
      writeWord (chanReg j (16 + g) f) v sec b = rset1 b a 2)

/-- The interrupt router's commands (R31, R32, R378 to R387): a claim makes the lowest source PENDING for its target ACTIVE and
answers its number, 0 where there is none; a complete of a source that the target holds puts it at rest, presents it again or lets it
accumulate, by its level and the responses since the claim, and any other is BAD; a moderation timer makes an ACCUM source PENDING at
its time; IC_SRC_CFG is a secure register; the idle and sleep pins are taken. -/
def Obligations.InterruptCommands : Prop :=
  ∀ (s : State) (t k : Nat) (v : Word) (w : Word64) (m : BitVec 8) (idle sleep : Bool),
    let b := s.blk
    let n := fld v 9 0
    let x := src b n
    let up := srcLevel b n && srcEnabled b n
    let at_ := srcCfg k + (if m = 0xF0 then 4 else 0)
    (PortTakes s (tgtReg t 0) → pendingFor b b.srcs t = [] → exec (.icClaim t true) s =
      .next (after s (answer b ⟨true, 0, stDone, none⟩))) ∧
    (PortTakes s (tgtReg t 0) → ∀ n rest, pendingFor b b.srcs t = n :: rest → exec (.icClaim t true) s = .next (after s (answer
      (let c := { b with srcs := tset Src.init b.srcs n ({ src b n with st := .active, owner := t, since := 0 }) }
       if rest = [] then { c with wake := c.wake &&& ~~~(BitVec.ofNat 32 (2 ^ t)) } else c)
      ⟨true, laneOfWord (tgtReg t 0) (BitVec.ofNat 32 n), stDone, none⟩))) ∧
    (PortTakes s (tgtReg t 4) → x.st = .active → x.owner = t →
      let put (y : Src) : Host.Outcome State Fault Refusal := .next (afterWrite s (fun b => { b with srcs := tset Src.init b.srcs n y }))
      let again : Prop := srcMcount b n ≤ x.since ∨ srcMcount b n = 1 ∨ targetIdle b (srcTarget b n) = true
      (up = false → exec (.icComplete t v true) s = put { x with level := false, st := .idle, count := 0, since := 0 }) ∧
      (up = true → again → exec (.icComplete t v true) s = put { x with level := true, st := .pending, count := x.since, since := 0 }) ∧
      (up = true → ¬ again → exec (.icComplete t v true) s = put
        { x with level := true, st := .accum, count := x.since, limit := srcMcount b n, due := now b + srcMtime b n, since := 0 })) ∧
    (PortTakes s (tgtReg t 4) → (x.st ≠ .active ∨ x.owner ≠ t) → exec (.icComplete t v true) s =
        .next (afterWrite s (fun b => rset1 b (tgtReg t 8) 4))) ∧
    (b.inReset = false → (src b k).st = .accum → (src b k).due ≤ now b → exec (.moderationTimeout k) s =
      .next (after s { b with srcs := tset Src.init b.srcs k ({ src b k with st := .pending }) })) ∧
    ((src b k).st ≠ .accum ∨ now b < (src b k).due → exec (.moderationTimeout k) s = .next (after s b)) ∧
    (PortTakes s at_ → maskFits at_ m = true → exec (.icSrcCfgWrite k m w true) s =
      .next (afterWrite s (fun b => each (maskWords at_ m w) (fun b x => plainWrite b x.1 0xFFFFFFFF x.2.2) b)) ∧
      exec (.icSrcCfgWrite k m w false) s = .next (afterIgnored s at_)) ∧
    (exec (.idleSleepChange t idle sleep) s = .next (after s { b with
      idleIn := setPin b.idleIn t idle, sleepIn := setPin b.sleepIn t sleep
      wake := if sleep then b.wake else setPin b.wake t false }))

/-- The instructions of a Causeway program (R340 to R347): MOVE issues what it can, one burst at a time (log entry 106, DEDUCED), behind the
MOVEs of higher priority, and ends at count zero, LOOP goes back N − 1
times (log entry 31, DEDUCED), WAIT holds until its flag and its drain and then clears its flag, SIGNAL sets what it names, END drains,
and the drained channel starts again or is IDLE with DONE. A malformed instruction is a program error, and so is a MOVE past the
address space or a LOOP that does not go back or crosses another. A lane's channel ends a job when every burst of it has returned: the
work that the job was for goes on, the next job starts, and what waited for a frame goes on (R336, R337, R264). -/
def Obligations.ChannelInstructions : Prop :=
  (∀ (s : State) (j g : Nat),
    let b := s.blk
    let x := chan b j g
    let w := progWord b j g x.pc
    let n := bitsOf w 23 16
    let t := bitsOf w 4 0
    let ev := bitsOf w 3 0
    let error (k : Nat) : Host.Outcome State Fault Refusal := .next (after s (chanError b j g k x.pc))
    engineRuns b = true →
    (x.run = 1 → cwOp w = 1 → tripped b = false →
      (moveOk w = true → x.src < 2 ^ 48 → x.dst < 2 ^ 48 →
        let b1 := if x.moving then b else updChan b j g (fun y =>
          { y with moving := true, ser := y.ser + 1, count := if w.testBit 57 then y.defCount else bitsOf w 23 0 })
        let b2 := moveIssue 16 j g w (loopPass b1 j g) (movesGoOn j (rfld b1 (chanReg j (16 + g) 0) 1 0 + 1) b1)
        exec (.cwMove j (16 + g)) s = .next (after s (if (chan b2 j g).count = 0 then nextPc b2 j g else b2))) ∧
      (moveOk w = false → exec (.cwMove j (16 + g)) s = error 1) ∧
      (moveOk w = true → 2 ^ 48 ≤ x.src ∨ 2 ^ 48 ≤ x.dst → exec (.cwMove j (16 + g)) s = error 4)) ∧
    (x.run = 1 → cwOp w = 2 →
      (bitsOf w 59 24 ≠ 0 ∨ bitsOf w 15 5 ≠ 0 ∨ n < 2 → exec (.cwLoop j (16 + g)) s = error 1) ∧
      (bitsOf w 59 24 = 0 → bitsOf w 15 5 = 0 → 2 ≤ n →
        (x.pc ≤ t ∨ x.left ≠ 0 ∧ x.loopAt ≠ x.pc → exec (.cwLoop j (16 + g)) s = error 2) ∧
        (t < x.pc → x.left = 0 → exec (.cwLoop j (16 + g)) s =
          .next (after s (enterPc (updChan b j g (fun y => { y with left := n - 1, loopAt := x.pc })) j g t))) ∧
        (t < x.pc → x.left = 1 → x.loopAt = x.pc → exec (.cwLoop j (16 + g)) s =
          .next (after s (nextPc (updChan b j g (fun y => { y with left := 0 })) j g))) ∧
        (t < x.pc → 2 ≤ x.left → x.loopAt = x.pc → exec (.cwLoop j (16 + g)) s =
          .next (after s (enterPc (updChan b j g (fun y => { y with left := y.left - 1 })) j g t))))) ∧
    (x.run = 1 ∨ x.run = 2 → cwOp w = 3 →
      let good : Prop := bitsOf w 59 16 = 0 ∧ bitsOf w 14 9 = 0 ∧ bitsOf w 7 4 = 0 ∧ (w.testBit 15 = true ∨ w.testBit 8 = true)
      let met : Prop := (w.testBit 15 = true → chanDrained b j g = true) ∧
        (w.testBit 8 = true → rbit b (juncReg j 0x1004) ev = true ∧ earlierWaiter b j g ev = false)
      (¬ good → exec (.cwWait j (16 + g)) s = error 1) ∧
      (good → met → exec (.cwWait j (16 + g)) s =
        .next (after s (nextPc (if w.testBit 8 then rclr1 b (juncReg j 0x1004) ev else b) j g))) ∧
      (good → ¬ met → exec (.cwWait j (16 + g)) s = .next (after s (updChan b j g (fun y => { y with run := 2 }))))) ∧
    (x.run = 1 → cwOp w = 4 →
      let good : Prop := bitsOf w 59 10 = 0 ∧ bitsOf w 7 4 = 0 ∧ (w.testBit 9 = true ∨ w.testBit 8 = true)
      let b1 := if w.testBit 9 then rset1 b (juncReg j 0x100C) g else b
      let b2 := if w.testBit 8 then rset1 b1 (juncReg j 0x1004) ev else b1
      (¬ good → exec (.cwSignal j (16 + g)) s = error 1) ∧
      (good → exec (.cwSignal j (16 + g)) s = .next (after s (nextPc b2 j g)))) ∧
    (x.run = 1 → cwOp w = 0 →
      (w = 0 → exec (.cwEnd j (16 + g)) s = .next (after s (updChan b j g (fun y => { y with run := 3 })))) ∧
      (w ≠ 0 → exec (.cwEnd j (16 + g)) s = error 1)) ∧
    (x.run = 3 → chanDrained b j g = true → rbit b (chCtrl j g) 0 = false → exec (.cwDrainComplete j (16 + g)) s =
      .next (after s (rset1 (updChan b j g (fun y => { y with run := 0 })) (chStatus j g) 16))) ∧
    (x.run = 3 → chanDrained b j g = true → rbit b (chCtrl j g) 0 = true → exec (.cwDrainComplete j (16 + g)) s =
      .next (after s (handover b j g)))) ∧
  (∀ (s : State) (j c : Nat) (x : Job) (rest : List Job), c < 16 → engineRuns s.blk = true → x.started = true → x.left = 0 →
    let n := 8 * j + c / 2
    let ended (inbound : Bool) (b : Block) : State :=
      after s (framesFreed n (startJob (jobEnded n x (noteDone j c inbound rest.isEmpty x b)) n inbound))
    (c % 2 = 0 → (lane s.blk n).inJobs = x :: rest → exec (.cwJobFinish j c) s =
      .next (ended true (updLane s.blk n (fun l => { l with inJobs := rest })))) ∧
    (c % 2 = 1 → (lane s.blk n).outJobs = x :: rest → exec (.cwJobFinish j c) s =
      .next (ended false (updLane s.blk n (fun l => { l with outJobs := rest })))))

/-- The state table of an interrupt source (R378, R379) at every level, count and idle target: what each state becomes when the
router senses it. -/
def Obligations.SourcesFollowTheirTable : Prop :=
  ∀ (b : Block) (n : Nat) (x : Src),
    let up := srcLevel b n && srcEnabled b n
    let idle := targetIdle b (srcTarget b n)
    let y := senseSrc b n x
    y.level = up ∧
    (x.st = .idle → up = false → y.st = .idle) ∧
    (x.st = .idle → up = true → srcMcount b n = 1 ∨ idle = true → y.st = .pending ∧ y.count = 1) ∧
    (x.st = .idle → up = true → srcMcount b n ≠ 1 → idle = false →
      y.st = .accum ∧ y.count = 1 ∧ y.limit = srcMcount b n ∧ y.due = now b + srcMtime b n) ∧
    (x.st = .accum → up = false → y.st = .idle ∧ y.count = 0) ∧
    (x.st = .accum → up = true → idle = true ∨ x.limit ≤ x.count → y.st = .pending) ∧
    (x.st = .accum → up = true → idle = false → x.count < x.limit → y = { x with level := true }) ∧
    (x.st = .pending → up = false → y.st = .idle ∧ y.count = 0) ∧
    (x.st = .pending → up = true → y.st = .pending) ∧
    (x.st = .active → y.st = .active ∧ y.owner = x.owner)

/-- Gatehouse's commands (R393, R399 to R408): POP drops the oldest violation; ZEROISE acts only behind an ARM, and either clears
it; a write of GH_WK_DATA7 loads the selected wrap key and CLEAR zeroises it; the DRBG is restarted, fails, is instantiated, and its
data is a free value (log entry 3, DESIGN CHOICE) or 0 with EMPTY_READ; START of an attestation sends its report as two bursts of four
beats, fails where the DRBG is not ready (log entry 54, DEDUCED), and is an overrun while one is running. FAILED clears as the DRBG is
instantiated after a RESTART (log entry 55, DEDUCED). -/
def Obligations.GatehouseCommands : Prop :=
  ∀ (s : State) (v : Word),
    let b := s.blk
    (PortTakes s 0x10314 → exec (.vlogPop v true) s =
      .next (afterWrite s (fun b => if v.getLsbD 0 then { b with vlog := b.vlog.drop 1 } else b))) ∧
    (PortTakes s 0x10400 → ∀ c ∈ [Instr.keyArm v true, .keyZeroise v true],
      (v.getLsbD 1 = false → exec c s = .next (afterWrite s (fun b => rputB b 0x10400 0 (v.getLsbD 0)))) ∧
      (v.getLsbD 1 = true → rbit b 0x10400 0 = true → exec c s = .next (afterWrite s (fun b => zeroiseAll (rclr1 b 0x10400 0)))) ∧
      (v.getLsbD 1 = true → rbit b 0x10400 0 = false → exec c s = .next (afterWrite s (fun b => rclr1 b 0x10400 0)))) ∧
    (PortTakes s 0x1043C → exec (.wrapKeyLoad v true) s = .next (afterWrite s (fun b =>
      let c := rput b 0x1043C v
      let key := (List.range 8).foldl (fun acc i => acc + (rget c (0x10420 + 4 * i)).toNat * 2 ^ (32 * i)) 0
      rset1 { c with wk := tput c.wk (wkSelected c) (BitVec.ofNat 256 key) } 0x10414 (8 + wkSelected c)))) ∧
    (PortTakes s 0x10414 → exec (.wrapKeyClear v true) s = .next (afterWrite s (fun b =>
      let c := rputF b 0x10414 1 0 (fld v 1 0)
      if v.getLsbD 2 then rclr1 { c with wk := terase c.wk (wkSelected c) } 0x10414 (8 + wkSelected c) else c))) ∧
    (PortTakes s 0x10500 → ∀ c ∈ [Instr.rngReseed v true, .rngRestart v true], exec c s = .next (afterWrite s (fun b =>
      let d := if v.getLsbD 0 then { b with gens := 0 } else b
      if v.getLsbD 1 then rset1 (rclr1 d 0x10504 0) 0x10500 1 else d))) ∧
    (b.inReset = false → exec .rngHealthFail s = .next (after s (rclr1 (rset1 b 0x10504 1) 0x10500 1))) ∧
    (b.inReset = false → rbit b 0x10504 0 = false → rbit b 0x10504 1 = false ∨ rbit b 0x10500 1 = true → exec .drbgInstantiated s =
      .next (after s (rset1 (rclr1 (rclr1 { b with gens := 0 } 0x10504 1) 0x10500 1) 0x10504 0))) ∧
    (rbit b 0x10504 0 = true ∨ rbit b 0x10504 1 = true ∧ rbit b 0x10500 1 = false → exec .drbgInstantiated s = .next (after s b)) ∧
    (PortTakes s 0x10508 → rngReady b = true → exec (.rngDataRead true) s = .next (after s (answer
      { b with free := b.free + 1, gens := if b.gens + 1 = 4096 then 0 else b.gens + 1 }
      ⟨true, laneOfWord 0x10508 (Config.freeVal 32 b.free), stDone, none⟩))) ∧
    (PortTakes s 0x10508 → rngReady b = false → exec (.rngDataRead true) s =
      .next (after s (answer (rset1 b 0x10504 2) ⟨true, 0, stDone, none⟩))) ∧
    (PortTakes s 0x10600 →
      let w (b : Block) : Block := plainWrite b 0x10600 0xFFFFFFFF v
      (v.getLsbD 0 = false → exec (.attStart v true) s = .next (afterWrite s w)) ∧
      (v.getLsbD 0 = true → (w b).att.isSome = true → exec (.attStart v true) s = .next (afterWrite s (fun b => rset1 (w b) 0x10600 3))) ∧
      (v.getLsbD 0 = true → (w b).att = none → rngReady (w b) = false → exec (.attStart v true) s =
        .next (afterWrite s (fun b => rputF (w b) 0x10600 5 4 3))) ∧
      (v.getLsbD 0 = true → (w b).att = none → rngReady (w b) = true →
        let r := attReport (w b)
        let at_ := (rget64 (w b) 0x10608).toNat % 2 ^ 48 / 512 * 512
        let send (b : Block) (i : Nat) : Block := (issue b (mkWrite 0 40 3 (.att i) (at_ + 256 * i)
          (toBeats ((r.1.drop (256 * i)).take 256)) (List.replicate 4 (maskFirst 64)) true)).2
        exec (.attStart v true) s = .next (afterWrite s (fun _ => send (send (rset1 { r.2 with att := some ⟨2, false⟩ } 0x10600 1) 0) 1))))

/-- The CFLASH command sequence (R415 to R417, R422): its steps in order, each from the step before it, and the break of it by
anything else, an unlisted code too (log entry 34, DEDUCED), by a step while a command runs, and by its time-out; CF_ADDR keeps what is
written to it (log entry 57, DEDUCED). The last step starts the
command, or refuses it with the first cause of R417 that holds (stated in CflashCommands); a command starts from a secure write of its
last word. An 8 B write at CF_KEY is a write of CF_KEY and one of CF_CMD. -/
def Obligations.CflashSequences : Prop :=
  (∀ (s : State) (v : Word64) (a : Word) (off : Nat) (m : BitVec 8) (c : Instr),
    let b := s.blk
    let write (off : Nat) (wide : Bool) (v : Word64) : Block → Block := cfWrite s.nv off wide v true
    (PortTakes s (0x20000 + off) → maskFits (0x20000 + off) m = true → m ≠ 0xFF → off ∈ [0, 4, 8] →
      exec (.cfSequenceStep off m v true) s = .next (afterWrite s (write off false ((wordOf off v).setWidth 64)))) ∧
    (PortTakes s 0x20000 → exec (.cfSequenceStep 0 0xFF v true) s = .next (afterWrite s (fun b =>
      write 4 false ((v.extractLsb' 32 32).setWidth 64) (write 0 false ((v.extractLsb' 0 32).setWidth 64) b)))) ∧
    (PortTakes s 0x20008 → exec (.cfSequenceStep 8 0xFF v true) s =
      .next (afterWrite s (write 8 false ((v.extractLsb' 0 32).setWidth 64)))) ∧
    (PortTakes s (0x20000 + off) → maskFits (0x20000 + off) m = true → off = 0x10 ∨ off = 0x14 →
      exec (.cfSequenceStep off m v true) s = .next (afterWrite s (write 0x10 (decide (m = 0xFF)) v))) ∧
    (b.inReset = false → b.cf.step ≠ 0 → exec .cfSequenceTimeout s = .next (after s (cfBreak b))) ∧
    (b.cf.step = 0 → exec .cfSequenceTimeout s = .next (after s b)) ∧
    (PortTakes s 0x20010 → c ∈ [.wordProg v true, .rowProg v true, .protProg v true, .protLock v true, .protUnlock v true] →
      exec c s = .next (afterWrite s (write 0x10 true v))) ∧
    (PortTakes s 0x20008 → c ∈ [.sectorErase a true, .protErase a true] →
      exec c s = .next (afterWrite s (write 8 false (a.setWidth 64))))) ∧
  (∀ (b : Block) (nv : NonVol) (off : Nat) (wide : Bool) (v : Word64),
    let w := v.toNat % 2 ^ 32
    let k := b.cf.step
    let c := if off = 8 then rput b 0x20008 (BitVec.ofNat 32 (v.toNat % 2 ^ 22)) else b
    let to_ (n : Nat) : Block := { c with cf := { c.cf with step := n } }
    let two : Prop := b.cf.cmd = 2 ∨ b.cf.cmd = 5
    let good : Prop := (k = 0 ∧ off = 0 ∧ w = 0x5AA5) ∨ (k = 1 ∧ off = 0 ∧ w = 0xA55A) ∨
      (k = 2 ∧ off = 4 ∧ 1 ≤ w % 16 ∧ w % 16 ≤ 7) ∨ (k = 3 ∧ off = 8) ∨ (k = 4 ∧ off = 0x10 ∧ wide = true)
    (b.cf.busy = true ∨ ¬ good → cfWrite nv off wide v true b = cfBreak c) ∧
    (b.cf.busy = false → k = 0 → off = 0 → w = 0x5AA5 → cfWrite nv off wide v true b = to_ 1) ∧
    (b.cf.busy = false → k = 1 → off = 0 → w = 0xA55A → cfWrite nv off wide v true b = to_ 2) ∧
    (b.cf.busy = false → k = 2 → off = 4 → 1 ≤ w % 16 → w % 16 ≤ 7 →
      cfWrite nv off wide v true b = { c with cf := { c.cf with step := 3, cmd := w % 16 } }) ∧
    (b.cf.busy = false → k = 3 → off = 8 →
      (¬ two → cfWrite nv off wide v true b = to_ 4) ∧ (two → cfWrite nv off wide v true b = cfStart nv (w % 2 ^ 22) 0 c)) ∧
    (b.cf.busy = false → k = 4 → off = 0x10 → wide = true →
      cfWrite nv off wide v true b = cfStart nv (rfld c 0x20008 21 0) v c) ∧
    cfWrite nv off wide v false b = b)

/-- What starts at the last step of a sequence (R417, R422): a command that nothing refuses makes CFLASH busy, PROT_UNLOCK opening
the protection at once (log entry 57, DEDUCED); a refused one latches the first cause that holds, in the order 2, 6, 11, 3, 8, 5, 4, 10, 9, and
changes nothing of CFLASH, a mismatch of PROT_UNLOCK counting in TRIES. A WORD_PROG of all ones is refused or not by a free value (log entry 33, DESIGN CHOICE). The end of a CFLASH command (R416 to R418): where its check
passes its word, its erased sector with its new seal, or its protection row stands and CF_EVT.DONE is set; where it fails what it
touched is free (log entry 35, DESIGN CHOICE) and CF_ERR latches it; a WORD_PROG of all ones programs nothing and ends DONE; a secure write of CF_PROT_STATUS.OPEN closes; a window read with no operation running answers the
window's word, an erased word as all ones with nothing counted, and waits while one runs. -/
def Obligations.CflashCommands : Prop :=
  (∀ (b : Block) (nv : NonVol) (a : Nat) (v : Word64),
    let ones : Prop := b.cf.cmd = 1 ∧ v = erasedWord
    let g := { b with cf := { b.cf with step := 0, addr := a, data := v }, free := if b.cf.cmd = 1 ∧ v = erasedWord then b.free + 1 else b.free }
    let k := if b.cf.cmd = 1 ∧ v = erasedWord ∧ Config.freeVal 1 b.free = 1 then 2 else cfRefusal nv g b.cf.cmd a v
    (k = 0 → b.cf.cmd ≠ 7 → cfStart nv a v b = { g with cf := { g.cf with busy := true } }) ∧
    (k = 0 → b.cf.cmd = 7 → cfStart nv a v b = rset1 { g with cf := { g.cf with busy := true } } 0x20050 1) ∧
    (k ≠ 0 → k ≠ 9 → cfStart nv a v b = cfFail g k a) ∧
    (k = 9 → cfStart nv a v b = cfFail (countTry g) 9 a) ∧ (ones → k = 9 → False)) ∧
  (∀ (b : Block) (nv : NonVol) (c a : Nat) (v : Word64),
    let operand : Bool :=
      if c = 1 then decide (a % 8 ≠ 0) else if c = 2 then decide (a % 4096 ≠ 0)
      else if c = 3 then decide (a % 8 ≠ 0 ∨ 0x800 ≤ a ∨ v = erasedWord) else if c = 4 then decide (a % 8 ≠ 0 ∨ 128 ≤ a)
      else if c = 6 then decide (a ≠ 0 ∨ v = erasedWord ∨ v = 0) else decide (a ≠ 0)
    let full : Bool :=
      if c = 1 then decide (arrWord nv (a / 8) ≠ erasedWord) else if c = 3 then decide (tget 0 nv.row (a / 8) ≠ 0)
      else if c = 4 then decide (protWord nv (a / 8) ≠ erasedWord)
      else decide (c = 6 ∧ (protWord nv 16 ≠ erasedWord ∨ protWord nv 17 ≠ erasedWord))
    cfRefusal nv b c a v = (([(operand, 2), (rbit b 0x38024 2, 6), (decide (4 ≤ c ∧ c ≤ 6) && protLocked nv && !rbit b 0x20050 1, 11),
      (decide (c = 1 ∨ c = 2) && sectorProtected nv b (a / 4096), 3), (decide (c = 3) && !rowPermitted nv b a v, 8),
      (decide (c = 1) && !sealed nv (a / 4096), 5), (full, 4), (decide (c = 7) && rbit b 0x20050 6, 10),
      (decide (c = 7 ∧ protWord nv 16 ≠ v), 9)].find? (fun x => x.1)).map (fun x => x.2)).getD 0) ∧
  (∀ (s : State) (v : Word) (off corr : Nat) (ok unc size8 : Bool),
    let b := s.blk
    let c := b.cf
    (c.busy = true → b.inReset = false → ok = true ∨ c.cmd = 7 ∨ (c.cmd = 1 ∧ c.data = erasedWord) → exec (.cfCommandEnd ok) s =
      .next (after { s with nv := cfDone s.nv c.cmd c.addr c.data }
        (serveWaiting (cfDone s.nv c.cmd c.addr c.data) (rset1 { b with cf := { c with busy := false } } 0x20020 0)))) ∧
    (c.busy = true → b.inReset = false → c.cmd ≠ 7 → ¬ (c.cmd = 1 ∧ c.data = erasedWord) →
      ∃ nv b', cfBroken s.nv c.cmd c.addr { b with cf := { c with busy := false } } = (nv, b') ∧
        exec (.cfCommandEnd false) s = .next (after { s with nv := nv } (serveWaiting nv (cfFail b' 7 c.addr)))) ∧
    (c.busy = false → exec (.cfCommandEnd ok) s = .next (after s b)) ∧
    (PortTakes s 0x20050 → exec (.cfProtClose v true) s =
      .next (afterWrite s (fun b => if v.getLsbD 1 then rclr1 b 0x20050 1 else b)) ∧
      exec (.cfProtClose v false) s = .next (afterIgnored s 0x20050)) ∧
    (rbit b 0x20028 8 = false → arrWord s.nv (rfld b 0x20028 6 0 * 4096 + off / 8) = erasedWord →
      windowRead s.nv ⟨off, size8, corr, unc⟩ b =
        (if size8 then erasedWord else laneOfWord off 0xFFFFFFFF, noteRead b (rfld b 0x20028 6 0 * 8 + off / 4096) 0 false)) ∧
    (PortTakes s (0x28000 + off) → arrayBusy b = false → size8 = false ∨ off % 8 = 0 →
      exec (.cfWindowRead off size8 true corr unc) s = .next (after s (answer (windowRead s.nv ⟨off, size8, corr, unc⟩ b).2
        ⟨true, (windowRead s.nv ⟨off, size8, corr, unc⟩ b).1, stDone, none⟩))) ∧
    (PortTakes s (0x28000 + off) → arrayBusy b = true → size8 = false ∨ off % 8 = 0 →
      exec (.cfWindowRead off size8 true corr unc) s =
        .next (after s (answer b ⟨true, 0, stDone, some ⟨off, size8, corr, unc⟩⟩))))

/-- CFLASH keeps its canonical form through every command: no word that reads as an erased or a blank one is listed, and each part
is sorted by its word number. -/
def Obligations.CflashStaysCanonical : Prop :=
  ∀ (c : Instr) (s t : State), s.nv.wf = true → exec c s = .next t → t.nv.wf = true

/-- CFLASH changes only where a command of it ends, or where a reset abandons one that runs (R416, R420): no other command touches a
word, a seal, the identity row or the protection row of it. -/
def Obligations.OnlyCflashCommandsChangeCflash : Prop :=
  ∀ (c : Instr) (s t : State), exec c s = .next t → t.nv ≠ s.nv →
    s.blk.cf.busy = true ∧ ((∃ ok, c = .cfCommandEnd ok) ∨ ∃ ns, c = .powerOnReset ns ∨ c = .blockReset ns ∨ c = .brownOutReset ns)

/-- The state after reset (R18, R19, R41, R444, R464): out of reset with lx_ready low, SYS_MILEPOST 0, the power state PS0, every
key slot EMPTY, no queue, no outstanding burst and no waiting command; CFLASH has its canonical form; the loop's output is the reset
value of TG_OUT. That CFLASH is blank and the build the 64-lane one are the model's choices (log entries 1 and 4). -/
def Obligations.StateAfterReset : Prop :=
  let b := State.reset.blk
  b.inReset = false ∧ b.lxReady = false ∧ b.milepost = 0 ∧ powerState b = 0 ∧ warned b = false ∧ tripped b = false ∧ faulted b = false ∧
    b.sqs = [] ∧ b.cqs = [] ∧ b.bursts = [] ∧ b.answers = [] ∧ (∀ k, (keySlot b k).st = .empty) ∧
    (∀ n, (lane b n).loadPend = true ∧ (lane b n).seq = none) ∧ State.reset.pending = [] ∧ State.reset.nv.wf = true ∧
    rget b 0x200 = resetWord 0x200 ∧ b.toll.u = 0x1F40000

/-- The memories' protection (R451 to R453, R457 to R461). A scrubber reads the word it has come to, MEM 1 to 3 of its lane or 4 to 8 of the block in
increasing order: a good one changes nothing, a corrected one counts (in CORR too: log entry 60, DEDUCED), an uncorrectable one in live
state takes the scope action of its memory, and one without live state is zeroed and counted as idle; a lap ends with the last memory, its
length kept, LAP_LATE above LAP_WARN. A halted block takes no scope action. Whose word it is, where a memory ends, and what a planted
word shows are the model's choices (log entry 9). GO plants the word that MP_TEST_SEL names only behind an ARM, and clears it; a non-secure
write is ignored. -/
def Obligations.MemoryProtection : Prop :=
  (∀ (s : State) (who : Option Nat) (lapEnd : Bool) (f : Finding) (mem index synd : Nat),
    let b := s.blk
    let n := who.getD 0
    let k := who.getD 64
    let p := scrubPos b k
    let c := scrubOn k mem index lapEnd b
    let y := scrubFinding mem n index synd f c
    (b.inReset = false → b.ticking = true → n < b.build.lanes → 1 ≤ mem → mem ≤ 8 → who.isSome = laneMem mem →
      ((mem = p.mem ∧ index = p.index) ∨ (mem = p.mem + 1 ∧ index = 0 ∧ p.index ≠ 0) →
        exec (.scrubWord who f mem index synd lapEnd) s = .next (after s (match y.1 with
          | .good => c
          | .correctable true => noteCorrected (unplant mem n index c)
          | .correctable false => rinc (noteCorrected (unplant mem n index c)) 0x80C 23 16 1
          | .uncorrectable => uncorrectable mem n index y.2 true (spoilWord mem n index c)))) ∧
      (¬ ((mem = p.mem ∧ index = p.index) ∨ (mem = p.mem + 1 ∧ index = 0 ∧ p.index ≠ 0)) →
        exec (.scrubWord who f mem index synd lapEnd) s = .next (after s b))) ∧
    (b.ticking = false → exec (.scrubWord who f mem index synd lapEnd) s = .next (after s b)) ∧
    (mem ≠ 3 → b.planted.find? (fun x => decide (x.mem = mem ∧ x.lane = n ∧ x.index = index)) = none → y = (f, synd)) ∧
    (lapEnd = false ∨ mem ≠ scrubLast k → c = { b with scrub := tput b.scrub k { p with mem := mem, index := index + 1 } }) ∧
    (lapEnd = true → mem = scrubLast k →
      let d := { b with
        lapLen := tset 0 b.lapLen k (min (now b - p.start) 0xFFFFFFFF)
        scrub := tput b.scrub k ⟨if k = 64 then 4 else 1, 0, now b⟩ }
      c = if rfld b 0x808 31 16 < now b - p.start then rset1 d 0x800 2 else d)) ∧
  (∀ (b : Block) (n i y : Nat) (scrub : Bool),
    let o (mem : Nat) : Nat := Config.memWordOwner mem n i
    let hit (mem : Nat) : Block := latchMemErr mem n i y scrub (rset1 (rinc (if mem = 8 then b else unplant mem n i b) 0x80C 31 28 1) 0x800 0)
    let idle (mem : Nat) : Block := latchMemErr mem n i y scrub (rinc (zeroWord mem n i (unplant mem n i b)) 0x80C 27 24 1)
    let act (mem : Nat) (a : Block → Block) : Prop := uncorrectable mem n i y scrub b = if faulted b then hit mem else a (hit mem)
    (o 1 ≠ 1 → o 1 ≠ 2 → act 1 (haltLane n 4)) ∧
    (o 1 = 1 → poolCount b n = 0 → uncorrectable 1 n i y scrub b = idle 1) ∧
    (o 1 = 1 → 256 ≤ poolCount b n → act 1 (haltLane n 4)) ∧
    (o 1 = 2 → (lane b n).holding = [] → uncorrectable 1 n i y scrub b = idle 1) ∧
    (o 1 = 2 → 64 ≤ (lane b n).holding.length → act 1 (haltLane n 4)) ∧
    act 2 (haltLane n 4) ∧
    (i < (lane b n).words → act 3 (fun c => rset1 c (laneReg n 0x304) 3)) ∧
    ((lane b n).words ≤ i → uncorrectable 3 n i y scrub b = idle 3) ∧
    (∀ p, contextPav b (o 4) = some p → act 4 (pavResetStart p)) ∧
    (contextPav b (o 4) = none → uncorrectable 4 n i y scrub b = idle 4) ∧
    (o 5 = 0 ∨ (keySlot b (o 5)).st ≠ .empty → act 5 (fun c => loseSlot c (o 5))) ∧
    (o 5 ≠ 0 → (keySlot b (o 5)).st = .empty → uncorrectable 5 n i y scrub b = idle 5) ∧
    act 6 (blockFault 2) ∧ act 7 (blockFault 2) ∧
    (let j := o 8 / 256 % 8
     let g := o 8 / 32 % 8
     ((chan b j g).run ∉ [0, 4, 5] → act 8 (fun c => chanError c j g 1 (chan b j g).pc)) ∧
     ((chan b j g).run ∈ [0, 4, 5] → uncorrectable 8 n i y scrub b = idle 8))) ∧
  (∀ (s : State) (v : Word) (sec : Bool),
    let b := s.blk
    PortTakes s 0x828 → ∀ c ∈ [Instr.mpTestArm v sec, .mpTestGo v sec],
      (sec = true → v.getLsbD 1 = false → exec c s = .next (afterWrite s (fun b => rputB b 0x828 0 (v.getLsbD 0)))) ∧
      (sec = true → v.getLsbD 1 = true → rbit b 0x828 0 = true →
        exec c s = .next (afterWrite s (fun b => plantWord (rclr1 b 0x828 0)))) ∧
      (sec = true → v.getLsbD 1 = true → rbit b 0x828 0 = false → exec c s = .next (afterWrite s (fun b => b))) ∧
      (sec = false → exec c s = .next (afterIgnored s 0x828)))

/-- The control stores (R330, R331, R405): a load checks its slot once for every lane that waits for it; an accepted image becomes
the lane's control store, any other leaves LOAD_ERR; a reload leaves the load that LN_SEQ_CFG.RELOAD asks for still asked for, and one whose check fails halts its lane with a machine check of cause 1, whose
failing microword is not stated (log entry 3, DESIGN CHOICE). -/
def Obligations.ControlStoresLoad : Prop :=
  ∀ (s : State) (n r : Nat) (errs : List ReadErr) (b' : Block), canLoad s.blk = true → n < s.blk.build.lanes →
    let b := s.blk
    let i := imageOf b n
    let a := laneReg n 0x304
    ((lane b n).loadPend = true → imageCheck s.nv errs i b = (r, b') → exec (.controlStoreLoad n errs) s = .next (after s
      (each ((laneNums b).filter (fun m => (lane b m).loadPend && decide (imageOf b m = i))) (laneLoad s.nv i r) b'))) ∧
    ((lane b n).loadPend = false → exec (.controlStoreLoad n errs) s = .next (after s b)) ∧
    (rbit b a 3 = true → laneHalted b n = false → (lane b n).seq = none → (lane b n).loadPend = false →
      imageCheck s.nv errs (lane b n).slot b = (r, b') →
      let c := rputB (laneLoad s.nv (lane b n).slot r (rinc b' (laneReg n 0x310) 31 24 1) n) (laneReg n 0x300) 2 (rbit b' (laneReg n 0x300) 2)
      exec (.controlStoreReload n errs) s = .next (after s (if r = 1 then rclr1 c a 3
        else machineHalt n 1 (Config.freeVal 13 c.free).toNat { c with free := c.free + 1 }))) ∧
    (∀ b, (lane (laneLoad s.nv i 1 b n) n).words = (container s.nv i).words ∧ (lane (laneLoad s.nv i 1 b n) n).loadPend = false ∧
      (lane (laneLoad s.nv i 1 b n) n).cs = imageCode s.nv i (container s.nv i).words ∧
      (r ≠ 1 → (lane (laneLoad s.nv i r b n) n).loadPend = false ∧ (lane (laneLoad s.nv i r b n) n).cs = (lane b n).cs ∧
        (r = 2 ∨ r = 3 ∨ r = 4 ∨ r = 5 ∨ r = 6 → rfld (laneLoad s.nv i r b n) a 11 8 = (if r = 2 then 1 else if r = 6 then 3 else 2))))

/-- A lane's start (R229, R245, R321), which waits for a good reference clock (R438; log entry 107, DEDUCED) and for CFLASH where a family
table has to be loaded again, and reads the family tables (R455; log entry 9, DESIGN CHOICE): the first configuration failure of R229 stops it with CFG_ERR, a missing entry kind with
LOAD_ERR 4, and a good configuration starts it at its rate, or its families' least where it names none, its two
channels empty (R338) and its dies reset and coming into service as they answer, by the entries of log entry 96 (DEDUCED). A lane reset of a lane that has not halted discards its work; it, or that of a halted lane, makes the lane start again
(R436). -/
def Obligations.LanesStart : Prop :=
  ∀ (s : State) (n : Nat) (dies : List DieAnswer) (errs : List ReadErr) (v : Word),
    let b := s.blk
    let m := { b with maps := (List.range 64).foldl (fun t d => tset 0 t (64 * n + d) (rget b (laneReg n (0x400 + 4 * d)))) b.maps }
    let c := readPlanted (fun x => decide (x.mem = 6)) (reloadSets s.nv errs n m)
    let reloads : Prop := ∃ f ∈ laneFamilies m n, f ∈ m.famDirty
    (laneRuns b n = true → n < b.build.lanes → clockBad b n = false → (lane b n).loadPend = false → laneHold b n = false →
      laneStarted b n = false → startFailed b n = false → arrayBusy m = false ∨ ¬ reloads → faulted c = false →
      (cfgErr c n ≠ 0 → exec (.laneStart n dies errs) s = .next (after s (rputF c (laneReg n 0x204) 27 24 (cfgErr c n)))) ∧
      (cfgErr c n = 0 → (∃ k ∈ kindsNeeded c n, entryWord c n k = none) →
        exec (.laneStart n dies errs) s = .next (after s (rputF c (laneReg n 0x304) 11 8 4))) ∧
      (cfgErr c n = 0 → (∀ k ∈ kindsNeeded c n, entryWord c n k ≠ none) →
        let cfg := rget c (laneReg n 0x200)
        let rates := (laneFamilies c n).map (fun f => fam16 c f 0x62)
        let rate := if fld cfg 20 8 = 0 then rates.foldl min (rates.headD 10) else fld cfg 20 8
        let d := emptyChannels (rset1 (rputF (rputF c (laneReg n 0x204) 3 0 (fld cfg 3 0)) (laneReg n 0x204) 20 8 rate) (laneReg n 0x204) 4) n
        exec (.laneStart n dies errs) s = .next (after s ((validDies d n).foldl (startDie n dies)
          (updLane (fixLane n d) n (fun l => { l with budget := frameBudget d, sca := cfg.getLsbD 4, steps := resetSteps d n })))))) ∧
    (laneRuns b n = true → n < b.build.lanes → clockBad b n = false → (lane b n).loadPend = false → laneHold b n = false →
      laneStarted b n = false → startFailed b n = false →
      (arrayBusy m = true → reloads → exec (.laneStart n dies errs) s = .next (after s b)) ∧
      (arrayBusy m = false ∨ ¬ reloads → faulted c = true → exec (.laneStart n dies errs) s = .next (after s c))) ∧
    (clockBad b n = rbit b 0x120 (6 + n / 8)) ∧
    ((∀ x ∈ b.planted, x.mem ≠ 6) → m.planted = b.planted ∧ readPlanted (fun x => decide (x.mem = 6)) b = b) ∧
    (laneRuns b n = false ∨ b.build.lanes ≤ n ∨ clockBad b n = true ∨ (lane b n).loadPend = true ∨ laneHold b n = true ∨ laneStarted b n = true ∨ startFailed b n = true →
      exec (.laneStart n dies errs) s = .next (after s b)) ∧
    (PortTakes s (laneReg n 0xA8) → v.getLsbD 0 = true → faulted b = false → n < b.build.lanes → powerState b ≠ 2 →
      exec (.laneReset n v true) s = .next (afterWrite s (fun b =>
        let d := if laneHalted b n then b else discardLanes [n] 1 2 n b
        resetLane (rbit d (laneReg n 0x300) 2) n d)))

/-- A codeword that the lane's encoder makes of any 4,128 bytes satisfies every row check of the code (R471), whatever the number of
parity blocks. -/
def Obligations.EncodedCodewordsAreValid : Prop :=
  ∀ (info : List Byte) (m : Nat), info.length = 4128 → ldpcValid (ldpcEncode info (4128 + 32 * m)) = true

/-- The randomiser (R265): bit k of byte i of a codeword is stored as that bit XOR the output of step 8i + k of the 23-bit register
that starts at the seed of R266, and derandomising applies the same sequence. -/
def Obligations.RandomiserSequence : Prop :=
  let step (r : Nat) : Nat := ((r <<< 1) ||| (((r >>> 22) ^^^ (r >>> 17)) &&& 1)) &&& 0x7FFFFF
  (∀ (pa : Nat) (l : List Byte),
    (randomise pa l).length = l.length ∧ randomise pa (randomise pa l) = l ∧
    ∀ i k, i < l.length → k < 8 → ((randomise pa l).getD i 0).getLsbD k =
      ((l.getD i 0).getLsbD k ^^ ((step^[8 * i + k]) (lfsrSeed pa)).testBit 22)) ∧
  (∀ pa, let r := paPage pa ||| (paSlot pa <<< 14) ||| (((paUnit pa ^^^ paDie pa) &&& 0x3F) <<< 17)
    lfsrSeed pa = if r = 0 then 0x7FFFFF else r)
end

