-- ==== Sys2Proof/Laws/Tab.lean ====
section
/-! SUPPORT. The laws of sparse tables: a read after a write, and the canonical form that every write keeps. -/

namespace Sys2Proof.Laws

open Sys2Proof Sys2Proof.Machine

/-- No pair of a table has key i. -/
def NoKey {α : Type} (t : Tab α) (i : Nat) : Prop := ∀ p ∈ t, p.1 ≠ i

theorem tget_of_noKey {α : Type} (d : α) (t : Tab α) (i : Nat) (h : NoKey t i) : tget d t i = d := by
  induction t with
  | nil => rfl
  | cons p r ih =>
    have hp : p.1 ≠ i := h p (by simp)
    simp only [tget, hp, if_false]
    exact ih (fun q hq => h q (by simp [hq]))

theorem terase_noKey {α : Type} (t : Tab α) (i : Nat) : NoKey (terase t i) i := by
  intro p hp
  simp only [terase, List.mem_filter, bne_iff_ne, ne_eq] at hp
  exact hp.2

theorem tget_terase_same {α : Type} (d : α) (t : Tab α) (i : Nat) : tget d (terase t i) i = d :=
  tget_of_noKey d _ i (terase_noKey t i)

theorem tget_terase_other {α : Type} (d : α) (t : Tab α) (i j : Nat) (h : j ≠ i) :
    tget d (terase t i) j = tget d t j := by
  induction t with
  | nil => rfl
  | cons p r ih =>
    unfold terase at ih ⊢
    by_cases hp : p.1 = i
    · have hj : ¬ p.1 = j := fun e => h (e ▸ hp)
      simp only [List.filter, hp, bne_self_eq_false, tget]
      simp only [hp ▸ hj, if_false]
      exact ih
    · have : (p.1 != i) = true := by simpa using hp
      simp only [List.filter, this, tget]
      split
      · rfl
      · exact ih

theorem tget_tins_same {α : Type} (d : α) (i : Nat) (x : α) (t : Tab α) (h : NoKey t i) :
    tget d (tins i x t) i = x := by
  induction t with
  | nil => simp [tins, tget]
  | cons p r ih =>
    have hp : p.1 ≠ i := h p (by simp)
    unfold tins
    split
    · simp [tget]
    · simp only [tget, hp, if_false]
      exact ih (fun q hq => h q (by simp [hq]))

theorem tget_tins_other {α : Type} (d : α) (i j : Nat) (x : α) (t : Tab α) (h : j ≠ i) :
    tget d (tins i x t) j = tget d t j := by
  have hi : ¬ i = j := fun e => h e.symm
  induction t with
  | nil => simp [tins, tget, hi]
  | cons p r ih =>
    unfold tins
    split
    · simp [tget, hi]
    · simp only [tget]
      split
      · rfl
      · exact ih

@[simp] theorem tget_tput_same {α : Type} (d : α) (t : Tab α) (i : Nat) (x : α) : tget d (tput t i x) i = x :=
  tget_tins_same d i x _ (terase_noKey t i)

theorem tget_tput_other {α : Type} (d : α) (t : Tab α) (i j : Nat) (x : α) (h : j ≠ i) :
    tget d (tput t i x) j = tget d t j := by
  unfold tput
  rw [tget_tins_other d i j x _ h, tget_terase_other d t i j h]

/-- A read of the key just written gives the value written. -/
@[simp] theorem tget_tset_same {α : Type} [DecidableEq α] (d : α) (t : Tab α) (i : Nat) (x : α) :
    tget d (tset d t i x) i = x := by
  unfold tset
  split
  · next h => rw [tget_terase_same, h]
  · exact tget_tput_same d t i x

/-- A write leaves every other key alone, whatever the keys read as where they are not listed. -/
theorem tget_tset_other {α : Type} [DecidableEq α] (d d' : α) (t : Tab α) (i j : Nat) (x : α) (h : j ≠ i) :
    tget d (tset d' t i x) j = tget d t j := by
  unfold tset
  split
  · exact tget_terase_other d t i j h
  · exact tget_tput_other d t i j x h

@[simp] theorem tget_tupd_same {α : Type} (d : α) (t : Tab α) (i : Nat) (f : α → α) :
    tget d (tupd d t i f) i = f (tget d t i) := tget_tput_same d t i _

theorem tget_tupd_other {α : Type} (d : α) (t : Tab α) (i j : Nat) (f : α → α) (h : j ≠ i) :
    tget d (tupd d t i f) j = tget d t j := tget_tput_other d t i j _ h

/-- Rising keys, as a relation between neighbours. -/
theorem tsorted_iff {α : Type} (t : Tab α) : tsorted t = true ↔ t.IsChain (fun p q => p.1 < q.1) := by
  induction t with
  | nil => simp [tsorted]
  | cons p r ih =>
    cases r with
    | nil => simp [tsorted]
    | cons q s => simp [tsorted, ih]

theorem tsorted_iff_pairwise {α : Type} (t : Tab α) : tsorted t = true ↔ t.Pairwise (fun p q => p.1 < q.1) := by
  rw [tsorted_iff]
  have : IsTrans (Nat × α) (fun p q => p.1 < q.1) := ⟨fun _ _ _ h k => Nat.lt_trans h k⟩
  exact List.isChain_iff_pairwise

theorem terase_sorted {α : Type} (t : Tab α) (i : Nat) (h : tsorted t = true) : tsorted (terase t i) = true := by
  rw [tsorted_iff_pairwise] at h ⊢
  exact h.filter _

theorem mem_tins {α : Type} (i : Nat) (x : α) (t : Tab α) (p : Nat × α) : p ∈ tins i x t ↔ p = (i, x) ∨ p ∈ t := by
  induction t with
  | nil => simp [tins]
  | cons q r ih =>
    unfold tins
    split
    · simp
    · simp only [List.mem_cons, ih]
      tauto

theorem tins_sorted {α : Type} (i : Nat) (x : α) (t : Tab α) (h : tsorted t = true) (hn : NoKey t i) :
    tsorted (tins i x t) = true := by
  rw [tsorted_iff_pairwise] at h ⊢
  induction t with
  | nil => simp [tins]
  | cons p r ih =>
    obtain ⟨h1, h2⟩ := List.pairwise_cons.mp h
    have hp : p.1 ≠ i := hn p (by simp)
    unfold tins
    split
    · next hlt =>
      refine List.pairwise_cons.mpr ⟨?_, h⟩
      intro q hq
      rcases List.mem_cons.mp hq with rfl | hq
      · exact hlt
      · exact Nat.lt_trans hlt (h1 q hq)
    · next hlt =>
      refine List.pairwise_cons.mpr ⟨?_, ih h2 (fun q hq => hn q (by simp [hq]))⟩
      intro q hq
      rcases (mem_tins i x r q).mp hq with rfl | hq
      · exact lt_of_le_of_ne (not_lt.mp hlt) hp
      · exact h1 q hq

/-- The canonical form, as two facts. -/
theorem twf_iff {α : Type} [DecidableEq α] (d : Nat → α) (t : Tab α) :
    twf d t = true ↔ tsorted t = true ∧ ∀ p ∈ t, p.2 ≠ d p.1 := by
  simp [twf]

theorem terase_wf {α : Type} [DecidableEq α] (d : Nat → α) (t : Tab α) (i : Nat) (h : twf d t = true) :
    twf d (terase t i) = true := by
  rw [twf_iff] at h ⊢
  refine ⟨terase_sorted t i h.1, fun p hp => h.2 p ?_⟩
  exact (List.mem_filter.mp hp).1

/-- A write keeps the canonical form: the value an unlisted key reads as is not listed. -/
theorem tset_wf {α : Type} [DecidableEq α] (d : α) (t : Tab α) (i : Nat) (x : α)
    (h : twf (fun _ => d) t = true) : twf (fun _ => d) (tset d t i x) = true := by
  unfold tset
  split
  · exact terase_wf _ t i h
  · next hx =>
    have he := terase_wf _ t i h
    rw [twf_iff] at he ⊢
    refine ⟨tins_sorted i x _ he.1 (terase_noKey t i), fun p hp => ?_⟩
    rcases (mem_tins i x _ p).mp hp with rfl | hp
    · exact hx
    · exact he.2 p hp

/-- A table without some of its pairs keeps the canonical form. -/
theorem filter_wf {α : Type} [DecidableEq α] (d : Nat → α) (t : Tab α) (k : Nat × α → Bool) (h : twf d t = true) :
    twf d (t.filter k) = true := by
  rw [twf_iff] at h ⊢
  refine ⟨?_, fun p hp => h.2 p (List.mem_filter.mp hp).1⟩
  have := h.1
  rw [tsorted_iff_pairwise] at this ⊢
  exact this.filter _

end Sys2Proof.Laws
end

