-- ==== Sys2Proof/Laws/Cflash.lean ====
section
/-! SUPPORT. Each operation that writes CFLASH keeps its canonical form: the end of a command, a command whose check fails, and one
that a reset abandons. -/

namespace Sys2Proof.Laws

open Sys2Proof Sys2Proof.Machine

/-- The canonical form, part by part. -/
theorem nv_wf_iff (nv : NonVol) : nv.wf = true ↔ twf (fun _ => erasedWord) nv.arr = true ∧ twf (fun _ => erasedWord) nv.seals = true ∧
    twf (fun _ => (0 : Word64)) nv.row = true ∧ twf (fun _ => erasedWord) nv.prot = true := by
  simp [NonVol.wf, and_assoc]

/-- Free words are written in canonical form. -/
theorem freeWords_wf (d : Word64) : ∀ (n k : Nat) (t : Tab Word64) (b : Block), twf (fun _ => d) t = true →
    twf (fun _ => d) (freeWords d n k t b).1 = true
  | 0, _, _, _, h => h
  | n + 1, k, t, _, h => freeWords_wf d n (k + 1) _ _ (tset_wf d t k _ h)

/-- The end of a command whose check passes (R416, R417). -/
theorem cfDone_wf (nv : NonVol) (c a : Nat) (v : Word64) (h : nv.wf = true) : (cfDone nv c a v).wf = true := by
  rw [nv_wf_iff] at h
  obtain ⟨h1, h2, h3, h4⟩ := h
  unfold cfDone
  repeat' split
  all_goals rw [nv_wf_iff]
  · exact ⟨tset_wf _ _ _ _ h1, h2, h3, h4⟩
  · exact ⟨filter_wf _ _ _ h1, tset_wf _ _ _ _ h2, h3, h4⟩
  · exact ⟨h1, h2, tset_wf _ _ _ _ h3, h4⟩
  · exact ⟨h1, h2, h3, tset_wf _ _ _ _ h4⟩
  · exact ⟨h1, h2, h3, rfl⟩
  · exact ⟨h1, h2, h3, tset_wf erasedWord _ 17 1 (tset_wf erasedWord _ 16 v h4)⟩
  · exact ⟨h1, h2, h3, h4⟩

/-- A command whose check fails leaves free words, in canonical form (R416). -/
theorem cfBroken_wf (nv : NonVol) (c a : Nat) (b : Block) (h : nv.wf = true) : (cfBroken nv c a b).1.wf = true := by
  rw [nv_wf_iff] at h
  obtain ⟨h1, h2, h3, h4⟩ := h
  unfold cfBroken
  split
  · exact (nv_wf_iff _).mpr ⟨freeWords_wf _ _ _ _ _ h1, h2, h3, h4⟩
  split
  · have k := freeWords_wf erasedWord 512 (a / 8) nv.arr b h1
    generalize freeWords erasedWord 512 (a / 8) nv.arr b = z at k ⊢
    exact (nv_wf_iff _).mpr ⟨k, tset_wf _ _ _ _ h2, h3, h4⟩
  split
  · exact (nv_wf_iff _).mpr ⟨h1, h2, freeWords_wf _ _ _ _ _ h3, h4⟩
  split
  · exact (nv_wf_iff _).mpr ⟨h1, h2, h3, freeWords_wf _ _ _ _ _ h4⟩
  · exact (nv_wf_iff _).mpr ⟨h1, h2, h3, h4⟩

/-- A reset that abandons a command leaves the canonical form (R420). -/
theorem cfAbandon_wf (s : State) (h : s.nv.wf = true) : (cfAbandon s).nv.wf = true := by
  have k := cfBroken_wf s.nv s.blk.cf.cmd s.blk.cf.addr s.blk h
  unfold cfAbandon
  split
  · exact h
  · dsimp only
    split
    · rw [nv_wf_iff] at k ⊢; exact k
    · exact k

/-- CFLASH after reset has the canonical form. -/
theorem reset_nv_wf : State.reset.nv.wf = true := rfl

end Sys2Proof.Laws
end

