-- ==== Sys2Proof/Laws/Codec.lean ====
section
/-! SUPPORT. Lengths and values of byte lists: numbers as bytes and back, and the length of an encoded codeword (R471). -/

namespace Sys2Proof.Laws

open Sys2Proof Sys2Proof.Machine

@[simp] theorem leBytes_length : ∀ n x : Nat, (leBytes n x).length = n
  | 0, _ => rfl
  | n + 1, x => by simp [leBytes, leBytes_length n]

/-- The bytes of a number, read back, are the number's low bytes. -/
theorem leNat_leBytes : ∀ n x : Nat, leNat (leBytes n x) = x % 256 ^ n
  | 0, x => by simp [leBytes, leNat, Nat.mod_one]
  | n + 1, x => by
    have h := leNat_leBytes n (x / 256)
    simp only [leBytes, leNat, h, BitVec.toNat_ofNat]
    rw [show 256 ^ (n + 1) = 256 * 256 ^ n from by rw [Nat.pow_succ, Nat.mul_comm], Nat.mod_mul]

theorem ldpcParity_length (cw : List Byte) (m : Nat) : ∀ (k i : Nat) (p : BitVec 256), (ldpcParity cw m k i p).length = k
  | 0, _, _ => rfl
  | k + 1, i, p => by simp [ldpcParity, ldpcParity_length cw m k]

/-- An encoded codeword has its information bytes and 32 bytes for each row. -/
theorem ldpcEncode_length (info : List Byte) (len : Nat) : (ldpcEncode info len).length = info.length + 32 * ldpcRows len := by
  simp only [ldpcEncode, List.length_append, List.length_flatMap, leBytes_length, List.map_const', ldpcParity_length,
    List.sum_replicate, smul_eq_mul]
  rw [Nat.mul_comm]

end Sys2Proof.Laws
end

