-- ==== Sys2Proof/WellFormed.lean ====
section
/-! DEFINITION. Which commands are well formed: every number that names a part of the block lies in the range the spec
gives that part in the largest build (R3, R4, R462), and data comes in the sizes the spec gives it. -/

namespace Sys2Proof

/-- A lane number (R3). -/
def laneOk (n : Nat) : Bool := decide (n < 64)

/-- A die number of a lane (R123). -/
def dieOk (d : Nat) : Bool := decide (d < 64)

/-- A pavilion number (R4). -/
def pavOk (p : Nat) : Bool := decide (p < 16)

/-- A junction number, which is also a fabric master port (R3, R29). -/
def juncOk (j : Nat) : Bool := decide (j < 8)

/-- A channel of a Causeway engine: 0 to 15 lane-bound, 16 to 23 general (R332). -/
def chanOk (c : Nat) : Bool := decide (c < 24)

/-- The windows a training offers: at most the 129 settings of a scan (R246). -/
def windowsOk (l : List (Nat × Nat)) : Bool := decide (l.length ≤ 32)

/-- The errors of reads name sectors of CFLASH and words in them (R410). -/
def errsOk (l : List ReadErr) : Bool := l.all (fun x => decide (x.sector < 1024) && x.bad.all (fun k => decide (k < 512)))
/-- The read errors of a reset, of the identity row too. -/
def resetErrsOk (l : List ReadErr) : Bool := l.all (fun x => decide (x.sector ≤ 1024) && x.bad.all (fun k => decide (k < 512)))

/-- Well-formed commands. -/
def Instr.wf : Instr → Bool
  | .powerOnReset _ => true
  | .blockReset _ => true
  | .brownOutReset _ => true
  | .controlStoreLoad n errs => laneOk n && errsOk errs
  | .lxReady => true
  | .laneStart n dies errs => laneOk n && dies.all (fun x => dieOk x.die && windowsOk x.windows) && errsOk errs
  | .dieTrain n d w => laneOk n && dieOk d && windowsOk w
  | .tick _ _ _ _ => true
  | .laneSlipEvent n => laneOk n
  | .frameBuild n => laneOk n
  | .suspendEarliestReached n d => laneOk n && dieOk d
  | .suspendHoldExpiry n d => laneOk n && dieOk d
  | .ps1Entry n => laneOk n
  | .epochAdvance => true
  | .epochWrite _ _ => true
  | .boardTempWrite _ _ => true
  | .boardTempStale => true
  | .tickCtrlWrite _ _ => true
  | .milepostLoRead _ => true
  | .telemetrySample _ => true
  | .tollgatePeriod => true
  | .thermalLoop => true
  | .thermalTrip x => decide (x < 4)
  | .thermalRestart => true
  | .supplyWarning _ => true
  | .supplyWarningEnd _ _ => true
  | .refclkFail j => juncOk j
  | .idleSleepChange t _ _ => decide (t < 32)
  | .fabricReadReturn port id q _ _ => juncOk port && decide (id < 256) && decide (q < 4)
  | .fabricWriteAck port id _ => juncOk port && decide (id < 256)
  | .fabricResponseTimeout port _ id => juncOk port && decide (id < 256)
  | .registerWrite a _ _ _ => decide (a < 0x400000) && decide (a % 4 = 0)
  | .sqDoorbell p q _ _ => pavOk p && decide (q.getD 0 < 4096)
  | .cqDoorbell p q _ _ => pavOk p && decide (q.getD 0 < 2048)
  | .pavilionFetch => true
  | .entryCheck p => pavOk p
  | .chainTimeout p q => pavOk p && decide (q.getD 0 < 4096)
  | .pvErrRead p _ _ => pavOk p
  | .poolEntry n => laneOk n
  | .completionAccept c s => decide (c < 2064) && decide (s ≤ 64)
  | .sqCreate p => pavOk p
  | .sqDelete p => pavOk p
  | .cqCreate p => pavOk p
  | .cqDelete p => pavOk p
  | .sqResume p => pavOk p
  | .vectorBind p => pavOk p
  | .keyCreate p => pavOk p
  | .keyLoad p => pavOk p
  | .keyExport p => pavOk p
  | .keyDestroy p => pavOk p
  | .stripeOpen p => pavOk p
  | .stripeAdd p => pavOk p
  | .stripeClose p => pavOk p
  | .stripeCloseTaken n s => laneOk n && decide (s < 256)
  | .identify p => pavOk p
  | .abort p => pavOk p
  | .abortRequest n => laneOk n
  | .read n _ i => laneOk n && decide (i < 16)
  | .prog n _ i => laneOk n && decide (i < 16)
  | .append n _ i => laneOk n && decide (i < 16)
  | .erase n _ i => laneOk n && decide (i < 16)
  | .eraseVerify n _ i => laneOk n && decide (i < 16)
  | .relocate n _ i => laneOk n && decide (i < 16)
  | .sample n _ i => laneOk n && decide (i < 16)
  | .fence n _ i => laneOk n && decide (i < 16)
  | .wait n _ i => laneOk n && decide (i < 16)
  | .waitTimeout n _ i => laneOk n && decide (i < 16)
  | .signal n _ i => laneOk n && decide (i < 16)
  | .featureGet n _ i => laneOk n && decide (i < 16)
  | .featureSet n _ i => laneOk n && decide (i < 16)
  | .dieStatus n _ i => laneOk n && decide (i < 16)
  | .train n _ i => laneOk n && decide (i < 16)
  | .raw n _ i => laneOk n && decide (i < 16)
  | .nop n _ i => laneOk n && decide (i < 16)
  | .waymarkWrite n _ _ => laneOk n
  | .microRoutineStart n => laneOk n
  | .phyCycleQueueEntry n _ => laneOk n
  | .mwNop n => laneOk n
  | .mwEnd n => laneOk n
  | .mwJmp n => laneOk n
  | .mwJz n => laneOk n
  | .mwJnz n => laneOk n
  | .mwCall n => laneOk n
  | .mwRet n => laneOk n
  | .mwLoop n => laneOk n
  | .mwMovi n => laneOk n
  | .mwMovh n => laneOk n
  | .mwMov n => laneOk n
  | .mwAdd n => laneOk n
  | .mwSub n => laneOk n
  | .mwAnd n => laneOk n
  | .mwOr n => laneOk n
  | .mwXor n => laneOk n
  | .mwShl n => laneOk n
  | .mwShr n => laneOk n
  | .mwAddi n => laneOk n
  | .mwTst n => laneOk n
  | .mwLdp n => laneOk n
  | .mwTmask n => laneOk n
  | .tmaskForcedClose n => laneOk n
  | .mwCe n => laneOk n
  | .mwCeoff n => laneOk n
  | .mwCmd n => laneOk n
  | .mwConf n => laneOk n
  | .mwAdr n => laneOk n
  | .mwAdrc n => laneOk n
  | .mwAdrr n => laneOk n
  | .mwTw n => laneOk n
  | .mwDly n => laneOk n
  | .mwDin n => laneOk n
  | .mwDout n => laneOk n
  | .mwPin n => laneOk n
  | .mwPout n _ => laneOk n
  | .mwStat n _ => laneOk n
  | .mwWrb n _ => laneOk n
  | .rbNChange n ce _ => laneOk n && decide (ce < 16)
  | .statusPoll n d => laneOk n && dieOk d
  | .dieReady n d => laneOk n && dieOk d
  | .operationTimeLimit n d _ => laneOk n && dieOk d
  | .dieTempPoll n d _ => laneOk n && dieOk d
  | .retrainDeferExpiry n d => laneOk n && dieOk d
  | .hardDecodeDone n _ _ _ => laneOk n
  | .softDecodeStart j d => juncOk j && decide (d < 4)
  | .softDecodeDone j d _ => juncOk j && decide (d < 4)
  | .cwJobFinish j c => juncOk j && decide (c < 16)
  | .machineCheck n => laneOk n
  | .watchdogExpiry n => laneOk n
  | .controlStoreReload n errs => laneOk n && errsOk errs
  | .laneReset n _ _ => laneOk n
  | .pvCfgWrite p _ _ => pavOk p
  | .pvReset p _ _ => pavOk p
  | .pvResetDone p => pavOk p
  | .pvAdmEnable p _ _ => pavOk p
  | .pvAdmDisable p _ _ => pavOk p
  | .pvAdmResume p _ _ => pavOk p
  | .sysStageWrite _ _ _ => true
  | .sysUrecWrite _ _ _ => true
  | .familyTableWrite o _ _ _ => decide (o < 0x4000) && decide (o % 4 = 0)
  | .cwLoad j c _ _ => juncOk j && chanOk c
  | .cwDisable j c _ _ => juncOk j && chanOk c
  | .cwDisableClear j c _ _ => juncOk j && chanOk c
  | .cwProgramWrite j g i _ _ _ => juncOk j && decide (g < 8) && decide (i < 32)
  | .cwEventWrite j _ _ _ => juncOk j
  | .cwMove j c => juncOk j && chanOk c
  | .cwLoop j c => juncOk j && chanOk c
  | .cwWait j c => juncOk j && chanOk c
  | .cwSignal j c => juncOk j && chanOk c
  | .cwEnd j c => juncOk j && chanOk c
  | .cwDrainComplete j c => juncOk j && chanOk c
  | .icClaim t _ => decide (t < 32)
  | .icComplete t _ _ => decide (t < 32)
  | .moderationTimeout x => decide (0 < x) && decide (x < 1024)
  | .icSrcCfgWrite x _ _ _ => decide (0 < x) && decide (x < 1024)
  | .vlogPop _ _ => true
  | .keyArm _ _ => true
  | .keyZeroise _ _ => true
  | .wrapKeyLoad _ _ => true
  | .wrapKeyClear _ _ => true
  | .rngReseed _ _ => true
  | .rngRestart _ _ => true
  | .rngHealthFail => true
  | .rngDataRead _ => true
  | .attStart _ _ => true
  | .cfSequenceStep o _ _ _ => decide (o = 0) || decide (o = 4) || decide (o = 8)
  | .cfSequenceTimeout => true
  | .wordProg _ _ => true
  | .sectorErase _ _ => true
  | .rowProg _ _ => true
  | .protProg _ _ => true
  | .protErase _ _ => true
  | .protLock _ _ => true
  | .protUnlock _ _ => true
  | .cfCommandEnd _ => true
  | .cfProtClose _ _ => true
  | .cfWindowRead o _ _ _ _ => decide (o < 0x8000) && decide (o % 4 = 0)
  | .pmReqPs2 _ _ => true
  | .pmReqPs3 _ _ => true
  | .pmReqCancel _ _ => true
  | .ps2Entry => true
  | .ps2Exit => true
  | .ps3Entry => true
  | .pmWake _ _ => true
  | .atriskRelease _ _ => true
  | .atriskLaneRelease _ _ _ => true
  | .scrubWord lane _ _ _ _ _ => laneOk (lane.getD 0)
  | .mpTestArm _ _ => true
  | .mpTestGo _ _ => true
  | .fabricCredit port chan => juncOk (port.getD 0) && decide (chan < 4)
  | .resetDeassert errs _ => resetErrsOk errs
  | .vddCoreRestored errs _ => resetErrsOk errs
  | .comparator105cChange x _ => decide (x < 4)
  | .pvSrcTgtWrite p _ _ => pavOk p
  | .rcRegisterRead a _ _ => decide (a < 0x400000) && decide (a % 4 = 0)
  | .drbgInstantiated => true

end Sys2Proof
end

