-- ==== Sys2Proof/Laws/PerInstr.lean ====
section
/-! SUPPORT. The family Parts: a well-formed command names only lanes, pavilions and junctions of the largest build (R3, R4); one
lemma for each command. -/

namespace Sys2Proof.Laws

open Sys2Proof

/-- The lane that a command names. -/
def Parts.lane : Instr → Option Nat
  | .powerOnReset _ => none
  | .blockReset _ => none
  | .brownOutReset _ => none
  | .controlStoreLoad x _ => some x
  | .lxReady => none
  | .laneStart x _ _ => some x
  | .dieTrain x _ _ => some x
  | .tick _ _ _ _ => none
  | .laneSlipEvent x => some x
  | .frameBuild x => some x
  | .suspendEarliestReached x _ => some x
  | .suspendHoldExpiry x _ => some x
  | .ps1Entry x => some x
  | .epochAdvance => none
  | .epochWrite _ _ => none
  | .boardTempWrite _ _ => none
  | .boardTempStale => none
  | .tickCtrlWrite _ _ => none
  | .milepostLoRead _ => none
  | .telemetrySample _ => none
  | .tollgatePeriod => none
  | .thermalLoop => none
  | .thermalTrip _ => none
  | .thermalRestart => none
  | .supplyWarning _ => none
  | .supplyWarningEnd _ _ => none
  | .refclkFail _ => none
  | .idleSleepChange _ _ _ => none
  | .fabricReadReturn _ _ _ _ _ => none
  | .fabricWriteAck _ _ _ => none
  | .fabricResponseTimeout _ _ _ => none
  | .registerWrite _ _ _ _ => none
  | .sqDoorbell _ _ _ _ => none
  | .cqDoorbell _ _ _ _ => none
  | .pavilionFetch => none
  | .entryCheck _ => none
  | .chainTimeout _ _ => none
  | .pvErrRead _ _ _ => none
  | .poolEntry x => some x
  | .completionAccept _ _ => none
  | .sqCreate _ => none
  | .sqDelete _ => none
  | .cqCreate _ => none
  | .cqDelete _ => none
  | .sqResume _ => none
  | .vectorBind _ => none
  | .keyCreate _ => none
  | .keyLoad _ => none
  | .keyExport _ => none
  | .keyDestroy _ => none
  | .stripeOpen _ => none
  | .stripeAdd _ => none
  | .stripeClose _ => none
  | .stripeCloseTaken x _ => some x
  | .identify _ => none
  | .abort _ => none
  | .abortRequest x => some x
  | .read x _ _ => some x
  | .prog x _ _ => some x
  | .append x _ _ => some x
  | .erase x _ _ => some x
  | .eraseVerify x _ _ => some x
  | .relocate x _ _ => some x
  | .sample x _ _ => some x
  | .fence x _ _ => some x
  | .wait x _ _ => some x
  | .waitTimeout x _ _ => some x
  | .signal x _ _ => some x
  | .featureGet x _ _ => some x
  | .featureSet x _ _ => some x
  | .dieStatus x _ _ => some x
  | .train x _ _ => some x
  | .raw x _ _ => some x
  | .nop x _ _ => some x
  | .waymarkWrite x _ _ => some x
  | .microRoutineStart x => some x
  | .phyCycleQueueEntry x _ => some x
  | .mwNop x => some x
  | .mwEnd x => some x
  | .mwJmp x => some x
  | .mwJz x => some x
  | .mwJnz x => some x
  | .mwCall x => some x
  | .mwRet x => some x
  | .mwLoop x => some x
  | .mwMovi x => some x
  | .mwMovh x => some x
  | .mwMov x => some x
  | .mwAdd x => some x
  | .mwSub x => some x
  | .mwAnd x => some x
  | .mwOr x => some x
  | .mwXor x => some x
  | .mwShl x => some x
  | .mwShr x => some x
  | .mwAddi x => some x
  | .mwTst x => some x
  | .mwLdp x => some x
  | .mwTmask x => some x
  | .tmaskForcedClose x => some x
  | .mwCe x => some x
  | .mwCeoff x => some x
  | .mwCmd x => some x
  | .mwConf x => some x
  | .mwAdr x => some x
  | .mwAdrc x => some x
  | .mwAdrr x => some x
  | .mwTw x => some x
  | .mwDly x => some x
  | .mwDin x => some x
  | .mwDout x => some x
  | .mwPin x => some x
  | .mwPout x _ => some x
  | .mwStat x _ => some x
  | .mwWrb x _ => some x
  | .rbNChange x _ _ => some x
  | .statusPoll x _ => some x
  | .dieReady x _ => some x
  | .operationTimeLimit x _ _ => some x
  | .dieTempPoll x _ _ => some x
  | .retrainDeferExpiry x _ => some x
  | .hardDecodeDone x _ _ _ => some x
  | .softDecodeStart _ _ => none
  | .softDecodeDone _ _ _ => none
  | .cwJobFinish _ _ => none
  | .machineCheck x => some x
  | .watchdogExpiry x => some x
  | .controlStoreReload x _ => some x
  | .laneReset x _ _ => some x
  | .pvCfgWrite _ _ _ => none
  | .pvReset _ _ _ => none
  | .pvResetDone _ => none
  | .pvAdmEnable _ _ _ => none
  | .pvAdmDisable _ _ _ => none
  | .pvAdmResume _ _ _ => none
  | .sysStageWrite _ _ _ => none
  | .sysUrecWrite _ _ _ => none
  | .familyTableWrite _ _ _ _ => none
  | .cwLoad _ _ _ _ => none
  | .cwDisable _ _ _ _ => none
  | .cwDisableClear _ _ _ _ => none
  | .cwProgramWrite _ _ _ _ _ _ => none
  | .cwEventWrite _ _ _ _ => none
  | .cwMove _ _ => none
  | .cwLoop _ _ => none
  | .cwWait _ _ => none
  | .cwSignal _ _ => none
  | .cwEnd _ _ => none
  | .cwDrainComplete _ _ => none
  | .icClaim _ _ => none
  | .icComplete _ _ _ => none
  | .moderationTimeout _ => none
  | .icSrcCfgWrite _ _ _ _ => none
  | .vlogPop _ _ => none
  | .keyArm _ _ => none
  | .keyZeroise _ _ => none
  | .wrapKeyLoad _ _ => none
  | .wrapKeyClear _ _ => none
  | .rngReseed _ _ => none
  | .rngRestart _ _ => none
  | .rngHealthFail => none
  | .rngDataRead _ => none
  | .attStart _ _ => none
  | .cfSequenceStep _ _ _ _ => none
  | .cfSequenceTimeout => none
  | .wordProg _ _ => none
  | .sectorErase _ _ => none
  | .rowProg _ _ => none
  | .protProg _ _ => none
  | .protErase _ _ => none
  | .protLock _ _ => none
  | .protUnlock _ _ => none
  | .cfCommandEnd _ => none
  | .cfProtClose _ _ => none
  | .cfWindowRead _ _ _ _ _ => none
  | .pmReqPs2 _ _ => none
  | .pmReqPs3 _ _ => none
  | .pmReqCancel _ _ => none
  | .ps2Entry => none
  | .ps2Exit => none
  | .ps3Entry => none
  | .pmWake _ _ => none
  | .atriskRelease _ _ => none
  | .atriskLaneRelease _ _ _ => none
  | .scrubWord _ _ _ _ _ _ => none
  | .mpTestArm _ _ => none
  | .mpTestGo _ _ => none
  | .fabricCredit _ _ => none
  | .resetDeassert _ _ => none
  | .vddCoreRestored _ _ => none
  | .comparator105cChange _ _ => none
  | .pvSrcTgtWrite _ _ _ => none
  | .rcRegisterRead _ _ _ => none
  | .drbgInstantiated => none

/-- The pavilion that a command names. -/
def Parts.pavilion : Instr → Option Nat
  | .powerOnReset _ => none
  | .blockReset _ => none
  | .brownOutReset _ => none
  | .controlStoreLoad _ _ => none
  | .lxReady => none
  | .laneStart _ _ _ => none
  | .dieTrain _ _ _ => none
  | .tick _ _ _ _ => none
  | .laneSlipEvent _ => none
  | .frameBuild _ => none
  | .suspendEarliestReached _ _ => none
  | .suspendHoldExpiry _ _ => none
  | .ps1Entry _ => none
  | .epochAdvance => none
  | .epochWrite _ _ => none
  | .boardTempWrite _ _ => none
  | .boardTempStale => none
  | .tickCtrlWrite _ _ => none
  | .milepostLoRead _ => none
  | .telemetrySample _ => none
  | .tollgatePeriod => none
  | .thermalLoop => none
  | .thermalTrip _ => none
  | .thermalRestart => none
  | .supplyWarning _ => none
  | .supplyWarningEnd _ _ => none
  | .refclkFail _ => none
  | .idleSleepChange _ _ _ => none
  | .fabricReadReturn _ _ _ _ _ => none
  | .fabricWriteAck _ _ _ => none
  | .fabricResponseTimeout _ _ _ => none
  | .registerWrite _ _ _ _ => none
  | .sqDoorbell x _ _ _ => some x
  | .cqDoorbell x _ _ _ => some x
  | .pavilionFetch => none
  | .entryCheck x => some x
  | .chainTimeout x _ => some x
  | .pvErrRead x _ _ => some x
  | .poolEntry _ => none
  | .completionAccept _ _ => none
  | .sqCreate x => some x
  | .sqDelete x => some x
  | .cqCreate x => some x
  | .cqDelete x => some x
  | .sqResume x => some x
  | .vectorBind x => some x
  | .keyCreate x => some x
  | .keyLoad x => some x
  | .keyExport x => some x
  | .keyDestroy x => some x
  | .stripeOpen x => some x
  | .stripeAdd x => some x
  | .stripeClose x => some x
  | .stripeCloseTaken _ _ => none
  | .identify x => some x
  | .abort x => some x
  | .abortRequest _ => none
  | .read _ _ _ => none
  | .prog _ _ _ => none
  | .append _ _ _ => none
  | .erase _ _ _ => none
  | .eraseVerify _ _ _ => none
  | .relocate _ _ _ => none
  | .sample _ _ _ => none
  | .fence _ _ _ => none
  | .wait _ _ _ => none
  | .waitTimeout _ _ _ => none
  | .signal _ _ _ => none
  | .featureGet _ _ _ => none
  | .featureSet _ _ _ => none
  | .dieStatus _ _ _ => none
  | .train _ _ _ => none
  | .raw _ _ _ => none
  | .nop _ _ _ => none
  | .waymarkWrite _ _ _ => none
  | .microRoutineStart _ => none
  | .phyCycleQueueEntry _ _ => none
  | .mwNop _ => none
  | .mwEnd _ => none
  | .mwJmp _ => none
  | .mwJz _ => none
  | .mwJnz _ => none
  | .mwCall _ => none
  | .mwRet _ => none
  | .mwLoop _ => none
  | .mwMovi _ => none
  | .mwMovh _ => none
  | .mwMov _ => none
  | .mwAdd _ => none
  | .mwSub _ => none
  | .mwAnd _ => none
  | .mwOr _ => none
  | .mwXor _ => none
  | .mwShl _ => none
  | .mwShr _ => none
  | .mwAddi _ => none
  | .mwTst _ => none
  | .mwLdp _ => none
  | .mwTmask _ => none
  | .tmaskForcedClose _ => none
  | .mwCe _ => none
  | .mwCeoff _ => none
  | .mwCmd _ => none
  | .mwConf _ => none
  | .mwAdr _ => none
  | .mwAdrc _ => none
  | .mwAdrr _ => none
  | .mwTw _ => none
  | .mwDly _ => none
  | .mwDin _ => none
  | .mwDout _ => none
  | .mwPin _ => none
  | .mwPout _ _ => none
  | .mwStat _ _ => none
  | .mwWrb _ _ => none
  | .rbNChange _ _ _ => none
  | .statusPoll _ _ => none
  | .dieReady _ _ => none
  | .operationTimeLimit _ _ _ => none
  | .dieTempPoll _ _ _ => none
  | .retrainDeferExpiry _ _ => none
  | .hardDecodeDone _ _ _ _ => none
  | .softDecodeStart _ _ => none
  | .softDecodeDone _ _ _ => none
  | .cwJobFinish _ _ => none
  | .machineCheck _ => none
  | .watchdogExpiry _ => none
  | .controlStoreReload _ _ => none
  | .laneReset _ _ _ => none
  | .pvCfgWrite x _ _ => some x
  | .pvReset x _ _ => some x
  | .pvResetDone x => some x
  | .pvAdmEnable x _ _ => some x
  | .pvAdmDisable x _ _ => some x
  | .pvAdmResume x _ _ => some x
  | .sysStageWrite _ _ _ => none
  | .sysUrecWrite _ _ _ => none
  | .familyTableWrite _ _ _ _ => none
  | .cwLoad _ _ _ _ => none
  | .cwDisable _ _ _ _ => none
  | .cwDisableClear _ _ _ _ => none
  | .cwProgramWrite _ _ _ _ _ _ => none
  | .cwEventWrite _ _ _ _ => none
  | .cwMove _ _ => none
  | .cwLoop _ _ => none
  | .cwWait _ _ => none
  | .cwSignal _ _ => none
  | .cwEnd _ _ => none
  | .cwDrainComplete _ _ => none
  | .icClaim _ _ => none
  | .icComplete _ _ _ => none
  | .moderationTimeout _ => none
  | .icSrcCfgWrite _ _ _ _ => none
  | .vlogPop _ _ => none
  | .keyArm _ _ => none
  | .keyZeroise _ _ => none
  | .wrapKeyLoad _ _ => none
  | .wrapKeyClear _ _ => none
  | .rngReseed _ _ => none
  | .rngRestart _ _ => none
  | .rngHealthFail => none
  | .rngDataRead _ => none
  | .attStart _ _ => none
  | .cfSequenceStep _ _ _ _ => none
  | .cfSequenceTimeout => none
  | .wordProg _ _ => none
  | .sectorErase _ _ => none
  | .rowProg _ _ => none
  | .protProg _ _ => none
  | .protErase _ _ => none
  | .protLock _ _ => none
  | .protUnlock _ _ => none
  | .cfCommandEnd _ => none
  | .cfProtClose _ _ => none
  | .cfWindowRead _ _ _ _ _ => none
  | .pmReqPs2 _ _ => none
  | .pmReqPs3 _ _ => none
  | .pmReqCancel _ _ => none
  | .ps2Entry => none
  | .ps2Exit => none
  | .ps3Entry => none
  | .pmWake _ _ => none
  | .atriskRelease _ _ => none
  | .atriskLaneRelease _ _ _ => none
  | .scrubWord _ _ _ _ _ _ => none
  | .mpTestArm _ _ => none
  | .mpTestGo _ _ => none
  | .fabricCredit _ _ => none
  | .resetDeassert _ _ => none
  | .vddCoreRestored _ _ => none
  | .comparator105cChange _ _ => none
  | .pvSrcTgtWrite x _ _ => some x
  | .rcRegisterRead _ _ _ => none
  | .drbgInstantiated => none

/-- The junction that a command names. -/
def Parts.junction : Instr → Option Nat
  | .powerOnReset _ => none
  | .blockReset _ => none
  | .brownOutReset _ => none
  | .controlStoreLoad _ _ => none
  | .lxReady => none
  | .laneStart _ _ _ => none
  | .dieTrain _ _ _ => none
  | .tick _ _ _ _ => none
  | .laneSlipEvent _ => none
  | .frameBuild _ => none
  | .suspendEarliestReached _ _ => none
  | .suspendHoldExpiry _ _ => none
  | .ps1Entry _ => none
  | .epochAdvance => none
  | .epochWrite _ _ => none
  | .boardTempWrite _ _ => none
  | .boardTempStale => none
  | .tickCtrlWrite _ _ => none
  | .milepostLoRead _ => none
  | .telemetrySample _ => none
  | .tollgatePeriod => none
  | .thermalLoop => none
  | .thermalTrip _ => none
  | .thermalRestart => none
  | .supplyWarning _ => none
  | .supplyWarningEnd _ _ => none
  | .refclkFail x => some x
  | .idleSleepChange _ _ _ => none
  | .fabricReadReturn _ _ _ _ _ => none
  | .fabricWriteAck _ _ _ => none
  | .fabricResponseTimeout _ _ _ => none
  | .registerWrite _ _ _ _ => none
  | .sqDoorbell _ _ _ _ => none
  | .cqDoorbell _ _ _ _ => none
  | .pavilionFetch => none
  | .entryCheck _ => none
  | .chainTimeout _ _ => none
  | .pvErrRead _ _ _ => none
  | .poolEntry _ => none
  | .completionAccept _ _ => none
  | .sqCreate _ => none
  | .sqDelete _ => none
  | .cqCreate _ => none
  | .cqDelete _ => none
  | .sqResume _ => none
  | .vectorBind _ => none
  | .keyCreate _ => none
  | .keyLoad _ => none
  | .keyExport _ => none
  | .keyDestroy _ => none
  | .stripeOpen _ => none
  | .stripeAdd _ => none
  | .stripeClose _ => none
  | .stripeCloseTaken _ _ => none
  | .identify _ => none
  | .abort _ => none
  | .abortRequest _ => none
  | .read _ _ _ => none
  | .prog _ _ _ => none
  | .append _ _ _ => none
  | .erase _ _ _ => none
  | .eraseVerify _ _ _ => none
  | .relocate _ _ _ => none
  | .sample _ _ _ => none
  | .fence _ _ _ => none
  | .wait _ _ _ => none
  | .waitTimeout _ _ _ => none
  | .signal _ _ _ => none
  | .featureGet _ _ _ => none
  | .featureSet _ _ _ => none
  | .dieStatus _ _ _ => none
  | .train _ _ _ => none
  | .raw _ _ _ => none
  | .nop _ _ _ => none
  | .waymarkWrite _ _ _ => none
  | .microRoutineStart _ => none
  | .phyCycleQueueEntry _ _ => none
  | .mwNop _ => none
  | .mwEnd _ => none
  | .mwJmp _ => none
  | .mwJz _ => none
  | .mwJnz _ => none
  | .mwCall _ => none
  | .mwRet _ => none
  | .mwLoop _ => none
  | .mwMovi _ => none
  | .mwMovh _ => none
  | .mwMov _ => none
  | .mwAdd _ => none
  | .mwSub _ => none
  | .mwAnd _ => none
  | .mwOr _ => none
  | .mwXor _ => none
  | .mwShl _ => none
  | .mwShr _ => none
  | .mwAddi _ => none
  | .mwTst _ => none
  | .mwLdp _ => none
  | .mwTmask _ => none
  | .tmaskForcedClose _ => none
  | .mwCe _ => none
  | .mwCeoff _ => none
  | .mwCmd _ => none
  | .mwConf _ => none
  | .mwAdr _ => none
  | .mwAdrc _ => none
  | .mwAdrr _ => none
  | .mwTw _ => none
  | .mwDly _ => none
  | .mwDin _ => none
  | .mwDout _ => none
  | .mwPin _ => none
  | .mwPout _ _ => none
  | .mwStat _ _ => none
  | .mwWrb _ _ => none
  | .rbNChange _ _ _ => none
  | .statusPoll _ _ => none
  | .dieReady _ _ => none
  | .operationTimeLimit _ _ _ => none
  | .dieTempPoll _ _ _ => none
  | .retrainDeferExpiry _ _ => none
  | .hardDecodeDone _ _ _ _ => none
  | .softDecodeStart x _ => some x
  | .softDecodeDone x _ _ => some x
  | .cwJobFinish x _ => some x
  | .machineCheck _ => none
  | .watchdogExpiry _ => none
  | .controlStoreReload _ _ => none
  | .laneReset _ _ _ => none
  | .pvCfgWrite _ _ _ => none
  | .pvReset _ _ _ => none
  | .pvResetDone _ => none
  | .pvAdmEnable _ _ _ => none
  | .pvAdmDisable _ _ _ => none
  | .pvAdmResume _ _ _ => none
  | .sysStageWrite _ _ _ => none
  | .sysUrecWrite _ _ _ => none
  | .familyTableWrite _ _ _ _ => none
  | .cwLoad x _ _ _ => some x
  | .cwDisable x _ _ _ => some x
  | .cwDisableClear x _ _ _ => some x
  | .cwProgramWrite x _ _ _ _ _ => some x
  | .cwEventWrite x _ _ _ => some x
  | .cwMove x _ => some x
  | .cwLoop x _ => some x
  | .cwWait x _ => some x
  | .cwSignal x _ => some x
  | .cwEnd x _ => some x
  | .cwDrainComplete x _ => some x
  | .icClaim _ _ => none
  | .icComplete _ _ _ => none
  | .moderationTimeout _ => none
  | .icSrcCfgWrite _ _ _ _ => none
  | .vlogPop _ _ => none
  | .keyArm _ _ => none
  | .keyZeroise _ _ => none
  | .wrapKeyLoad _ _ => none
  | .wrapKeyClear _ _ => none
  | .rngReseed _ _ => none
  | .rngRestart _ _ => none
  | .rngHealthFail => none
  | .rngDataRead _ => none
  | .attStart _ _ => none
  | .cfSequenceStep _ _ _ _ => none
  | .cfSequenceTimeout => none
  | .wordProg _ _ => none
  | .sectorErase _ _ => none
  | .rowProg _ _ => none
  | .protProg _ _ => none
  | .protErase _ _ => none
  | .protLock _ _ => none
  | .protUnlock _ _ => none
  | .cfCommandEnd _ => none
  | .cfProtClose _ _ => none
  | .cfWindowRead _ _ _ _ _ => none
  | .pmReqPs2 _ _ => none
  | .pmReqPs3 _ _ => none
  | .pmReqCancel _ _ => none
  | .ps2Entry => none
  | .ps2Exit => none
  | .ps3Entry => none
  | .pmWake _ _ => none
  | .atriskRelease _ _ => none
  | .atriskLaneRelease _ _ _ => none
  | .scrubWord _ _ _ _ _ _ => none
  | .mpTestArm _ _ => none
  | .mpTestGo _ _ => none
  | .fabricCredit _ _ => none
  | .resetDeassert _ _ => none
  | .vddCoreRestored _ _ => none
  | .comparator105cChange _ _ => none
  | .pvSrcTgtWrite _ _ _ => none
  | .rcRegisterRead _ _ _ => none
  | .drbgInstantiated => none

/-- What a well-formed command names lies in the block (R3, R4). -/
def Parts.Statement (i : Instr) : Prop :=
  i.wf = true → (∀ n, Parts.lane i = some n → n < 64) ∧ (∀ p, Parts.pavilion i = some p → p < 16) ∧
    (∀ j, Parts.junction i = some j → j < 8)

theorem no_part {x : Nat} {P : Prop} (h : (none : Option Nat) = some x) : P := nomatch h
theorem and_left {a b : Bool} (h : (a && b) = true) : a = true := by
  cases a
  · simp at h
  · rfl
theorem laneOk_lt {n : Nat} (h : laneOk n = true) : n < 64 := of_decide_eq_true h
theorem pavOk_lt {p : Nat} (h : pavOk p = true) : p < 16 := of_decide_eq_true h
theorem juncOk_lt {j : Nat} (h : juncOk j = true) : j < 8 := of_decide_eq_true h

theorem Parts.powerOnReset (ns : Nat) : Parts.Statement (.powerOnReset ns) :=
  fun _ => ⟨fun _ e => no_part e, fun _ e => no_part e, fun _ e => no_part e⟩
theorem Parts.blockReset (ns : Nat) : Parts.Statement (.blockReset ns) :=
  fun _ => ⟨fun _ e => no_part e, fun _ e => no_part e, fun _ e => no_part e⟩
theorem Parts.brownOutReset (ns : Nat) : Parts.Statement (.brownOutReset ns) :=
  fun _ => ⟨fun _ e => no_part e, fun _ e => no_part e, fun _ e => no_part e⟩
theorem Parts.controlStoreLoad (n : Nat) (errs : List ReadErr) : Parts.Statement (.controlStoreLoad n errs) :=
  fun h => ⟨fun _ e => Option.some.inj e ▸ laneOk_lt (and_left h), fun _ e => no_part e, fun _ e => no_part e⟩
theorem Parts.lxReady : Parts.Statement .lxReady :=
  fun _ => ⟨fun _ e => no_part e, fun _ e => no_part e, fun _ e => no_part e⟩
theorem Parts.laneStart (n : Nat) (dies : List DieAnswer) (errs : List ReadErr) : Parts.Statement (.laneStart n dies errs) :=
  fun h => ⟨fun _ e => Option.some.inj e ▸ laneOk_lt (and_left (and_left h)), fun _ e => no_part e, fun _ e => no_part e⟩
theorem Parts.dieTrain (n : Nat) (d : Nat) (windows : List (Nat × Nat)) : Parts.Statement (.dieTrain n d windows) :=
  fun h => ⟨fun _ e => Option.some.inj e ▸ laneOk_lt (and_left (and_left h)), fun _ e => no_part e, fun _ e => no_part e⟩
theorem Parts.tick (t0 : Int) (t1 : Int) (t2 : Int) (t3 : Int) : Parts.Statement (.tick t0 t1 t2 t3) :=
  fun _ => ⟨fun _ e => no_part e, fun _ e => no_part e, fun _ e => no_part e⟩
theorem Parts.laneSlipEvent (n : Nat) : Parts.Statement (.laneSlipEvent n) :=
  fun h => ⟨fun _ e => Option.some.inj e ▸ laneOk_lt h, fun _ e => no_part e, fun _ e => no_part e⟩
theorem Parts.frameBuild (n : Nat) : Parts.Statement (.frameBuild n) :=
  fun h => ⟨fun _ e => Option.some.inj e ▸ laneOk_lt h, fun _ e => no_part e, fun _ e => no_part e⟩
theorem Parts.suspendEarliestReached (n : Nat) (d : Nat) : Parts.Statement (.suspendEarliestReached n d) :=
  fun h => ⟨fun _ e => Option.some.inj e ▸ laneOk_lt (and_left h), fun _ e => no_part e, fun _ e => no_part e⟩
theorem Parts.suspendHoldExpiry (n : Nat) (d : Nat) : Parts.Statement (.suspendHoldExpiry n d) :=
  fun h => ⟨fun _ e => Option.some.inj e ▸ laneOk_lt (and_left h), fun _ e => no_part e, fun _ e => no_part e⟩
theorem Parts.ps1Entry (n : Nat) : Parts.Statement (.ps1Entry n) :=
  fun h => ⟨fun _ e => Option.some.inj e ▸ laneOk_lt h, fun _ e => no_part e, fun _ e => no_part e⟩
theorem Parts.epochAdvance : Parts.Statement .epochAdvance :=
  fun _ => ⟨fun _ e => no_part e, fun _ e => no_part e, fun _ e => no_part e⟩
theorem Parts.epochWrite (v : Word) (sec : Bool) : Parts.Statement (.epochWrite v sec) :=
  fun _ => ⟨fun _ e => no_part e, fun _ e => no_part e, fun _ e => no_part e⟩
theorem Parts.boardTempWrite (v : Word) (sec : Bool) : Parts.Statement (.boardTempWrite v sec) :=
  fun _ => ⟨fun _ e => no_part e, fun _ e => no_part e, fun _ e => no_part e⟩
theorem Parts.boardTempStale : Parts.Statement .boardTempStale :=
  fun _ => ⟨fun _ e => no_part e, fun _ e => no_part e, fun _ e => no_part e⟩
theorem Parts.tickCtrlWrite (v : Word) (sec : Bool) : Parts.Statement (.tickCtrlWrite v sec) :=
  fun _ => ⟨fun _ e => no_part e, fun _ e => no_part e, fun _ e => no_part e⟩
theorem Parts.milepostLoRead (sec : Bool) : Parts.Statement (.milepostLoRead sec) :=
  fun _ => ⟨fun _ e => no_part e, fun _ e => no_part e, fun _ e => no_part e⟩
theorem Parts.telemetrySample (v : BitVec 16) : Parts.Statement (.telemetrySample v) :=
  fun _ => ⟨fun _ e => no_part e, fun _ e => no_part e, fun _ e => no_part e⟩
theorem Parts.tollgatePeriod : Parts.Statement .tollgatePeriod :=
  fun _ => ⟨fun _ e => no_part e, fun _ e => no_part e, fun _ e => no_part e⟩
theorem Parts.thermalLoop : Parts.Statement .thermalLoop :=
  fun _ => ⟨fun _ e => no_part e, fun _ e => no_part e, fun _ e => no_part e⟩
theorem Parts.thermalTrip (sensor : Nat) : Parts.Statement (.thermalTrip sensor) :=
  fun _ => ⟨fun _ e => no_part e, fun _ e => no_part e, fun _ e => no_part e⟩
theorem Parts.thermalRestart : Parts.Statement .thermalRestart :=
  fun _ => ⟨fun _ e => no_part e, fun _ e => no_part e, fun _ e => no_part e⟩
theorem Parts.supplyWarning (w : Supply) : Parts.Statement (.supplyWarning w) :=
  fun _ => ⟨fun _ e => no_part e, fun _ e => no_part e, fun _ e => no_part e⟩
theorem Parts.supplyWarningEnd (w : Supply) (us : Nat) : Parts.Statement (.supplyWarningEnd w us) :=
  fun _ => ⟨fun _ e => no_part e, fun _ e => no_part e, fun _ e => no_part e⟩
theorem Parts.refclkFail (j : Nat) : Parts.Statement (.refclkFail j) :=
  fun h => ⟨fun _ e => no_part e, fun _ e => no_part e, fun _ e => Option.some.inj e ▸ juncOk_lt h⟩
theorem Parts.idleSleepChange (t : Nat) (idle : Bool) (sleep : Bool) : Parts.Statement (.idleSleepChange t idle sleep) :=
  fun _ => ⟨fun _ e => no_part e, fun _ e => no_part e, fun _ e => no_part e⟩
theorem Parts.fabricReadReturn (port : Nat) (id : Nat) (seq : Nat) (data : Beat) (st : BitVec 3) : Parts.Statement (.fabricReadReturn port id seq data st) :=
  fun _ => ⟨fun _ e => no_part e, fun _ e => no_part e, fun _ e => no_part e⟩
theorem Parts.fabricWriteAck (port : Nat) (id : Nat) (st : BitVec 3) : Parts.Statement (.fabricWriteAck port id st) :=
  fun _ => ⟨fun _ e => no_part e, fun _ e => no_part e, fun _ e => no_part e⟩
theorem Parts.fabricResponseTimeout (port : Nat) (write : Bool) (id : Nat) : Parts.Statement (.fabricResponseTimeout port write id) :=
  fun _ => ⟨fun _ e => no_part e, fun _ e => no_part e, fun _ e => no_part e⟩
theorem Parts.registerWrite (addr : Nat) (bmask : BitVec 8) (v : Word64) (sec : Bool) : Parts.Statement (.registerWrite addr bmask v sec) :=
  fun _ => ⟨fun _ e => no_part e, fun _ e => no_part e, fun _ e => no_part e⟩
theorem Parts.sqDoorbell (p : Nat) (q : Option Nat) (v : Word) (sec : Bool) : Parts.Statement (.sqDoorbell p q v sec) :=
  fun h => ⟨fun _ e => no_part e, fun _ e => Option.some.inj e ▸ pavOk_lt (and_left h), fun _ e => no_part e⟩
theorem Parts.cqDoorbell (p : Nat) (q : Option Nat) (v : Word) (sec : Bool) : Parts.Statement (.cqDoorbell p q v sec) :=
  fun h => ⟨fun _ e => no_part e, fun _ e => Option.some.inj e ▸ pavOk_lt (and_left h), fun _ e => no_part e⟩
theorem Parts.pavilionFetch : Parts.Statement .pavilionFetch :=
  fun _ => ⟨fun _ e => no_part e, fun _ e => no_part e, fun _ e => no_part e⟩
theorem Parts.entryCheck (p : Nat) : Parts.Statement (.entryCheck p) :=
  fun h => ⟨fun _ e => no_part e, fun _ e => Option.some.inj e ▸ pavOk_lt h, fun _ e => no_part e⟩
theorem Parts.chainTimeout (p : Nat) (q : Option Nat) : Parts.Statement (.chainTimeout p q) :=
  fun h => ⟨fun _ e => no_part e, fun _ e => Option.some.inj e ▸ pavOk_lt (and_left h), fun _ e => no_part e⟩
theorem Parts.pvErrRead (p : Nat) (count : Bool) (sec : Bool) : Parts.Statement (.pvErrRead p count sec) :=
  fun h => ⟨fun _ e => no_part e, fun _ e => Option.some.inj e ▸ pavOk_lt h, fun _ e => no_part e⟩
theorem Parts.poolEntry (n : Nat) : Parts.Statement (.poolEntry n) :=
  fun h => ⟨fun _ e => Option.some.inj e ▸ laneOk_lt h, fun _ e => no_part e, fun _ e => no_part e⟩
theorem Parts.completionAccept (cq : Nat) (src : Nat) : Parts.Statement (.completionAccept cq src) :=
  fun _ => ⟨fun _ e => no_part e, fun _ e => no_part e, fun _ e => no_part e⟩
theorem Parts.sqCreate (p : Nat) : Parts.Statement (.sqCreate p) :=
  fun h => ⟨fun _ e => no_part e, fun _ e => Option.some.inj e ▸ pavOk_lt h, fun _ e => no_part e⟩
theorem Parts.sqDelete (p : Nat) : Parts.Statement (.sqDelete p) :=
  fun h => ⟨fun _ e => no_part e, fun _ e => Option.some.inj e ▸ pavOk_lt h, fun _ e => no_part e⟩
theorem Parts.cqCreate (p : Nat) : Parts.Statement (.cqCreate p) :=
  fun h => ⟨fun _ e => no_part e, fun _ e => Option.some.inj e ▸ pavOk_lt h, fun _ e => no_part e⟩
theorem Parts.cqDelete (p : Nat) : Parts.Statement (.cqDelete p) :=
  fun h => ⟨fun _ e => no_part e, fun _ e => Option.some.inj e ▸ pavOk_lt h, fun _ e => no_part e⟩
theorem Parts.sqResume (p : Nat) : Parts.Statement (.sqResume p) :=
  fun h => ⟨fun _ e => no_part e, fun _ e => Option.some.inj e ▸ pavOk_lt h, fun _ e => no_part e⟩
theorem Parts.vectorBind (p : Nat) : Parts.Statement (.vectorBind p) :=
  fun h => ⟨fun _ e => no_part e, fun _ e => Option.some.inj e ▸ pavOk_lt h, fun _ e => no_part e⟩
theorem Parts.keyCreate (p : Nat) : Parts.Statement (.keyCreate p) :=
  fun h => ⟨fun _ e => no_part e, fun _ e => Option.some.inj e ▸ pavOk_lt h, fun _ e => no_part e⟩
theorem Parts.keyLoad (p : Nat) : Parts.Statement (.keyLoad p) :=
  fun h => ⟨fun _ e => no_part e, fun _ e => Option.some.inj e ▸ pavOk_lt h, fun _ e => no_part e⟩
theorem Parts.keyExport (p : Nat) : Parts.Statement (.keyExport p) :=
  fun h => ⟨fun _ e => no_part e, fun _ e => Option.some.inj e ▸ pavOk_lt h, fun _ e => no_part e⟩
theorem Parts.keyDestroy (p : Nat) : Parts.Statement (.keyDestroy p) :=
  fun h => ⟨fun _ e => no_part e, fun _ e => Option.some.inj e ▸ pavOk_lt h, fun _ e => no_part e⟩
theorem Parts.stripeOpen (p : Nat) : Parts.Statement (.stripeOpen p) :=
  fun h => ⟨fun _ e => no_part e, fun _ e => Option.some.inj e ▸ pavOk_lt h, fun _ e => no_part e⟩
theorem Parts.stripeAdd (p : Nat) : Parts.Statement (.stripeAdd p) :=
  fun h => ⟨fun _ e => no_part e, fun _ e => Option.some.inj e ▸ pavOk_lt h, fun _ e => no_part e⟩
theorem Parts.stripeClose (p : Nat) : Parts.Statement (.stripeClose p) :=
  fun h => ⟨fun _ e => no_part e, fun _ e => Option.some.inj e ▸ pavOk_lt h, fun _ e => no_part e⟩
theorem Parts.stripeCloseTaken (n : Nat) (stripe : Nat) : Parts.Statement (.stripeCloseTaken n stripe) :=
  fun h => ⟨fun _ e => Option.some.inj e ▸ laneOk_lt (and_left h), fun _ e => no_part e, fun _ e => no_part e⟩
theorem Parts.identify (p : Nat) : Parts.Statement (.identify p) :=
  fun h => ⟨fun _ e => no_part e, fun _ e => Option.some.inj e ▸ pavOk_lt h, fun _ e => no_part e⟩
theorem Parts.abort (p : Nat) : Parts.Statement (.abort p) :=
  fun h => ⟨fun _ e => no_part e, fun _ e => Option.some.inj e ▸ pavOk_lt h, fun _ e => no_part e⟩
theorem Parts.abortRequest (n : Nat) : Parts.Statement (.abortRequest n) :=
  fun h => ⟨fun _ e => Option.some.inj e ▸ laneOk_lt h, fun _ e => no_part e, fun _ e => no_part e⟩
theorem Parts.read (n : Nat) (e : Nat) (i : Nat) : Parts.Statement (.read n e i) :=
  fun h => ⟨fun _ e => Option.some.inj e ▸ laneOk_lt (and_left h), fun _ e => no_part e, fun _ e => no_part e⟩
theorem Parts.prog (n : Nat) (e : Nat) (i : Nat) : Parts.Statement (.prog n e i) :=
  fun h => ⟨fun _ e => Option.some.inj e ▸ laneOk_lt (and_left h), fun _ e => no_part e, fun _ e => no_part e⟩
theorem Parts.append (n : Nat) (e : Nat) (i : Nat) : Parts.Statement (.append n e i) :=
  fun h => ⟨fun _ e => Option.some.inj e ▸ laneOk_lt (and_left h), fun _ e => no_part e, fun _ e => no_part e⟩
theorem Parts.erase (n : Nat) (e : Nat) (i : Nat) : Parts.Statement (.erase n e i) :=
  fun h => ⟨fun _ e => Option.some.inj e ▸ laneOk_lt (and_left h), fun _ e => no_part e, fun _ e => no_part e⟩
theorem Parts.eraseVerify (n : Nat) (e : Nat) (i : Nat) : Parts.Statement (.eraseVerify n e i) :=
  fun h => ⟨fun _ e => Option.some.inj e ▸ laneOk_lt (and_left h), fun _ e => no_part e, fun _ e => no_part e⟩
theorem Parts.relocate (n : Nat) (e : Nat) (i : Nat) : Parts.Statement (.relocate n e i) :=
  fun h => ⟨fun _ e => Option.some.inj e ▸ laneOk_lt (and_left h), fun _ e => no_part e, fun _ e => no_part e⟩
theorem Parts.sample (n : Nat) (e : Nat) (i : Nat) : Parts.Statement (.sample n e i) :=
  fun h => ⟨fun _ e => Option.some.inj e ▸ laneOk_lt (and_left h), fun _ e => no_part e, fun _ e => no_part e⟩
theorem Parts.fence (n : Nat) (e : Nat) (i : Nat) : Parts.Statement (.fence n e i) :=
  fun h => ⟨fun _ e => Option.some.inj e ▸ laneOk_lt (and_left h), fun _ e => no_part e, fun _ e => no_part e⟩
theorem Parts.wait (n : Nat) (e : Nat) (i : Nat) : Parts.Statement (.wait n e i) :=
  fun h => ⟨fun _ e => Option.some.inj e ▸ laneOk_lt (and_left h), fun _ e => no_part e, fun _ e => no_part e⟩
theorem Parts.waitTimeout (n : Nat) (e : Nat) (i : Nat) : Parts.Statement (.waitTimeout n e i) :=
  fun h => ⟨fun _ e => Option.some.inj e ▸ laneOk_lt (and_left h), fun _ e => no_part e, fun _ e => no_part e⟩
theorem Parts.signal (n : Nat) (e : Nat) (i : Nat) : Parts.Statement (.signal n e i) :=
  fun h => ⟨fun _ e => Option.some.inj e ▸ laneOk_lt (and_left h), fun _ e => no_part e, fun _ e => no_part e⟩
theorem Parts.featureGet (n : Nat) (e : Nat) (i : Nat) : Parts.Statement (.featureGet n e i) :=
  fun h => ⟨fun _ e => Option.some.inj e ▸ laneOk_lt (and_left h), fun _ e => no_part e, fun _ e => no_part e⟩
theorem Parts.featureSet (n : Nat) (e : Nat) (i : Nat) : Parts.Statement (.featureSet n e i) :=
  fun h => ⟨fun _ e => Option.some.inj e ▸ laneOk_lt (and_left h), fun _ e => no_part e, fun _ e => no_part e⟩
theorem Parts.dieStatus (n : Nat) (e : Nat) (i : Nat) : Parts.Statement (.dieStatus n e i) :=
  fun h => ⟨fun _ e => Option.some.inj e ▸ laneOk_lt (and_left h), fun _ e => no_part e, fun _ e => no_part e⟩
theorem Parts.train (n : Nat) (e : Nat) (i : Nat) : Parts.Statement (.train n e i) :=
  fun h => ⟨fun _ e => Option.some.inj e ▸ laneOk_lt (and_left h), fun _ e => no_part e, fun _ e => no_part e⟩
theorem Parts.raw (n : Nat) (e : Nat) (i : Nat) : Parts.Statement (.raw n e i) :=
  fun h => ⟨fun _ e => Option.some.inj e ▸ laneOk_lt (and_left h), fun _ e => no_part e, fun _ e => no_part e⟩
theorem Parts.nop (n : Nat) (e : Nat) (i : Nat) : Parts.Statement (.nop n e i) :=
  fun h => ⟨fun _ e => Option.some.inj e ▸ laneOk_lt (and_left h), fun _ e => no_part e, fun _ e => no_part e⟩
theorem Parts.waymarkWrite (n : Nat) (v : Word) (sec : Bool) : Parts.Statement (.waymarkWrite n v sec) :=
  fun h => ⟨fun _ e => Option.some.inj e ▸ laneOk_lt h, fun _ e => no_part e, fun _ e => no_part e⟩
theorem Parts.microRoutineStart (n : Nat) : Parts.Statement (.microRoutineStart n) :=
  fun h => ⟨fun _ e => Option.some.inj e ▸ laneOk_lt h, fun _ e => no_part e, fun _ e => no_part e⟩
theorem Parts.phyCycleQueueEntry (n : Nat) (din : List Byte) : Parts.Statement (.phyCycleQueueEntry n din) :=
  fun h => ⟨fun _ e => Option.some.inj e ▸ laneOk_lt h, fun _ e => no_part e, fun _ e => no_part e⟩
theorem Parts.mwNop (n : Nat) : Parts.Statement (.mwNop n) :=
  fun h => ⟨fun _ e => Option.some.inj e ▸ laneOk_lt h, fun _ e => no_part e, fun _ e => no_part e⟩
theorem Parts.mwEnd (n : Nat) : Parts.Statement (.mwEnd n) :=
  fun h => ⟨fun _ e => Option.some.inj e ▸ laneOk_lt h, fun _ e => no_part e, fun _ e => no_part e⟩
theorem Parts.mwJmp (n : Nat) : Parts.Statement (.mwJmp n) :=
  fun h => ⟨fun _ e => Option.some.inj e ▸ laneOk_lt h, fun _ e => no_part e, fun _ e => no_part e⟩
theorem Parts.mwJz (n : Nat) : Parts.Statement (.mwJz n) :=
  fun h => ⟨fun _ e => Option.some.inj e ▸ laneOk_lt h, fun _ e => no_part e, fun _ e => no_part e⟩
theorem Parts.mwJnz (n : Nat) : Parts.Statement (.mwJnz n) :=
  fun h => ⟨fun _ e => Option.some.inj e ▸ laneOk_lt h, fun _ e => no_part e, fun _ e => no_part e⟩
theorem Parts.mwCall (n : Nat) : Parts.Statement (.mwCall n) :=
  fun h => ⟨fun _ e => Option.some.inj e ▸ laneOk_lt h, fun _ e => no_part e, fun _ e => no_part e⟩
theorem Parts.mwRet (n : Nat) : Parts.Statement (.mwRet n) :=
  fun h => ⟨fun _ e => Option.some.inj e ▸ laneOk_lt h, fun _ e => no_part e, fun _ e => no_part e⟩
theorem Parts.mwLoop (n : Nat) : Parts.Statement (.mwLoop n) :=
  fun h => ⟨fun _ e => Option.some.inj e ▸ laneOk_lt h, fun _ e => no_part e, fun _ e => no_part e⟩
theorem Parts.mwMovi (n : Nat) : Parts.Statement (.mwMovi n) :=
  fun h => ⟨fun _ e => Option.some.inj e ▸ laneOk_lt h, fun _ e => no_part e, fun _ e => no_part e⟩
theorem Parts.mwMovh (n : Nat) : Parts.Statement (.mwMovh n) :=
  fun h => ⟨fun _ e => Option.some.inj e ▸ laneOk_lt h, fun _ e => no_part e, fun _ e => no_part e⟩
theorem Parts.mwMov (n : Nat) : Parts.Statement (.mwMov n) :=
  fun h => ⟨fun _ e => Option.some.inj e ▸ laneOk_lt h, fun _ e => no_part e, fun _ e => no_part e⟩
theorem Parts.mwAdd (n : Nat) : Parts.Statement (.mwAdd n) :=
  fun h => ⟨fun _ e => Option.some.inj e ▸ laneOk_lt h, fun _ e => no_part e, fun _ e => no_part e⟩
theorem Parts.mwSub (n : Nat) : Parts.Statement (.mwSub n) :=
  fun h => ⟨fun _ e => Option.some.inj e ▸ laneOk_lt h, fun _ e => no_part e, fun _ e => no_part e⟩
theorem Parts.mwAnd (n : Nat) : Parts.Statement (.mwAnd n) :=
  fun h => ⟨fun _ e => Option.some.inj e ▸ laneOk_lt h, fun _ e => no_part e, fun _ e => no_part e⟩
theorem Parts.mwOr (n : Nat) : Parts.Statement (.mwOr n) :=
  fun h => ⟨fun _ e => Option.some.inj e ▸ laneOk_lt h, fun _ e => no_part e, fun _ e => no_part e⟩
theorem Parts.mwXor (n : Nat) : Parts.Statement (.mwXor n) :=
  fun h => ⟨fun _ e => Option.some.inj e ▸ laneOk_lt h, fun _ e => no_part e, fun _ e => no_part e⟩
theorem Parts.mwShl (n : Nat) : Parts.Statement (.mwShl n) :=
  fun h => ⟨fun _ e => Option.some.inj e ▸ laneOk_lt h, fun _ e => no_part e, fun _ e => no_part e⟩
theorem Parts.mwShr (n : Nat) : Parts.Statement (.mwShr n) :=
  fun h => ⟨fun _ e => Option.some.inj e ▸ laneOk_lt h, fun _ e => no_part e, fun _ e => no_part e⟩
theorem Parts.mwAddi (n : Nat) : Parts.Statement (.mwAddi n) :=
  fun h => ⟨fun _ e => Option.some.inj e ▸ laneOk_lt h, fun _ e => no_part e, fun _ e => no_part e⟩
theorem Parts.mwTst (n : Nat) : Parts.Statement (.mwTst n) :=
  fun h => ⟨fun _ e => Option.some.inj e ▸ laneOk_lt h, fun _ e => no_part e, fun _ e => no_part e⟩
theorem Parts.mwLdp (n : Nat) : Parts.Statement (.mwLdp n) :=
  fun h => ⟨fun _ e => Option.some.inj e ▸ laneOk_lt h, fun _ e => no_part e, fun _ e => no_part e⟩
theorem Parts.mwTmask (n : Nat) : Parts.Statement (.mwTmask n) :=
  fun h => ⟨fun _ e => Option.some.inj e ▸ laneOk_lt h, fun _ e => no_part e, fun _ e => no_part e⟩
theorem Parts.tmaskForcedClose (n : Nat) : Parts.Statement (.tmaskForcedClose n) :=
  fun h => ⟨fun _ e => Option.some.inj e ▸ laneOk_lt h, fun _ e => no_part e, fun _ e => no_part e⟩
theorem Parts.mwCe (n : Nat) : Parts.Statement (.mwCe n) :=
  fun h => ⟨fun _ e => Option.some.inj e ▸ laneOk_lt h, fun _ e => no_part e, fun _ e => no_part e⟩
theorem Parts.mwCeoff (n : Nat) : Parts.Statement (.mwCeoff n) :=
  fun h => ⟨fun _ e => Option.some.inj e ▸ laneOk_lt h, fun _ e => no_part e, fun _ e => no_part e⟩
theorem Parts.mwCmd (n : Nat) : Parts.Statement (.mwCmd n) :=
  fun h => ⟨fun _ e => Option.some.inj e ▸ laneOk_lt h, fun _ e => no_part e, fun _ e => no_part e⟩
theorem Parts.mwConf (n : Nat) : Parts.Statement (.mwConf n) :=
  fun h => ⟨fun _ e => Option.some.inj e ▸ laneOk_lt h, fun _ e => no_part e, fun _ e => no_part e⟩
theorem Parts.mwAdr (n : Nat) : Parts.Statement (.mwAdr n) :=
  fun h => ⟨fun _ e => Option.some.inj e ▸ laneOk_lt h, fun _ e => no_part e, fun _ e => no_part e⟩
theorem Parts.mwAdrc (n : Nat) : Parts.Statement (.mwAdrc n) :=
  fun h => ⟨fun _ e => Option.some.inj e ▸ laneOk_lt h, fun _ e => no_part e, fun _ e => no_part e⟩
theorem Parts.mwAdrr (n : Nat) : Parts.Statement (.mwAdrr n) :=
  fun h => ⟨fun _ e => Option.some.inj e ▸ laneOk_lt h, fun _ e => no_part e, fun _ e => no_part e⟩
theorem Parts.mwTw (n : Nat) : Parts.Statement (.mwTw n) :=
  fun h => ⟨fun _ e => Option.some.inj e ▸ laneOk_lt h, fun _ e => no_part e, fun _ e => no_part e⟩
theorem Parts.mwDly (n : Nat) : Parts.Statement (.mwDly n) :=
  fun h => ⟨fun _ e => Option.some.inj e ▸ laneOk_lt h, fun _ e => no_part e, fun _ e => no_part e⟩
theorem Parts.mwDin (n : Nat) : Parts.Statement (.mwDin n) :=
  fun h => ⟨fun _ e => Option.some.inj e ▸ laneOk_lt h, fun _ e => no_part e, fun _ e => no_part e⟩
theorem Parts.mwDout (n : Nat) : Parts.Statement (.mwDout n) :=
  fun h => ⟨fun _ e => Option.some.inj e ▸ laneOk_lt h, fun _ e => no_part e, fun _ e => no_part e⟩
theorem Parts.mwPin (n : Nat) : Parts.Statement (.mwPin n) :=
  fun h => ⟨fun _ e => Option.some.inj e ▸ laneOk_lt h, fun _ e => no_part e, fun _ e => no_part e⟩
theorem Parts.mwPout (n : Nat) (params : Word) : Parts.Statement (.mwPout n params) :=
  fun h => ⟨fun _ e => Option.some.inj e ▸ laneOk_lt h, fun _ e => no_part e, fun _ e => no_part e⟩
theorem Parts.mwStat (n : Nat) (status : Byte) : Parts.Statement (.mwStat n status) :=
  fun h => ⟨fun _ e => Option.some.inj e ▸ laneOk_lt h, fun _ e => no_part e, fun _ e => no_part e⟩
theorem Parts.mwWrb (n : Nat) (expired : Bool) : Parts.Statement (.mwWrb n expired) :=
  fun h => ⟨fun _ e => Option.some.inj e ▸ laneOk_lt h, fun _ e => no_part e, fun _ e => no_part e⟩
theorem Parts.rbNChange (n : Nat) (ce : Nat) (level : Bool) : Parts.Statement (.rbNChange n ce level) :=
  fun h => ⟨fun _ e => Option.some.inj e ▸ laneOk_lt (and_left h), fun _ e => no_part e, fun _ e => no_part e⟩
theorem Parts.statusPoll (n : Nat) (d : Nat) : Parts.Statement (.statusPoll n d) :=
  fun h => ⟨fun _ e => Option.some.inj e ▸ laneOk_lt (and_left h), fun _ e => no_part e, fun _ e => no_part e⟩
theorem Parts.dieReady (n : Nat) (d : Nat) : Parts.Statement (.dieReady n d) :=
  fun h => ⟨fun _ e => Option.some.inj e ▸ laneOk_lt (and_left h), fun _ e => no_part e, fun _ e => no_part e⟩
theorem Parts.operationTimeLimit (n : Nat) (d : Nat) (kind : LimitKind) : Parts.Statement (.operationTimeLimit n d kind) :=
  fun h => ⟨fun _ e => Option.some.inj e ▸ laneOk_lt (and_left h), fun _ e => no_part e, fun _ e => no_part e⟩
theorem Parts.dieTempPoll (n : Nat) (d : Nat) (reading : Int) : Parts.Statement (.dieTempPoll n d reading) :=
  fun h => ⟨fun _ e => Option.some.inj e ▸ laneOk_lt (and_left h), fun _ e => no_part e, fun _ e => no_part e⟩
theorem Parts.retrainDeferExpiry (n : Nat) (d : Nat) : Parts.Statement (.retrainDeferExpiry n d) :=
  fun h => ⟨fun _ e => Option.some.inj e ▸ laneOk_lt (and_left h), fun _ e => no_part e, fun _ e => no_part e⟩
theorem Parts.hardDecodeDone (n : Nat) (cw : Nat) (out : List Byte) (unsat : Nat) : Parts.Statement (.hardDecodeDone n cw out unsat) :=
  fun h => ⟨fun _ e => Option.some.inj e ▸ laneOk_lt h, fun _ e => no_part e, fun _ e => no_part e⟩
theorem Parts.softDecodeStart (j : Nat) (d : Nat) : Parts.Statement (.softDecodeStart j d) :=
  fun h => ⟨fun _ e => no_part e, fun _ e => no_part e, fun _ e => Option.some.inj e ▸ juncOk_lt (and_left h)⟩
theorem Parts.softDecodeDone (j : Nat) (d : Nat) (out : List Byte) : Parts.Statement (.softDecodeDone j d out) :=
  fun h => ⟨fun _ e => no_part e, fun _ e => no_part e, fun _ e => Option.some.inj e ▸ juncOk_lt (and_left h)⟩
theorem Parts.cwJobFinish (j : Nat) (c : Nat) : Parts.Statement (.cwJobFinish j c) :=
  fun h => ⟨fun _ e => no_part e, fun _ e => no_part e, fun _ e => Option.some.inj e ▸ juncOk_lt (and_left h)⟩
theorem Parts.machineCheck (n : Nat) : Parts.Statement (.machineCheck n) :=
  fun h => ⟨fun _ e => Option.some.inj e ▸ laneOk_lt h, fun _ e => no_part e, fun _ e => no_part e⟩
theorem Parts.watchdogExpiry (n : Nat) : Parts.Statement (.watchdogExpiry n) :=
  fun h => ⟨fun _ e => Option.some.inj e ▸ laneOk_lt h, fun _ e => no_part e, fun _ e => no_part e⟩
theorem Parts.controlStoreReload (n : Nat) (errs : List ReadErr) : Parts.Statement (.controlStoreReload n errs) :=
  fun h => ⟨fun _ e => Option.some.inj e ▸ laneOk_lt (and_left h), fun _ e => no_part e, fun _ e => no_part e⟩
theorem Parts.laneReset (n : Nat) (v : Word) (sec : Bool) : Parts.Statement (.laneReset n v sec) :=
  fun h => ⟨fun _ e => Option.some.inj e ▸ laneOk_lt h, fun _ e => no_part e, fun _ e => no_part e⟩
theorem Parts.pvCfgWrite (p : Nat) (v : Word) (sec : Bool) : Parts.Statement (.pvCfgWrite p v sec) :=
  fun h => ⟨fun _ e => no_part e, fun _ e => Option.some.inj e ▸ pavOk_lt h, fun _ e => no_part e⟩
theorem Parts.pvReset (p : Nat) (v : Word) (sec : Bool) : Parts.Statement (.pvReset p v sec) :=
  fun h => ⟨fun _ e => no_part e, fun _ e => Option.some.inj e ▸ pavOk_lt h, fun _ e => no_part e⟩
theorem Parts.pvResetDone (p : Nat) : Parts.Statement (.pvResetDone p) :=
  fun h => ⟨fun _ e => no_part e, fun _ e => Option.some.inj e ▸ pavOk_lt h, fun _ e => no_part e⟩
theorem Parts.pvAdmEnable (p : Nat) (v : Word) (sec : Bool) : Parts.Statement (.pvAdmEnable p v sec) :=
  fun h => ⟨fun _ e => no_part e, fun _ e => Option.some.inj e ▸ pavOk_lt h, fun _ e => no_part e⟩
theorem Parts.pvAdmDisable (p : Nat) (v : Word) (sec : Bool) : Parts.Statement (.pvAdmDisable p v sec) :=
  fun h => ⟨fun _ e => no_part e, fun _ e => Option.some.inj e ▸ pavOk_lt h, fun _ e => no_part e⟩
theorem Parts.pvAdmResume (p : Nat) (v : Word) (sec : Bool) : Parts.Statement (.pvAdmResume p v sec) :=
  fun h => ⟨fun _ e => no_part e, fun _ e => Option.some.inj e ▸ pavOk_lt h, fun _ e => no_part e⟩
theorem Parts.sysStageWrite (v : Word64) (size8 : Bool) (sec : Bool) : Parts.Statement (.sysStageWrite v size8 sec) :=
  fun _ => ⟨fun _ e => no_part e, fun _ e => no_part e, fun _ e => no_part e⟩
theorem Parts.sysUrecWrite (v : Word64) (size8 : Bool) (sec : Bool) : Parts.Statement (.sysUrecWrite v size8 sec) :=
  fun _ => ⟨fun _ e => no_part e, fun _ e => no_part e, fun _ e => no_part e⟩
theorem Parts.familyTableWrite (off : Nat) (bmask : BitVec 8) (v : Word64) (sec : Bool) : Parts.Statement (.familyTableWrite off bmask v sec) :=
  fun _ => ⟨fun _ e => no_part e, fun _ e => no_part e, fun _ e => no_part e⟩
theorem Parts.cwLoad (j : Nat) (c : Nat) (v : Word) (sec : Bool) : Parts.Statement (.cwLoad j c v sec) :=
  fun h => ⟨fun _ e => no_part e, fun _ e => no_part e, fun _ e => Option.some.inj e ▸ juncOk_lt (and_left h)⟩
theorem Parts.cwDisable (j : Nat) (c : Nat) (v : Word) (sec : Bool) : Parts.Statement (.cwDisable j c v sec) :=
  fun h => ⟨fun _ e => no_part e, fun _ e => no_part e, fun _ e => Option.some.inj e ▸ juncOk_lt (and_left h)⟩
theorem Parts.cwDisableClear (j : Nat) (c : Nat) (v : Word) (sec : Bool) : Parts.Statement (.cwDisableClear j c v sec) :=
  fun h => ⟨fun _ e => no_part e, fun _ e => no_part e, fun _ e => Option.some.inj e ▸ juncOk_lt (and_left h)⟩
theorem Parts.cwProgramWrite (j : Nat) (g : Nat) (i : Nat) (bmask : BitVec 8) (v : Word64) (sec : Bool) : Parts.Statement (.cwProgramWrite j g i bmask v sec) :=
  fun h => ⟨fun _ e => no_part e, fun _ e => no_part e, fun _ e => Option.some.inj e ▸ juncOk_lt (and_left (and_left h))⟩
theorem Parts.cwEventWrite (j : Nat) (set : Bool) (v : Word) (sec : Bool) : Parts.Statement (.cwEventWrite j set v sec) :=
  fun h => ⟨fun _ e => no_part e, fun _ e => no_part e, fun _ e => Option.some.inj e ▸ juncOk_lt h⟩
theorem Parts.cwMove (j : Nat) (c : Nat) : Parts.Statement (.cwMove j c) :=
  fun h => ⟨fun _ e => no_part e, fun _ e => no_part e, fun _ e => Option.some.inj e ▸ juncOk_lt (and_left h)⟩
theorem Parts.cwLoop (j : Nat) (c : Nat) : Parts.Statement (.cwLoop j c) :=
  fun h => ⟨fun _ e => no_part e, fun _ e => no_part e, fun _ e => Option.some.inj e ▸ juncOk_lt (and_left h)⟩
theorem Parts.cwWait (j : Nat) (c : Nat) : Parts.Statement (.cwWait j c) :=
  fun h => ⟨fun _ e => no_part e, fun _ e => no_part e, fun _ e => Option.some.inj e ▸ juncOk_lt (and_left h)⟩
theorem Parts.cwSignal (j : Nat) (c : Nat) : Parts.Statement (.cwSignal j c) :=
  fun h => ⟨fun _ e => no_part e, fun _ e => no_part e, fun _ e => Option.some.inj e ▸ juncOk_lt (and_left h)⟩
theorem Parts.cwEnd (j : Nat) (c : Nat) : Parts.Statement (.cwEnd j c) :=
  fun h => ⟨fun _ e => no_part e, fun _ e => no_part e, fun _ e => Option.some.inj e ▸ juncOk_lt (and_left h)⟩
theorem Parts.cwDrainComplete (j : Nat) (c : Nat) : Parts.Statement (.cwDrainComplete j c) :=
  fun h => ⟨fun _ e => no_part e, fun _ e => no_part e, fun _ e => Option.some.inj e ▸ juncOk_lt (and_left h)⟩
theorem Parts.icClaim (t : Nat) (sec : Bool) : Parts.Statement (.icClaim t sec) :=
  fun _ => ⟨fun _ e => no_part e, fun _ e => no_part e, fun _ e => no_part e⟩
theorem Parts.icComplete (t : Nat) (v : Word) (sec : Bool) : Parts.Statement (.icComplete t v sec) :=
  fun _ => ⟨fun _ e => no_part e, fun _ e => no_part e, fun _ e => no_part e⟩
theorem Parts.moderationTimeout (src : Nat) : Parts.Statement (.moderationTimeout src) :=
  fun _ => ⟨fun _ e => no_part e, fun _ e => no_part e, fun _ e => no_part e⟩
theorem Parts.icSrcCfgWrite (src : Nat) (bmask : BitVec 8) (v : Word64) (sec : Bool) : Parts.Statement (.icSrcCfgWrite src bmask v sec) :=
  fun _ => ⟨fun _ e => no_part e, fun _ e => no_part e, fun _ e => no_part e⟩
theorem Parts.vlogPop (v : Word) (sec : Bool) : Parts.Statement (.vlogPop v sec) :=
  fun _ => ⟨fun _ e => no_part e, fun _ e => no_part e, fun _ e => no_part e⟩
theorem Parts.keyArm (v : Word) (sec : Bool) : Parts.Statement (.keyArm v sec) :=
  fun _ => ⟨fun _ e => no_part e, fun _ e => no_part e, fun _ e => no_part e⟩
theorem Parts.keyZeroise (v : Word) (sec : Bool) : Parts.Statement (.keyZeroise v sec) :=
  fun _ => ⟨fun _ e => no_part e, fun _ e => no_part e, fun _ e => no_part e⟩
theorem Parts.wrapKeyLoad (v : Word) (sec : Bool) : Parts.Statement (.wrapKeyLoad v sec) :=
  fun _ => ⟨fun _ e => no_part e, fun _ e => no_part e, fun _ e => no_part e⟩
theorem Parts.wrapKeyClear (v : Word) (sec : Bool) : Parts.Statement (.wrapKeyClear v sec) :=
  fun _ => ⟨fun _ e => no_part e, fun _ e => no_part e, fun _ e => no_part e⟩
theorem Parts.rngReseed (v : Word) (sec : Bool) : Parts.Statement (.rngReseed v sec) :=
  fun _ => ⟨fun _ e => no_part e, fun _ e => no_part e, fun _ e => no_part e⟩
theorem Parts.rngRestart (v : Word) (sec : Bool) : Parts.Statement (.rngRestart v sec) :=
  fun _ => ⟨fun _ e => no_part e, fun _ e => no_part e, fun _ e => no_part e⟩
theorem Parts.rngHealthFail : Parts.Statement .rngHealthFail :=
  fun _ => ⟨fun _ e => no_part e, fun _ e => no_part e, fun _ e => no_part e⟩
theorem Parts.rngDataRead (sec : Bool) : Parts.Statement (.rngDataRead sec) :=
  fun _ => ⟨fun _ e => no_part e, fun _ e => no_part e, fun _ e => no_part e⟩
theorem Parts.attStart (v : Word) (sec : Bool) : Parts.Statement (.attStart v sec) :=
  fun _ => ⟨fun _ e => no_part e, fun _ e => no_part e, fun _ e => no_part e⟩
theorem Parts.cfSequenceStep (off : Nat) (bmask : BitVec 8) (v : Word64) (sec : Bool) : Parts.Statement (.cfSequenceStep off bmask v sec) :=
  fun _ => ⟨fun _ e => no_part e, fun _ e => no_part e, fun _ e => no_part e⟩
theorem Parts.cfSequenceTimeout : Parts.Statement .cfSequenceTimeout :=
  fun _ => ⟨fun _ e => no_part e, fun _ e => no_part e, fun _ e => no_part e⟩
theorem Parts.wordProg (data : Word64) (sec : Bool) : Parts.Statement (.wordProg data sec) :=
  fun _ => ⟨fun _ e => no_part e, fun _ e => no_part e, fun _ e => no_part e⟩
theorem Parts.sectorErase (addr : Word) (sec : Bool) : Parts.Statement (.sectorErase addr sec) :=
  fun _ => ⟨fun _ e => no_part e, fun _ e => no_part e, fun _ e => no_part e⟩
theorem Parts.rowProg (data : Word64) (sec : Bool) : Parts.Statement (.rowProg data sec) :=
  fun _ => ⟨fun _ e => no_part e, fun _ e => no_part e, fun _ e => no_part e⟩
theorem Parts.protProg (data : Word64) (sec : Bool) : Parts.Statement (.protProg data sec) :=
  fun _ => ⟨fun _ e => no_part e, fun _ e => no_part e, fun _ e => no_part e⟩
theorem Parts.protErase (addr : Word) (sec : Bool) : Parts.Statement (.protErase addr sec) :=
  fun _ => ⟨fun _ e => no_part e, fun _ e => no_part e, fun _ e => no_part e⟩
theorem Parts.protLock (data : Word64) (sec : Bool) : Parts.Statement (.protLock data sec) :=
  fun _ => ⟨fun _ e => no_part e, fun _ e => no_part e, fun _ e => no_part e⟩
theorem Parts.protUnlock (data : Word64) (sec : Bool) : Parts.Statement (.protUnlock data sec) :=
  fun _ => ⟨fun _ e => no_part e, fun _ e => no_part e, fun _ e => no_part e⟩
theorem Parts.cfCommandEnd (ok : Bool) : Parts.Statement (.cfCommandEnd ok) :=
  fun _ => ⟨fun _ e => no_part e, fun _ e => no_part e, fun _ e => no_part e⟩
theorem Parts.cfProtClose (v : Word) (sec : Bool) : Parts.Statement (.cfProtClose v sec) :=
  fun _ => ⟨fun _ e => no_part e, fun _ e => no_part e, fun _ e => no_part e⟩
theorem Parts.cfWindowRead (off : Nat) (size8 : Bool) (sec : Bool) (corr : Nat) (unc : Bool) : Parts.Statement (.cfWindowRead off size8 sec corr unc) :=
  fun _ => ⟨fun _ e => no_part e, fun _ e => no_part e, fun _ e => no_part e⟩
theorem Parts.pmReqPs2 (v : Word) (sec : Bool) : Parts.Statement (.pmReqPs2 v sec) :=
  fun _ => ⟨fun _ e => no_part e, fun _ e => no_part e, fun _ e => no_part e⟩
theorem Parts.pmReqPs3 (v : Word) (sec : Bool) : Parts.Statement (.pmReqPs3 v sec) :=
  fun _ => ⟨fun _ e => no_part e, fun _ e => no_part e, fun _ e => no_part e⟩
theorem Parts.pmReqCancel (v : Word) (sec : Bool) : Parts.Statement (.pmReqCancel v sec) :=
  fun _ => ⟨fun _ e => no_part e, fun _ e => no_part e, fun _ e => no_part e⟩
theorem Parts.ps2Entry : Parts.Statement .ps2Entry :=
  fun _ => ⟨fun _ e => no_part e, fun _ e => no_part e, fun _ e => no_part e⟩
theorem Parts.ps2Exit : Parts.Statement .ps2Exit :=
  fun _ => ⟨fun _ e => no_part e, fun _ e => no_part e, fun _ e => no_part e⟩
theorem Parts.ps3Entry : Parts.Statement .ps3Entry :=
  fun _ => ⟨fun _ e => no_part e, fun _ e => no_part e, fun _ e => no_part e⟩
theorem Parts.pmWake (v : Word) (sec : Bool) : Parts.Statement (.pmWake v sec) :=
  fun _ => ⟨fun _ e => no_part e, fun _ e => no_part e, fun _ e => no_part e⟩
theorem Parts.atriskRelease (v : Word) (sec : Bool) : Parts.Statement (.atriskRelease v sec) :=
  fun _ => ⟨fun _ e => no_part e, fun _ e => no_part e, fun _ e => no_part e⟩
theorem Parts.atriskLaneRelease (hi : Bool) (v : Word) (sec : Bool) : Parts.Statement (.atriskLaneRelease hi v sec) :=
  fun _ => ⟨fun _ e => no_part e, fun _ e => no_part e, fun _ e => no_part e⟩
theorem Parts.scrubWord (lane : Option Nat) (find : Finding) (mem : Nat) (index : Nat) (synd : Nat) (lapEnd : Bool) : Parts.Statement (.scrubWord lane find mem index synd lapEnd) :=
  fun _ => ⟨fun _ e => no_part e, fun _ e => no_part e, fun _ e => no_part e⟩
theorem Parts.mpTestArm (v : Word) (sec : Bool) : Parts.Statement (.mpTestArm v sec) :=
  fun _ => ⟨fun _ e => no_part e, fun _ e => no_part e, fun _ e => no_part e⟩
theorem Parts.mpTestGo (v : Word) (sec : Bool) : Parts.Statement (.mpTestGo v sec) :=
  fun _ => ⟨fun _ e => no_part e, fun _ e => no_part e, fun _ e => no_part e⟩
theorem Parts.fabricCredit (port : Option Nat) (chan : Nat) : Parts.Statement (.fabricCredit port chan) :=
  fun _ => ⟨fun _ e => no_part e, fun _ e => no_part e, fun _ e => no_part e⟩
theorem Parts.resetDeassert (errs : List ReadErr) (rowBad : Bool) : Parts.Statement (.resetDeassert errs rowBad) :=
  fun _ => ⟨fun _ e => no_part e, fun _ e => no_part e, fun _ e => no_part e⟩
theorem Parts.vddCoreRestored (errs : List ReadErr) (rowBad : Bool) : Parts.Statement (.vddCoreRestored errs rowBad) :=
  fun _ => ⟨fun _ e => no_part e, fun _ e => no_part e, fun _ e => no_part e⟩
theorem Parts.comparator105cChange (sensor : Nat) (high : Bool) : Parts.Statement (.comparator105cChange sensor high) :=
  fun _ => ⟨fun _ e => no_part e, fun _ e => no_part e, fun _ e => no_part e⟩
theorem Parts.pvSrcTgtWrite (p : Nat) (v : Word) (sec : Bool) : Parts.Statement (.pvSrcTgtWrite p v sec) :=
  fun h => ⟨fun _ e => no_part e, fun _ e => Option.some.inj e ▸ pavOk_lt h, fun _ e => no_part e⟩
theorem Parts.rcRegisterRead (addr : Nat) (size8 : Bool) (sec : Bool) : Parts.Statement (.rcRegisterRead addr size8 sec) :=
  fun _ => ⟨fun _ e => no_part e, fun _ e => no_part e, fun _ e => no_part e⟩
theorem Parts.drbgInstantiated : Parts.Statement .drbgInstantiated :=
  fun _ => ⟨fun _ e => no_part e, fun _ e => no_part e, fun _ e => no_part e⟩

end Sys2Proof.Laws
end

