-- ==== Sys2Proof/Laws/Place.lean ====
section
/-! SUPPORT. What the lane scheduler and the tick can reach: the lanes, the dies, the codewords, the token buckets, registers and the
free values, and nothing else of the block. -/

namespace Sys2Proof.Machine

open Sys2Proof

/-- The block without what the lane scheduler reaches. -/
def Block.away (b : Block) : Block :=
  { b with regs := [], lanes := [], dies := [], cws := [], juncs := [], toll := (Block.inReset0 .lanes64).toll, free := 0 }

@[simp] theorem rput_away (b : Block) (a : Nat) (w : Word) : (rput b a w).away = b.away := rfl
@[simp] theorem rset1_away (b : Block) (a i : Nat) : (rset1 b a i).away = b.away := rfl
@[simp] theorem rclr1_away (b : Block) (a i : Nat) : (rclr1 b a i).away = b.away := rfl
@[simp] theorem rputF_away (b : Block) (a hi lo v : Nat) : (rputF b a hi lo v).away = b.away := rfl
@[simp] theorem rputB_away (b : Block) (a i : Nat) (v : Bool) : (rputB b a i v).away = b.away := by
  unfold rputB; split <;> rfl
@[simp] theorem rinc_away (b : Block) (a hi lo k : Nat) : (rinc b a hi lo k).away = b.away := rfl
@[simp] theorem rmax_away (b : Block) (a hi lo v : Nat) : (rmax b a hi lo v).away = b.away := rfl
@[simp] theorem updLane_away (b : Block) (n : Nat) (f : Lane → Lane) : (updLane b n f).away = b.away := rfl
@[simp] theorem updDie_away (b : Block) (n d : Nat) (f : Die → Die) : (updDie b n d f).away = b.away := rfl
@[simp] theorem updCw_away (b : Block) (c : Nat) (f : Cw → Cw) : (updCw b c f).away = b.away := rfl
@[simp] theorem updJunc_away (b : Block) (j : Nat) (f : Junction → Junction) : (updJunc b j f).away = b.away := rfl
@[simp] theorem setMap_away (b : Block) (n d hi lo v : Nat) : (setMap b n d hi lo v).away = b.away := rfl
@[simp] theorem addTodo_away (b : Block) (n : Nat) (r : Routine) : (addTodo b n r).away = b.away := rfl
@[simp] theorem updOpen_away (b : Block) (n d u : Nat) (f : OpenUnit → OpenUnit) : (updOpen b n d u f).away = b.away := rfl
@[simp] theorem freeOf_away (w : Nat) (b : Block) : (freeOf w b).2.away = b.away := rfl
@[simp] theorem noteFeats_away (b : Block) (n d : Nat) (l : List (Nat × Word)) : (noteFeats b n d l).away = b.away := rfl

/-- A run of effects that each stay away stays away. -/
theorem each_away {α : Type} (f : Block → α → Block) (h : ∀ b x, (f b x).away = b.away) :
    ∀ (l : List α) (b : Block), (each l f b).away = b.away
  | [], _ => rfl
  | x :: l, b => (each_away f h l (f b x)).trans (h b x)

/-- A run of placings that each stay away stays away. -/
theorem foldl_away (f : Placing → Routine → Placing) (h : ∀ p r, (f p r).blk.away = p.blk.away) :
    ∀ (l : List Routine) (p : Placing), (l.foldl f p).blk.away = p.blk.away
  | [], _ => rfl
  | x :: l, p => (foldl_away f h l (f p x)).trans (h p x)

@[simp] theorem lookup_away (b : Block) (c : Nat) : (lookup b c).away = b.away := by
  unfold lookup; dsimp only; split <;> simp
theorem releaseUntil_away (p : Block → Bool) : ∀ (k n : Nat) (b : Block), (releaseUntil p k n b).away = b.away
  | 0, _, _ => rfl
  | k + 1, n, b => by
    unfold releaseUntil; dsimp only
    split
    · rfl
    · split
      · rfl
      · rw [releaseUntil_away p k, rinc_away, updLane_away]
@[simp] theorem releaseHeld_away (n k : Nat) (b : Block) : (releaseHeld n k b).away = b.away := releaseUntil_away _ _ _ _
@[simp] theorem prepRead_away (b : Block) (n : Nat) (r : Routine) (l : List Nat) : (prepRead b n r l).2.away = b.away := by
  unfold prepRead; dsimp only
  rw [each_away _ (by intro b x; simp), noteFeats_away, apply_ite Block.away, addTodo_away, ite_self, releaseHeld_away,
    each_away _ lookup_away, updLane_away]
@[simp] theorem prep_away (b : Block) (n : Nat) (r : Routine) : (prep b n r).2.away = b.away := by
  unfold prep; split <;> simp [prepVerify]
@[simp] theorem readied_away (b : Block) (n : Nat) (r : Routine) : (readied b n r).2.away = b.away := by
  unfold readied; dsimp only; rw [prep_away, updLane_away]
@[simp] theorem chargeBucket_away (b : Block) (j c : Nat) (x : Bool) : (chargeBucket b j c x).away = b.away := by
  unfold chargeBucket; dsimp only; split <;> rfl
@[simp] theorem noteStall_away (n : Nat) (p : Placing) (r : Routine) : (noteStall n p r).blk.away = p.blk.away := by
  unfold noteStall; dsimp only; rw [updLane_away]; split <;> simp

/-- Placing a routine reaches no more than that. -/
theorem tryPlace_away (n : Nat) (p : Placing) (r : Routine) : (tryPlace n p r).blk.away = p.blk.away := by
  unfold tryPlace; dsimp only
  split
  · rfl
  · split
    · rfl
    · split
      · simp
      · cases r.charge <;> simp
@[simp] theorem wrrVisit_away (n : Nat) (b : Block) : (wrrVisit n b).away = b.away := by
  unfold wrrVisit; dsimp only; split
  · simp
  · split <;> simp
theorem placeService_away : ∀ (k n : Nat) (p : Placing), (placeService k n p).blk.away = p.blk.away
  | 0, _, _ => rfl
  | k + 1, n, p => by
    unfold placeService; dsimp only; split
    · exact foldl_away _ (tryPlace_away n) _ _
    · rw [placeService_away k]; simp only [wrrVisit_away]; exact foldl_away _ (tryPlace_away n) _ _
/-- The block without what a suspension decision reaches either: the mark on a READ refused (R218). -/
def Block.far (b : Block) : Block := { b.away with entries := [] }
theorem far_of_away {x y : Block} (h : x.away = y.away) : x.far = y.far := by unfold Block.far; rw [h]
/-- A run of effects that each stay far stays far. -/
theorem each_far {α : Type} (f : Block → α → Block) (h : ∀ b x, (f b x).far = b.far) :
    ∀ (l : List α) (b : Block), (each l f b).far = b.far
  | [], _ => rfl
  | x :: l, b => (each_far f h l (f b x)).trans (h b x)
theorem foldl_far (f : Placing → Routine → Placing) (h : ∀ p r, (f p r).blk.far = p.blk.far) :
    ∀ (l : List Routine) (p : Placing), (l.foldl f p).blk.far = p.blk.far
  | [], _ => rfl
  | x :: l, p => (foldl_far f h l (f p x)).trans (h p x)
@[simp] theorem barRead_far (b : Block) (n e i : Nat) : (barRead b n e i).far = b.far := by
  unfold barRead; split <;> rfl
@[simp] theorem placeSuspend_far (b : Block) (n d : Nat) (o : DieOp) : (placeSuspend b n d o).far = b.far := by
  unfold placeSuspend; dsimp only; split <;> rfl
@[simp] theorem suspendFor_far (n d : Nat) (b : Block) (x : Nat × Nat) : (suspendFor n d b x).far = b.far := by
  unfold suspendFor; dsimp only
  split
  · rfl
  · split
    · rfl
    · split
      · rfl
      · split
        · simp
        · split
          · rw [barRead_far]; rfl
          · simp
/-- A suspension decision places a suspend command, defers it, or marks the READ (R217, R218). -/
@[simp] theorem suspendCheck_far (n : Nat) (b : Block) : (suspendCheck n b).far = b.far := by
  unfold suspendCheck; split
  · rfl
  · exact each_far _ (fun b d => each_far _ (suspendFor_far n d) _ b) _ b
/-- A training that begins marks its die and its TRAIN (R194, R249). -/
@[simp] theorem beginTrain_far (n : Nat) (b : Block) (d : Nat) : (beginTrain n b d).far = b.far := by
  unfold beginTrain; split
  · rfl
  · dsimp only; split <;> rfl
@[simp] theorem beginTrains_far (n : Nat) (b : Block) : (beginTrains n b).far = b.far := each_far _ (beginTrain_far n) _ b
/-- Placing a lane's work reaches no more than that (R206). -/
@[simp] theorem placeAll_far (n : Nat) (p : Placing) : (placeAll n p).blk.far = p.blk.far := by
  have h : ∀ (l : List Routine) (p : Placing), (l.foldl (tryPlace n) p).blk.far = p.blk.far :=
    foldl_far _ (fun p r => far_of_away (tryPlace_away n p r))
  unfold placeAll Placing.suspend; dsimp only
  rw [suspendCheck_far, h]; dsimp only
  rw [suspendCheck_far, far_of_away (placeService_away _ _ _)]; dsimp only
  rw [suspendCheck_far,
    foldl_far _ (by intro p r; split; exact far_of_away (tryPlace_away n p r); rfl), beginTrains_far]
/-- A top-up places work, and reaches no more than that (R204). -/
@[simp] theorem topUp_far (n : Nat) (b : Block) : (topUp n b).far = b.far := by
  unfold topUp; split
  · rw [placeAll_far]; rfl
  · rfl
/-- Nor does a routine of its own that is placed as a top-up. -/
@[simp] theorem topUpOne_far (n : Nat) (r : Routine) (b : Block) : (topUpOne n r b).far = b.far := by
  unfold topUpOne; dsimp only; split
  · rw [far_of_away (tryPlace_away _ _ _)]; rfl
  · rfl
/-- A die that resumes has its resume command placed (R220). -/
@[simp] theorem resumeCheck_far (n d : Nat) (b : Block) : (resumeCheck n d b).far = b.far := by
  unfold resumeCheck placeResume; dsimp only; split
  · split
    · rfl
    · split
      · rfl
      · exact topUpOne_far _ _ _
  · rfl
@[simp] theorem resumeAll_far (n : Nat) (b : Block) : (resumeAll n b).far = b.far := each_far _ (fun b d => resumeCheck_far n d b) _ b
/-- Nor does building the next frame (R204). -/
@[simp] theorem frameBuild_far (n : Nat) (b : Block) : (frameBuild n b).far = b.far := by
  unfold frameBuild; split
  · rfl
  · dsimp only; rw [resumeAll_far, placeAll_far]; unfold Placing.suspend; dsimp only; rw [suspendCheck_far]; rfl
/-- Taking a pass off its lane's loading reaches the lane alone. -/
@[simp] theorem unloadPass_away (n : Nat) (r : Routine) (b : Block) : (unloadPass n r b).away = b.away := by
  unfold unloadPass; split <;> rfl
/-- A routine that goes back reaches its codewords, its die and its lane. -/
@[simp] theorem putBack_away (n : Nat) (r : Routine) (b : Block) : (putBack n r b).away = b.away := by
  unfold putBack; dsimp only
  rw [addTodo_away, updDie_away, unloadPass_away]
  split
  · exact each_away _ (by intro b x; simp) _ _
  · rfl
/-- A lane's next frame is committed within the lane, its dies and its codewords (R52, R55). -/
@[simp] theorem commitNext_away (n : Nat) (b : Block) : (commitNext n b).away = b.away := by
  unfold commitNext; dsimp only
  exact (each_away _ (by intro b r; simp) _ _).trans rfl
@[simp] theorem saveWords_away (b : Block) (w : Bool) (q : Seq) : (saveWords b w q).2.away = b.away := by
  unfold saveWords; dsimp only
  have h : ∀ z : Bool × Bool, Block.away (if z.2 then freeOf 32 (if z.1 then freeOf 32 b else (0, b)).2
      else (0, (if z.1 then freeOf 32 b else (0, b)).2)).2 = b.away := by
    rintro ⟨x, y⟩
    cases x <;> cases y <;> rfl
  exact h _
@[simp] theorem takeTrap_away (n : Nat) (b : Block) : (takeTrap n b).away = b.away := by
  unfold takeTrap; split
  · rw [rinc_away]; unfold saveFrame; split <;> simp
  · rfl
@[simp] theorem laneTick_away (n : Nat) (b : Block) : (laneTick n b).away = b.away := by
  unfold laneTick; dsimp only
  split
  · rfl
  · rw [apply_ite Block.away]
    simp only [updLane_away, commitNext_away, takeTrap_away, ite_self]
    rw [apply_ite Block.away]
    simp only [rmax_away, freeOf_away, ite_self]
    split <;> simp
@[simp] theorem noteBand_away (b : Block) (n d : Nat) : (noteBand b n d).away = b.away := by unfold noteBand; split <;> simp
@[simp] theorem evalBand_away (n d : Nat) (b : Block) : (evalBand n d b).away = b.away := by
  unfold evalBand; split <;> simp
@[simp] theorem laneBands_away (n : Nat) (b : Block) : (laneBands n b).away = b.away := by
  unfold laneBands; split
  · rfl
  · exact each_away _ (by intro b x; simp) _ _
@[simp] theorem refill_away (b : Block) : (refill b).away = b.away := each_away _ (by intro b x; simp) _ _
@[simp] theorem tollTick_away (b : Block) : (tollTick b).away = b.away := by
  unfold tollTick; dsimp only; rw [refill_away, apply_ite Block.away, rset1_away, ite_self]; rfl

@[simp] theorem notePeak_away (b : Block) : (notePeak b).away = b.away := by
  unfold notePeak; split
  · split <;> simp
  · rfl

/-- Reading the sensors sets their readings (R35), and takes the period in (R43). -/
theorem readSensors_away (t0 t1 t2 t3 : Int) (b : Block) : (readSensors t0 t1 t2 t3 b).away =
    { b.away with sensors := [sensorReading t0, sensorReading t1, sensorReading t2, sensorReading t3] } := by
  unfold readSensors noteCooling
  dsimp only
  rw [rputB_away, notePeak_away, rputB_away]
  split <;> rfl
theorem takePeriod_away (b : Block) : (takePeriod b).away = { b.away with newPeriod := none } := by
  unfold takePeriod; split
  · rfl
  · rename_i h; simp [Block.away, h]

/-- With no planted word the accesses of a tick find nothing (R461). -/
theorem readPlanted_nil (p : Planted → Bool) (b : Block) (h : b.planted = []) : readPlanted p b = b := by
  unfold readPlanted; rw [h]; rfl

/-- What a tick sets (R41, R42): the milepost, the period, the sensors; the rest of the block only as the lanes' work changes it, where the
test mode has planted no word. -/
theorem tick_away (t0 t1 t2 t3 : Int) (b : Block) (h : b.inReset = false) (k : b.ticking = true) (p : b.planted = []) :
    (tick t0 t1 t2 t3 b).away = Block.away { b with
      milepost := b.milepost + 1, newPeriod := none
      sensors := [sensorReading t0, sensorReading t1, sensorReading t2, sensorReading t3] } := by
  have q : ∀ x : Block, x.away = Block.away { b with
      milepost := b.milepost + 1, newPeriod := none
      sensors := [sensorReading t0, sensorReading t1, sensorReading t2, sensorReading t3] } → tickReads x = x := fun x hx =>
    readPlanted_nil _ _ ((congrArg Block.planted hx).trans p)
  unfold tick
  rw [if_neg (by simp [h, k])]
  dsimp only
  have e : Block.away (if (readSensors t0 t1 t2 t3 (takePeriod { b with milepost := b.milepost + 1 })).lxReady &&
      !faulted (readSensors t0 t1 t2 t3 (takePeriod { b with milepost := b.milepost + 1 })) then
        tollTick (readSensors t0 t1 t2 t3 (takePeriod { b with milepost := b.milepost + 1 }))
      else readSensors t0 t1 t2 t3 (takePeriod { b with milepost := b.milepost + 1 })) = Block.away { b with
      milepost := b.milepost + 1, newPeriod := none
      sensors := [sensorReading t0, sensorReading t1, sensorReading t2, sensorReading t3] } := by
    rw [apply_ite Block.away, tollTick_away, ite_self, readSensors_away, takePeriod_away]
    rfl
  rw [q _ e, each_away _ (by intro b x; simp), each_away _ (by intro b x; simp), e]

end Sys2Proof.Machine
end

