-- ==== Sys2Proof/Laws/Run.lean ====
section
/-! SUPPORT. The shared operations that carry a command to its effect, each with what it answers: an effect on the block, a
register access at the slave port, a microword, an instruction of a work entry and an admin instruction. -/

namespace Sys2Proof.Machine

open Sys2Proof

/-- An effect on the block is the next state, with the interrupt router settled. -/
theorem act_eq (s : State) (f : Block → Block) : s.act f = .next (after s (f s.blk)) := rfl

/-- Settling the router answers a next state. -/
theorem settled_eq (s : State) : s.settled = .next (after s s.blk) := rfl

@[simp] theorem after_nv (s : State) (b : Block) : (after s b).nv = s.nv := rfl
@[simp] theorem after_pending (s : State) (b : Block) : (after s b).pending = s.pending := rfl
@[simp] theorem after_blk (s : State) (b : Block) : (after s b).blk = settle b := rfl

/-- A secure access of a page of the build is admitted, and changes nothing by being checked. -/
theorem admitted_of_takes {s : State} {a : Nat} (h : PortTakes s a) (write : Bool) :
    admitted s.blk a write true = (true, s.blk) := by
  have e : (!s.blk.lxReady && !earlyPage a) = false := by
    rcases h.2.1 with h | h <;> simp [h]
  simp [admitted, slaveGate, e, h.2.2.1, h.2.2.2]

/-- A secure write of the right size at the port: its effect, and the answer DONE. -/
theorem portWrite_of_takes {s : State} {a : Nat} {mask : BitVec 8} (h : PortTakes s a) (hm : maskFits a mask = true)
    (f : State → State) :
    portWrite s a mask true f = { f s with blk := answer (f s).blk ⟨false, 0, stDone, none⟩ } := by
  simp [portWrite, h.1, hm, admitted_of_takes h]

/-- The mask of a 4 B access fits its address. -/
theorem maskFits_word {a : Nat} (ha : a % 4 = 0) : maskFits a (if a % 8 = 0 then 0x0F else 0xF0) = true := by
  by_cases h : a % 8 = 0
  · simp [maskFits, h]
  · have : a % 8 = 4 := by omega
    simp [maskFits, this]

/-- A secure write of a 4 B register: its effect on the block, and the answer DONE. -/
theorem regWrite4_of_takes {s : State} {a : Nat} (h : PortTakes s a) (ha : a % 4 = 0) (f : Block → Block) :
    regWrite4 s a true f = { s with blk := answer (f s.blk) ⟨false, 0, stDone, none⟩ } :=
  portWrite_of_takes h (maskFits_word ha) _

/-- The same, settled. -/
theorem regWrite4_settled {s : State} {a : Nat} (h : PortTakes s a) (ha : a % 4 = 0) (f : Block → Block) :
    (regWrite4 s a true f).settled = .next (afterWrite s f) := by
  rw [regWrite4_of_takes h ha]; rfl

/-- A secure 4 B read at the port: what it answers, with its effect. -/
theorem portReadA_of_takes {s : State} {a : Nat} (h : PortTakes s a) (f : State → Answer × State) :
    portReadA s a false true f = { (f s).2 with blk := answer (f s).2.blk (f s).1 } := by
  simp [portReadA, h.1, admitted_of_takes h]

/-- A port that takes nothing, in reset or with four accesses outstanding, changes nothing. -/
theorem portWrite_closed {s : State} (h : portOpen s.blk = false) (a : Nat) (mask : BitVec 8) (sec : Bool) (f : State → State) :
    portWrite s a mask sec f = s := by simp [portWrite, h]

/-- A write never answered DONE changes the machine only by its answer and the violation log: where it is not admitted its effect
`f` is not made. -/
theorem portWrite_denied {s : State} {a : Nat} {mask : BitVec 8} {sec : Bool} (h : (admitted s.blk a true sec).1 = false)
    (hm : maskFits a mask = true) (ho : portOpen s.blk = true) (f : State → State) :
    portWrite s a mask sec f = { s with blk := answer (admitted s.blk a true sec).2 ⟨false, 0, stDone, none⟩ } := by
  simp [portWrite, ho, hm, h]

/-- A legal microword of a running sequencer has its effect. -/
theorem microStep_of {s : State} {n : Nat} {q : Seq} {op : Nat} (h : AtWord s n q op) (f : Seq → BitVec 33 → Block → Block) :
    microStep n op f s.blk = f q (q.word s.blk n) s.blk := by
  obtain ⟨h1, h2, h3, h4⟩ := h
  simp [microStep, h1, seqRuns, h2, h3, h4]

/-- An instruction of a work entry that is taken up, with nothing against it, has its effect; as it is pooled the running
frame is topped up. -/
theorem takeInstr_of {s : State} {n e i op : Nat} (h : TakenUp s n e i op) (f : Block → Block) :
    takeInstr n e i op f s.blk = pooledTopUp n (instr s.blk e i).phase (f s.blk) := by
  obtain ⟨h1, h2, h3, h4, h5⟩ := h
  simp [takeInstr, h1, h2, h3, h4, h5]

/-- The instruction at which an executor stands has its effect. -/
theorem adminRun_of {s : State} {p op : Nat} {x : List Byte} (h : AdminAt s p op x) (f : List Byte → Block → Block) :
    adminRun p op f s.blk = f x s.blk := by
  obtain ⟨h1, h2, h3, h4, ex, h5, h6, h7⟩ := h
  simp [adminRun, h1, h2, adminStart, adminInstr, h5, h7, h3, h6, h4]

/-- Before its own effect a command of the executor may only take the next entry in: nothing outside pavilion p changes. -/
theorem adminRun_idle {b : Block} {p : Nat} (h : running b = false) (op : Nat) (f : List Byte → Block → Block) :
    adminRun p op f b = b := by simp [adminRun, h]

/-- An access at the slave port reaches CFLASH and the queue only through its effect. -/
theorem portWrite_nv (s : State) (a : Nat) (mask : BitVec 8) (sec : Bool) (f : State → State) (h : ∀ s, (f s).nv = s.nv) :
    (portWrite s a mask sec f).nv = s.nv := by
  unfold portWrite
  split
  · rfl
  · split
    · rfl
    · dsimp only
      split
      · exact h _
      · rfl
theorem portWrite_pending (s : State) (a : Nat) (mask : BitVec 8) (sec : Bool) (f : State → State)
    (h : ∀ s, (f s).pending = s.pending) : (portWrite s a mask sec f).pending = s.pending := by
  unfold portWrite
  split
  · rfl
  · split
    · rfl
    · dsimp only
      split
      · exact h _
      · rfl
theorem regWrite4_nv (s : State) (a : Nat) (sec : Bool) (f : Block → Block) : (regWrite4 s a sec f).nv = s.nv :=
  portWrite_nv _ _ _ _ _ (fun _ => rfl)
theorem regWrite4_pending (s : State) (a : Nat) (sec : Bool) (f : Block → Block) : (regWrite4 s a sec f).pending = s.pending :=
  portWrite_pending _ _ _ _ _ (fun _ => rfl)
theorem portReadA_nv (s : State) (a : Nat) (size8 sec : Bool) (f : State → Answer × State) (h : ∀ s, (f s).2.nv = s.nv) :
    (portReadA s a size8 sec f).nv = s.nv := by
  unfold portReadA
  split
  · rfl
  · split
    · rfl
    · dsimp only
      split
      · exact h _
      · rfl
theorem portReadA_pending (s : State) (a : Nat) (size8 sec : Bool) (f : State → Answer × State)
    (h : ∀ s, (f s).2.pending = s.pending) : (portReadA s a size8 sec f).pending = s.pending := by
  unfold portReadA
  split
  · rfl
  · split
    · rfl
    · dsimp only
      split
      · exact h _
      · rfl

end Sys2Proof.Machine
end

