-- ==== Sys2Proof/Laws/State.lean ====
section
/-! SUPPORT. What each update of the block leaves alone: one lemma for every field of the block and every updating operation. -/

namespace Sys2Proof.Laws

open Sys2Proof Sys2Proof.Machine

@[simp] theorem rput_build (b : Block) (a : Nat) (w : Word) : (rput b a w).build = b.build := rfl
@[simp] theorem rput_inReset (b : Block) (a : Nat) (w : Word) : (rput b a w).inReset = b.inReset := rfl
@[simp] theorem rput_rstPin (b : Block) (a : Nat) (w : Word) : (rput b a w).rstPin = b.rstPin := rfl
@[simp] theorem rput_porPin (b : Block) (a : Nat) (w : Word) : (rput b a w).porPin = b.porPin := rfl
@[simp] theorem rput_brownHold (b : Block) (a : Nat) (w : Word) : (rput b a w).brownHold = b.brownHold := rfl
@[simp] theorem rput_lxReady (b : Block) (a : Nat) (w : Word) : (rput b a w).lxReady = b.lxReady := rfl
@[simp] theorem rput_restoring (b : Block) (a : Nat) (w : Word) : (rput b a w).restoring = b.restoring := rfl
@[simp] theorem rput_ticking (b : Block) (a : Nat) (w : Word) : (rput b a w).ticking = b.ticking := rfl
@[simp] theorem rput_milepost (b : Block) (a : Nat) (w : Word) : (rput b a w).milepost = b.milepost := rfl
@[simp] theorem rput_mileLatch (b : Block) (a : Nat) (w : Word) : (rput b a w).mileLatch = b.mileLatch := rfl
@[simp] theorem rput_newPeriod (b : Block) (a : Nat) (w : Word) : (rput b a w).newPeriod = b.newPeriod := rfl
@[simp] theorem rput_boardAt (b : Block) (a : Nat) (w : Word) : (rput b a w).boardAt = b.boardAt := rfl
@[simp] theorem rput_sensors (b : Block) (a : Nat) (w : Word) : (rput b a w).sensors = b.sensors := rfl
@[simp] theorem rput_comp105 (b : Block) (a : Nat) (w : Word) : (rput b a w).comp105 = b.comp105 := rfl
@[simp] theorem rput_aonImage (b : Block) (a : Nat) (w : Word) : (rput b a w).aonImage = b.aonImage := rfl
@[simp] theorem rput_tbl (b : Block) (a : Nat) (w : Word) : (rput b a w).tbl = b.tbl := rfl
@[simp] theorem rput_tblBad (b : Block) (a : Nat) (w : Word) : (rput b a w).tblBad = b.tblBad := rfl
@[simp] theorem rput_famDirty (b : Block) (a : Nat) (w : Word) : (rput b a w).famDirty = b.famDirty := rfl
@[simp] theorem rput_rset (b : Block) (a : Nat) (w : Word) : (rput b a w).rset = b.rset := rfl
@[simp] theorem rput_rowSnap (b : Block) (a : Nat) (w : Word) : (rput b a w).rowSnap = b.rowSnap := rfl
@[simp] theorem rput_digests (b : Block) (a : Nat) (w : Word) : (rput b a w).digests = b.digests := rfl
@[simp] theorem rput_wk (b : Block) (a : Nat) (w : Word) : (rput b a w).wk = b.wk := rfl
@[simp] theorem rput_keys (b : Block) (a : Nat) (w : Word) : (rput b a w).keys = b.keys := rfl
@[simp] theorem rput_gens (b : Block) (a : Nat) (w : Word) : (rput b a w).gens = b.gens := rfl
@[simp] theorem rput_vlog (b : Block) (a : Nat) (w : Word) : (rput b a w).vlog = b.vlog := rfl
@[simp] theorem rput_att (b : Block) (a : Nat) (w : Word) : (rput b a w).att = b.att := rfl
@[simp] theorem rput_cf (b : Block) (a : Nat) (w : Word) : (rput b a w).cf = b.cf := rfl
@[simp] theorem rput_credits (b : Block) (a : Nat) (w : Word) : (rput b a w).credits = b.credits := rfl
@[simp] theorem rput_bursts (b : Block) (a : Nat) (w : Word) : (rput b a w).bursts = b.bursts := rfl
@[simp] theorem rput_quar (b : Block) (a : Nat) (w : Word) : (rput b a w).quar = b.quar := rfl
@[simp] theorem rput_rr (b : Block) (a : Nat) (w : Word) : (rput b a w).rr = b.rr := rfl
@[simp] theorem rput_answers (b : Block) (a : Nat) (w : Word) : (rput b a w).answers = b.answers := rfl
@[simp] theorem rput_lastAnswer (b : Block) (a : Nat) (w : Word) : (rput b a w).lastAnswer = b.lastAnswer := rfl
@[simp] theorem rput_srcs (b : Block) (a : Nat) (w : Word) : (rput b a w).srcs = b.srcs := rfl
@[simp] theorem rput_idleIn (b : Block) (a : Nat) (w : Word) : (rput b a w).idleIn = b.idleIn := rfl
@[simp] theorem rput_sleepIn (b : Block) (a : Nat) (w : Word) : (rput b a w).sleepIn = b.sleepIn := rfl
@[simp] theorem rput_wake (b : Block) (a : Nat) (w : Word) : (rput b a w).wake = b.wake := rfl
@[simp] theorem rput_sqs (b : Block) (a : Nat) (w : Word) : (rput b a w).sqs = b.sqs := rfl
@[simp] theorem rput_cqs (b : Block) (a : Nat) (w : Word) : (rput b a w).cqs = b.cqs := rfl
@[simp] theorem rput_pavs (b : Block) (a : Nat) (w : Word) : (rput b a w).pavs = b.pavs := rfl
@[simp] theorem rput_lastPav (b : Block) (a : Nat) (w : Word) : (rput b a w).lastPav = b.lastPav := rfl
@[simp] theorem rput_stripes (b : Block) (a : Nat) (w : Word) : (rput b a w).stripes = b.stripes := rfl
@[simp] theorem rput_cmds (b : Block) (a : Nat) (w : Word) : (rput b a w).cmds = b.cmds := rfl
@[simp] theorem rput_entries (b : Block) (a : Nat) (w : Word) : (rput b a w).entries = b.entries := rfl
@[simp] theorem rput_nextId (b : Block) (a : Nat) (w : Word) : (rput b a w).nextId = b.nextId := rfl
@[simp] theorem rput_order (b : Block) (a : Nat) (w : Word) : (rput b a w).order = b.order := rfl
@[simp] theorem rput_lanes (b : Block) (a : Nat) (w : Word) : (rput b a w).lanes = b.lanes := rfl
@[simp] theorem rput_dies (b : Block) (a : Nat) (w : Word) : (rput b a w).dies = b.dies := rfl
@[simp] theorem rput_maps (b : Block) (a : Nat) (w : Word) : (rput b a w).maps = b.maps := rfl
@[simp] theorem rput_cws (b : Block) (a : Nat) (w : Word) : (rput b a w).cws = b.cws := rfl
@[simp] theorem rput_chans (b : Block) (a : Nat) (w : Word) : (rput b a w).chans = b.chans := rfl
@[simp] theorem rput_juncs (b : Block) (a : Nat) (w : Word) : (rput b a w).juncs = b.juncs := rfl
@[simp] theorem rput_toll (b : Block) (a : Nat) (w : Word) : (rput b a w).toll = b.toll := rfl
@[simp] theorem rput_planted (b : Block) (a : Nat) (w : Word) : (rput b a w).planted = b.planted := rfl
@[simp] theorem rput_lapLen (b : Block) (a : Nat) (w : Word) : (rput b a w).lapLen = b.lapLen := rfl
@[simp] theorem rput_scrub (b : Block) (a : Nat) (w : Word) : (rput b a w).scrub = b.scrub := rfl
@[simp] theorem rput_atRisk (b : Block) (a : Nat) (w : Word) : (rput b a w).atRisk = b.atRisk := rfl
@[simp] theorem rput_warnHeld (b : Block) (a : Nat) (w : Word) : (rput b a w).warnHeld = b.warnHeld := rfl
@[simp] theorem rput_warnWhole (b : Block) (a : Nat) (w : Word) : (rput b a w).warnWhole = b.warnWhole := rfl
@[simp] theorem rput_free (b : Block) (a : Nat) (w : Word) : (rput b a w).free = b.free := rfl

@[simp] theorem updLane_build (b : Block) (n : Nat) (f : Lane → Lane) : (updLane b n f).build = b.build := rfl
@[simp] theorem updLane_inReset (b : Block) (n : Nat) (f : Lane → Lane) : (updLane b n f).inReset = b.inReset := rfl
@[simp] theorem updLane_rstPin (b : Block) (n : Nat) (f : Lane → Lane) : (updLane b n f).rstPin = b.rstPin := rfl
@[simp] theorem updLane_porPin (b : Block) (n : Nat) (f : Lane → Lane) : (updLane b n f).porPin = b.porPin := rfl
@[simp] theorem updLane_brownHold (b : Block) (n : Nat) (f : Lane → Lane) : (updLane b n f).brownHold = b.brownHold := rfl
@[simp] theorem updLane_lxReady (b : Block) (n : Nat) (f : Lane → Lane) : (updLane b n f).lxReady = b.lxReady := rfl
@[simp] theorem updLane_restoring (b : Block) (n : Nat) (f : Lane → Lane) : (updLane b n f).restoring = b.restoring := rfl
@[simp] theorem updLane_ticking (b : Block) (n : Nat) (f : Lane → Lane) : (updLane b n f).ticking = b.ticking := rfl
@[simp] theorem updLane_milepost (b : Block) (n : Nat) (f : Lane → Lane) : (updLane b n f).milepost = b.milepost := rfl
@[simp] theorem updLane_mileLatch (b : Block) (n : Nat) (f : Lane → Lane) : (updLane b n f).mileLatch = b.mileLatch := rfl
@[simp] theorem updLane_newPeriod (b : Block) (n : Nat) (f : Lane → Lane) : (updLane b n f).newPeriod = b.newPeriod := rfl
@[simp] theorem updLane_boardAt (b : Block) (n : Nat) (f : Lane → Lane) : (updLane b n f).boardAt = b.boardAt := rfl
@[simp] theorem updLane_sensors (b : Block) (n : Nat) (f : Lane → Lane) : (updLane b n f).sensors = b.sensors := rfl
@[simp] theorem updLane_comp105 (b : Block) (n : Nat) (f : Lane → Lane) : (updLane b n f).comp105 = b.comp105 := rfl
@[simp] theorem updLane_regs (b : Block) (n : Nat) (f : Lane → Lane) : (updLane b n f).regs = b.regs := rfl
@[simp] theorem updLane_aonImage (b : Block) (n : Nat) (f : Lane → Lane) : (updLane b n f).aonImage = b.aonImage := rfl
@[simp] theorem updLane_tbl (b : Block) (n : Nat) (f : Lane → Lane) : (updLane b n f).tbl = b.tbl := rfl
@[simp] theorem updLane_tblBad (b : Block) (n : Nat) (f : Lane → Lane) : (updLane b n f).tblBad = b.tblBad := rfl
@[simp] theorem updLane_famDirty (b : Block) (n : Nat) (f : Lane → Lane) : (updLane b n f).famDirty = b.famDirty := rfl
@[simp] theorem updLane_rset (b : Block) (n : Nat) (f : Lane → Lane) : (updLane b n f).rset = b.rset := rfl
@[simp] theorem updLane_rowSnap (b : Block) (n : Nat) (f : Lane → Lane) : (updLane b n f).rowSnap = b.rowSnap := rfl
@[simp] theorem updLane_digests (b : Block) (n : Nat) (f : Lane → Lane) : (updLane b n f).digests = b.digests := rfl
@[simp] theorem updLane_wk (b : Block) (n : Nat) (f : Lane → Lane) : (updLane b n f).wk = b.wk := rfl
@[simp] theorem updLane_keys (b : Block) (n : Nat) (f : Lane → Lane) : (updLane b n f).keys = b.keys := rfl
@[simp] theorem updLane_gens (b : Block) (n : Nat) (f : Lane → Lane) : (updLane b n f).gens = b.gens := rfl
@[simp] theorem updLane_vlog (b : Block) (n : Nat) (f : Lane → Lane) : (updLane b n f).vlog = b.vlog := rfl
@[simp] theorem updLane_att (b : Block) (n : Nat) (f : Lane → Lane) : (updLane b n f).att = b.att := rfl
@[simp] theorem updLane_cf (b : Block) (n : Nat) (f : Lane → Lane) : (updLane b n f).cf = b.cf := rfl
@[simp] theorem updLane_credits (b : Block) (n : Nat) (f : Lane → Lane) : (updLane b n f).credits = b.credits := rfl
@[simp] theorem updLane_bursts (b : Block) (n : Nat) (f : Lane → Lane) : (updLane b n f).bursts = b.bursts := rfl
@[simp] theorem updLane_quar (b : Block) (n : Nat) (f : Lane → Lane) : (updLane b n f).quar = b.quar := rfl
@[simp] theorem updLane_rr (b : Block) (n : Nat) (f : Lane → Lane) : (updLane b n f).rr = b.rr := rfl
@[simp] theorem updLane_answers (b : Block) (n : Nat) (f : Lane → Lane) : (updLane b n f).answers = b.answers := rfl
@[simp] theorem updLane_lastAnswer (b : Block) (n : Nat) (f : Lane → Lane) : (updLane b n f).lastAnswer = b.lastAnswer := rfl
@[simp] theorem updLane_srcs (b : Block) (n : Nat) (f : Lane → Lane) : (updLane b n f).srcs = b.srcs := rfl
@[simp] theorem updLane_idleIn (b : Block) (n : Nat) (f : Lane → Lane) : (updLane b n f).idleIn = b.idleIn := rfl
@[simp] theorem updLane_sleepIn (b : Block) (n : Nat) (f : Lane → Lane) : (updLane b n f).sleepIn = b.sleepIn := rfl
@[simp] theorem updLane_wake (b : Block) (n : Nat) (f : Lane → Lane) : (updLane b n f).wake = b.wake := rfl
@[simp] theorem updLane_sqs (b : Block) (n : Nat) (f : Lane → Lane) : (updLane b n f).sqs = b.sqs := rfl
@[simp] theorem updLane_cqs (b : Block) (n : Nat) (f : Lane → Lane) : (updLane b n f).cqs = b.cqs := rfl
@[simp] theorem updLane_pavs (b : Block) (n : Nat) (f : Lane → Lane) : (updLane b n f).pavs = b.pavs := rfl
@[simp] theorem updLane_lastPav (b : Block) (n : Nat) (f : Lane → Lane) : (updLane b n f).lastPav = b.lastPav := rfl
@[simp] theorem updLane_stripes (b : Block) (n : Nat) (f : Lane → Lane) : (updLane b n f).stripes = b.stripes := rfl
@[simp] theorem updLane_cmds (b : Block) (n : Nat) (f : Lane → Lane) : (updLane b n f).cmds = b.cmds := rfl
@[simp] theorem updLane_entries (b : Block) (n : Nat) (f : Lane → Lane) : (updLane b n f).entries = b.entries := rfl
@[simp] theorem updLane_nextId (b : Block) (n : Nat) (f : Lane → Lane) : (updLane b n f).nextId = b.nextId := rfl
@[simp] theorem updLane_order (b : Block) (n : Nat) (f : Lane → Lane) : (updLane b n f).order = b.order := rfl
@[simp] theorem updLane_dies (b : Block) (n : Nat) (f : Lane → Lane) : (updLane b n f).dies = b.dies := rfl
@[simp] theorem updLane_maps (b : Block) (n : Nat) (f : Lane → Lane) : (updLane b n f).maps = b.maps := rfl
@[simp] theorem updLane_cws (b : Block) (n : Nat) (f : Lane → Lane) : (updLane b n f).cws = b.cws := rfl
@[simp] theorem updLane_chans (b : Block) (n : Nat) (f : Lane → Lane) : (updLane b n f).chans = b.chans := rfl
@[simp] theorem updLane_juncs (b : Block) (n : Nat) (f : Lane → Lane) : (updLane b n f).juncs = b.juncs := rfl
@[simp] theorem updLane_toll (b : Block) (n : Nat) (f : Lane → Lane) : (updLane b n f).toll = b.toll := rfl
@[simp] theorem updLane_planted (b : Block) (n : Nat) (f : Lane → Lane) : (updLane b n f).planted = b.planted := rfl
@[simp] theorem updLane_lapLen (b : Block) (n : Nat) (f : Lane → Lane) : (updLane b n f).lapLen = b.lapLen := rfl
@[simp] theorem updLane_scrub (b : Block) (n : Nat) (f : Lane → Lane) : (updLane b n f).scrub = b.scrub := rfl
@[simp] theorem updLane_atRisk (b : Block) (n : Nat) (f : Lane → Lane) : (updLane b n f).atRisk = b.atRisk := rfl
@[simp] theorem updLane_warnHeld (b : Block) (n : Nat) (f : Lane → Lane) : (updLane b n f).warnHeld = b.warnHeld := rfl
@[simp] theorem updLane_warnWhole (b : Block) (n : Nat) (f : Lane → Lane) : (updLane b n f).warnWhole = b.warnWhole := rfl
@[simp] theorem updLane_free (b : Block) (n : Nat) (f : Lane → Lane) : (updLane b n f).free = b.free := rfl

@[simp] theorem updDie_build (b : Block) (n d : Nat) (f : Die → Die) : (updDie b n d f).build = b.build := rfl
@[simp] theorem updDie_inReset (b : Block) (n d : Nat) (f : Die → Die) : (updDie b n d f).inReset = b.inReset := rfl
@[simp] theorem updDie_rstPin (b : Block) (n d : Nat) (f : Die → Die) : (updDie b n d f).rstPin = b.rstPin := rfl
@[simp] theorem updDie_porPin (b : Block) (n d : Nat) (f : Die → Die) : (updDie b n d f).porPin = b.porPin := rfl
@[simp] theorem updDie_brownHold (b : Block) (n d : Nat) (f : Die → Die) : (updDie b n d f).brownHold = b.brownHold := rfl
@[simp] theorem updDie_lxReady (b : Block) (n d : Nat) (f : Die → Die) : (updDie b n d f).lxReady = b.lxReady := rfl
@[simp] theorem updDie_restoring (b : Block) (n d : Nat) (f : Die → Die) : (updDie b n d f).restoring = b.restoring := rfl
@[simp] theorem updDie_ticking (b : Block) (n d : Nat) (f : Die → Die) : (updDie b n d f).ticking = b.ticking := rfl
@[simp] theorem updDie_milepost (b : Block) (n d : Nat) (f : Die → Die) : (updDie b n d f).milepost = b.milepost := rfl
@[simp] theorem updDie_mileLatch (b : Block) (n d : Nat) (f : Die → Die) : (updDie b n d f).mileLatch = b.mileLatch := rfl
@[simp] theorem updDie_newPeriod (b : Block) (n d : Nat) (f : Die → Die) : (updDie b n d f).newPeriod = b.newPeriod := rfl
@[simp] theorem updDie_boardAt (b : Block) (n d : Nat) (f : Die → Die) : (updDie b n d f).boardAt = b.boardAt := rfl
@[simp] theorem updDie_sensors (b : Block) (n d : Nat) (f : Die → Die) : (updDie b n d f).sensors = b.sensors := rfl
@[simp] theorem updDie_comp105 (b : Block) (n d : Nat) (f : Die → Die) : (updDie b n d f).comp105 = b.comp105 := rfl
@[simp] theorem updDie_regs (b : Block) (n d : Nat) (f : Die → Die) : (updDie b n d f).regs = b.regs := rfl
@[simp] theorem updDie_aonImage (b : Block) (n d : Nat) (f : Die → Die) : (updDie b n d f).aonImage = b.aonImage := rfl
@[simp] theorem updDie_tbl (b : Block) (n d : Nat) (f : Die → Die) : (updDie b n d f).tbl = b.tbl := rfl
@[simp] theorem updDie_tblBad (b : Block) (n d : Nat) (f : Die → Die) : (updDie b n d f).tblBad = b.tblBad := rfl
@[simp] theorem updDie_famDirty (b : Block) (n d : Nat) (f : Die → Die) : (updDie b n d f).famDirty = b.famDirty := rfl
@[simp] theorem updDie_rset (b : Block) (n d : Nat) (f : Die → Die) : (updDie b n d f).rset = b.rset := rfl
@[simp] theorem updDie_rowSnap (b : Block) (n d : Nat) (f : Die → Die) : (updDie b n d f).rowSnap = b.rowSnap := rfl
@[simp] theorem updDie_digests (b : Block) (n d : Nat) (f : Die → Die) : (updDie b n d f).digests = b.digests := rfl
@[simp] theorem updDie_wk (b : Block) (n d : Nat) (f : Die → Die) : (updDie b n d f).wk = b.wk := rfl
@[simp] theorem updDie_keys (b : Block) (n d : Nat) (f : Die → Die) : (updDie b n d f).keys = b.keys := rfl
@[simp] theorem updDie_gens (b : Block) (n d : Nat) (f : Die → Die) : (updDie b n d f).gens = b.gens := rfl
@[simp] theorem updDie_vlog (b : Block) (n d : Nat) (f : Die → Die) : (updDie b n d f).vlog = b.vlog := rfl
@[simp] theorem updDie_att (b : Block) (n d : Nat) (f : Die → Die) : (updDie b n d f).att = b.att := rfl
@[simp] theorem updDie_cf (b : Block) (n d : Nat) (f : Die → Die) : (updDie b n d f).cf = b.cf := rfl
@[simp] theorem updDie_credits (b : Block) (n d : Nat) (f : Die → Die) : (updDie b n d f).credits = b.credits := rfl
@[simp] theorem updDie_bursts (b : Block) (n d : Nat) (f : Die → Die) : (updDie b n d f).bursts = b.bursts := rfl
@[simp] theorem updDie_quar (b : Block) (n d : Nat) (f : Die → Die) : (updDie b n d f).quar = b.quar := rfl
@[simp] theorem updDie_rr (b : Block) (n d : Nat) (f : Die → Die) : (updDie b n d f).rr = b.rr := rfl
@[simp] theorem updDie_answers (b : Block) (n d : Nat) (f : Die → Die) : (updDie b n d f).answers = b.answers := rfl
@[simp] theorem updDie_lastAnswer (b : Block) (n d : Nat) (f : Die → Die) : (updDie b n d f).lastAnswer = b.lastAnswer := rfl
@[simp] theorem updDie_srcs (b : Block) (n d : Nat) (f : Die → Die) : (updDie b n d f).srcs = b.srcs := rfl
@[simp] theorem updDie_idleIn (b : Block) (n d : Nat) (f : Die → Die) : (updDie b n d f).idleIn = b.idleIn := rfl
@[simp] theorem updDie_sleepIn (b : Block) (n d : Nat) (f : Die → Die) : (updDie b n d f).sleepIn = b.sleepIn := rfl
@[simp] theorem updDie_wake (b : Block) (n d : Nat) (f : Die → Die) : (updDie b n d f).wake = b.wake := rfl
@[simp] theorem updDie_sqs (b : Block) (n d : Nat) (f : Die → Die) : (updDie b n d f).sqs = b.sqs := rfl
@[simp] theorem updDie_cqs (b : Block) (n d : Nat) (f : Die → Die) : (updDie b n d f).cqs = b.cqs := rfl
@[simp] theorem updDie_pavs (b : Block) (n d : Nat) (f : Die → Die) : (updDie b n d f).pavs = b.pavs := rfl
@[simp] theorem updDie_lastPav (b : Block) (n d : Nat) (f : Die → Die) : (updDie b n d f).lastPav = b.lastPav := rfl
@[simp] theorem updDie_stripes (b : Block) (n d : Nat) (f : Die → Die) : (updDie b n d f).stripes = b.stripes := rfl
@[simp] theorem updDie_cmds (b : Block) (n d : Nat) (f : Die → Die) : (updDie b n d f).cmds = b.cmds := rfl
@[simp] theorem updDie_entries (b : Block) (n d : Nat) (f : Die → Die) : (updDie b n d f).entries = b.entries := rfl
@[simp] theorem updDie_nextId (b : Block) (n d : Nat) (f : Die → Die) : (updDie b n d f).nextId = b.nextId := rfl
@[simp] theorem updDie_order (b : Block) (n d : Nat) (f : Die → Die) : (updDie b n d f).order = b.order := rfl
@[simp] theorem updDie_lanes (b : Block) (n d : Nat) (f : Die → Die) : (updDie b n d f).lanes = b.lanes := rfl
@[simp] theorem updDie_maps (b : Block) (n d : Nat) (f : Die → Die) : (updDie b n d f).maps = b.maps := rfl
@[simp] theorem updDie_cws (b : Block) (n d : Nat) (f : Die → Die) : (updDie b n d f).cws = b.cws := rfl
@[simp] theorem updDie_chans (b : Block) (n d : Nat) (f : Die → Die) : (updDie b n d f).chans = b.chans := rfl
@[simp] theorem updDie_juncs (b : Block) (n d : Nat) (f : Die → Die) : (updDie b n d f).juncs = b.juncs := rfl
@[simp] theorem updDie_toll (b : Block) (n d : Nat) (f : Die → Die) : (updDie b n d f).toll = b.toll := rfl
@[simp] theorem updDie_planted (b : Block) (n d : Nat) (f : Die → Die) : (updDie b n d f).planted = b.planted := rfl
@[simp] theorem updDie_lapLen (b : Block) (n d : Nat) (f : Die → Die) : (updDie b n d f).lapLen = b.lapLen := rfl
@[simp] theorem updDie_scrub (b : Block) (n d : Nat) (f : Die → Die) : (updDie b n d f).scrub = b.scrub := rfl
@[simp] theorem updDie_atRisk (b : Block) (n d : Nat) (f : Die → Die) : (updDie b n d f).atRisk = b.atRisk := rfl
@[simp] theorem updDie_warnHeld (b : Block) (n d : Nat) (f : Die → Die) : (updDie b n d f).warnHeld = b.warnHeld := rfl
@[simp] theorem updDie_warnWhole (b : Block) (n d : Nat) (f : Die → Die) : (updDie b n d f).warnWhole = b.warnWhole := rfl
@[simp] theorem updDie_free (b : Block) (n d : Nat) (f : Die → Die) : (updDie b n d f).free = b.free := rfl

@[simp] theorem updSq_build (b : Block) (q : Nat) (f : Sq → Sq) : (updSq b q f).build = b.build := rfl
@[simp] theorem updSq_inReset (b : Block) (q : Nat) (f : Sq → Sq) : (updSq b q f).inReset = b.inReset := rfl
@[simp] theorem updSq_rstPin (b : Block) (q : Nat) (f : Sq → Sq) : (updSq b q f).rstPin = b.rstPin := rfl
@[simp] theorem updSq_porPin (b : Block) (q : Nat) (f : Sq → Sq) : (updSq b q f).porPin = b.porPin := rfl
@[simp] theorem updSq_brownHold (b : Block) (q : Nat) (f : Sq → Sq) : (updSq b q f).brownHold = b.brownHold := rfl
@[simp] theorem updSq_lxReady (b : Block) (q : Nat) (f : Sq → Sq) : (updSq b q f).lxReady = b.lxReady := rfl
@[simp] theorem updSq_restoring (b : Block) (q : Nat) (f : Sq → Sq) : (updSq b q f).restoring = b.restoring := rfl
@[simp] theorem updSq_ticking (b : Block) (q : Nat) (f : Sq → Sq) : (updSq b q f).ticking = b.ticking := rfl
@[simp] theorem updSq_milepost (b : Block) (q : Nat) (f : Sq → Sq) : (updSq b q f).milepost = b.milepost := rfl
@[simp] theorem updSq_mileLatch (b : Block) (q : Nat) (f : Sq → Sq) : (updSq b q f).mileLatch = b.mileLatch := rfl
@[simp] theorem updSq_newPeriod (b : Block) (q : Nat) (f : Sq → Sq) : (updSq b q f).newPeriod = b.newPeriod := rfl
@[simp] theorem updSq_boardAt (b : Block) (q : Nat) (f : Sq → Sq) : (updSq b q f).boardAt = b.boardAt := rfl
@[simp] theorem updSq_sensors (b : Block) (q : Nat) (f : Sq → Sq) : (updSq b q f).sensors = b.sensors := rfl
@[simp] theorem updSq_comp105 (b : Block) (q : Nat) (f : Sq → Sq) : (updSq b q f).comp105 = b.comp105 := rfl
@[simp] theorem updSq_regs (b : Block) (q : Nat) (f : Sq → Sq) : (updSq b q f).regs = b.regs := rfl
@[simp] theorem updSq_aonImage (b : Block) (q : Nat) (f : Sq → Sq) : (updSq b q f).aonImage = b.aonImage := rfl
@[simp] theorem updSq_tbl (b : Block) (q : Nat) (f : Sq → Sq) : (updSq b q f).tbl = b.tbl := rfl
@[simp] theorem updSq_tblBad (b : Block) (q : Nat) (f : Sq → Sq) : (updSq b q f).tblBad = b.tblBad := rfl
@[simp] theorem updSq_famDirty (b : Block) (q : Nat) (f : Sq → Sq) : (updSq b q f).famDirty = b.famDirty := rfl
@[simp] theorem updSq_rset (b : Block) (q : Nat) (f : Sq → Sq) : (updSq b q f).rset = b.rset := rfl
@[simp] theorem updSq_rowSnap (b : Block) (q : Nat) (f : Sq → Sq) : (updSq b q f).rowSnap = b.rowSnap := rfl
@[simp] theorem updSq_digests (b : Block) (q : Nat) (f : Sq → Sq) : (updSq b q f).digests = b.digests := rfl
@[simp] theorem updSq_wk (b : Block) (q : Nat) (f : Sq → Sq) : (updSq b q f).wk = b.wk := rfl
@[simp] theorem updSq_keys (b : Block) (q : Nat) (f : Sq → Sq) : (updSq b q f).keys = b.keys := rfl
@[simp] theorem updSq_gens (b : Block) (q : Nat) (f : Sq → Sq) : (updSq b q f).gens = b.gens := rfl
@[simp] theorem updSq_vlog (b : Block) (q : Nat) (f : Sq → Sq) : (updSq b q f).vlog = b.vlog := rfl
@[simp] theorem updSq_att (b : Block) (q : Nat) (f : Sq → Sq) : (updSq b q f).att = b.att := rfl
@[simp] theorem updSq_cf (b : Block) (q : Nat) (f : Sq → Sq) : (updSq b q f).cf = b.cf := rfl
@[simp] theorem updSq_credits (b : Block) (q : Nat) (f : Sq → Sq) : (updSq b q f).credits = b.credits := rfl
@[simp] theorem updSq_bursts (b : Block) (q : Nat) (f : Sq → Sq) : (updSq b q f).bursts = b.bursts := rfl
@[simp] theorem updSq_quar (b : Block) (q : Nat) (f : Sq → Sq) : (updSq b q f).quar = b.quar := rfl
@[simp] theorem updSq_rr (b : Block) (q : Nat) (f : Sq → Sq) : (updSq b q f).rr = b.rr := rfl
@[simp] theorem updSq_answers (b : Block) (q : Nat) (f : Sq → Sq) : (updSq b q f).answers = b.answers := rfl
@[simp] theorem updSq_lastAnswer (b : Block) (q : Nat) (f : Sq → Sq) : (updSq b q f).lastAnswer = b.lastAnswer := rfl
@[simp] theorem updSq_srcs (b : Block) (q : Nat) (f : Sq → Sq) : (updSq b q f).srcs = b.srcs := rfl
@[simp] theorem updSq_idleIn (b : Block) (q : Nat) (f : Sq → Sq) : (updSq b q f).idleIn = b.idleIn := rfl
@[simp] theorem updSq_sleepIn (b : Block) (q : Nat) (f : Sq → Sq) : (updSq b q f).sleepIn = b.sleepIn := rfl
@[simp] theorem updSq_wake (b : Block) (q : Nat) (f : Sq → Sq) : (updSq b q f).wake = b.wake := rfl
@[simp] theorem updSq_cqs (b : Block) (q : Nat) (f : Sq → Sq) : (updSq b q f).cqs = b.cqs := rfl
@[simp] theorem updSq_pavs (b : Block) (q : Nat) (f : Sq → Sq) : (updSq b q f).pavs = b.pavs := rfl
@[simp] theorem updSq_lastPav (b : Block) (q : Nat) (f : Sq → Sq) : (updSq b q f).lastPav = b.lastPav := rfl
@[simp] theorem updSq_stripes (b : Block) (q : Nat) (f : Sq → Sq) : (updSq b q f).stripes = b.stripes := rfl
@[simp] theorem updSq_cmds (b : Block) (q : Nat) (f : Sq → Sq) : (updSq b q f).cmds = b.cmds := rfl
@[simp] theorem updSq_entries (b : Block) (q : Nat) (f : Sq → Sq) : (updSq b q f).entries = b.entries := rfl
@[simp] theorem updSq_nextId (b : Block) (q : Nat) (f : Sq → Sq) : (updSq b q f).nextId = b.nextId := rfl
@[simp] theorem updSq_order (b : Block) (q : Nat) (f : Sq → Sq) : (updSq b q f).order = b.order := rfl
@[simp] theorem updSq_lanes (b : Block) (q : Nat) (f : Sq → Sq) : (updSq b q f).lanes = b.lanes := rfl
@[simp] theorem updSq_dies (b : Block) (q : Nat) (f : Sq → Sq) : (updSq b q f).dies = b.dies := rfl
@[simp] theorem updSq_maps (b : Block) (q : Nat) (f : Sq → Sq) : (updSq b q f).maps = b.maps := rfl
@[simp] theorem updSq_cws (b : Block) (q : Nat) (f : Sq → Sq) : (updSq b q f).cws = b.cws := rfl
@[simp] theorem updSq_chans (b : Block) (q : Nat) (f : Sq → Sq) : (updSq b q f).chans = b.chans := rfl
@[simp] theorem updSq_juncs (b : Block) (q : Nat) (f : Sq → Sq) : (updSq b q f).juncs = b.juncs := rfl
@[simp] theorem updSq_toll (b : Block) (q : Nat) (f : Sq → Sq) : (updSq b q f).toll = b.toll := rfl
@[simp] theorem updSq_planted (b : Block) (q : Nat) (f : Sq → Sq) : (updSq b q f).planted = b.planted := rfl
@[simp] theorem updSq_lapLen (b : Block) (q : Nat) (f : Sq → Sq) : (updSq b q f).lapLen = b.lapLen := rfl
@[simp] theorem updSq_scrub (b : Block) (q : Nat) (f : Sq → Sq) : (updSq b q f).scrub = b.scrub := rfl
@[simp] theorem updSq_atRisk (b : Block) (q : Nat) (f : Sq → Sq) : (updSq b q f).atRisk = b.atRisk := rfl
@[simp] theorem updSq_warnHeld (b : Block) (q : Nat) (f : Sq → Sq) : (updSq b q f).warnHeld = b.warnHeld := rfl
@[simp] theorem updSq_warnWhole (b : Block) (q : Nat) (f : Sq → Sq) : (updSq b q f).warnWhole = b.warnWhole := rfl
@[simp] theorem updSq_free (b : Block) (q : Nat) (f : Sq → Sq) : (updSq b q f).free = b.free := rfl

@[simp] theorem updCq_build (b : Block) (c : Nat) (f : Cq → Cq) : (updCq b c f).build = b.build := rfl
@[simp] theorem updCq_inReset (b : Block) (c : Nat) (f : Cq → Cq) : (updCq b c f).inReset = b.inReset := rfl
@[simp] theorem updCq_rstPin (b : Block) (c : Nat) (f : Cq → Cq) : (updCq b c f).rstPin = b.rstPin := rfl
@[simp] theorem updCq_porPin (b : Block) (c : Nat) (f : Cq → Cq) : (updCq b c f).porPin = b.porPin := rfl
@[simp] theorem updCq_brownHold (b : Block) (c : Nat) (f : Cq → Cq) : (updCq b c f).brownHold = b.brownHold := rfl
@[simp] theorem updCq_lxReady (b : Block) (c : Nat) (f : Cq → Cq) : (updCq b c f).lxReady = b.lxReady := rfl
@[simp] theorem updCq_restoring (b : Block) (c : Nat) (f : Cq → Cq) : (updCq b c f).restoring = b.restoring := rfl
@[simp] theorem updCq_ticking (b : Block) (c : Nat) (f : Cq → Cq) : (updCq b c f).ticking = b.ticking := rfl
@[simp] theorem updCq_milepost (b : Block) (c : Nat) (f : Cq → Cq) : (updCq b c f).milepost = b.milepost := rfl
@[simp] theorem updCq_mileLatch (b : Block) (c : Nat) (f : Cq → Cq) : (updCq b c f).mileLatch = b.mileLatch := rfl
@[simp] theorem updCq_newPeriod (b : Block) (c : Nat) (f : Cq → Cq) : (updCq b c f).newPeriod = b.newPeriod := rfl
@[simp] theorem updCq_boardAt (b : Block) (c : Nat) (f : Cq → Cq) : (updCq b c f).boardAt = b.boardAt := rfl
@[simp] theorem updCq_sensors (b : Block) (c : Nat) (f : Cq → Cq) : (updCq b c f).sensors = b.sensors := rfl
@[simp] theorem updCq_comp105 (b : Block) (c : Nat) (f : Cq → Cq) : (updCq b c f).comp105 = b.comp105 := rfl
@[simp] theorem updCq_regs (b : Block) (c : Nat) (f : Cq → Cq) : (updCq b c f).regs = b.regs := rfl
@[simp] theorem updCq_aonImage (b : Block) (c : Nat) (f : Cq → Cq) : (updCq b c f).aonImage = b.aonImage := rfl
@[simp] theorem updCq_tbl (b : Block) (c : Nat) (f : Cq → Cq) : (updCq b c f).tbl = b.tbl := rfl
@[simp] theorem updCq_tblBad (b : Block) (c : Nat) (f : Cq → Cq) : (updCq b c f).tblBad = b.tblBad := rfl
@[simp] theorem updCq_famDirty (b : Block) (c : Nat) (f : Cq → Cq) : (updCq b c f).famDirty = b.famDirty := rfl
@[simp] theorem updCq_rset (b : Block) (c : Nat) (f : Cq → Cq) : (updCq b c f).rset = b.rset := rfl
@[simp] theorem updCq_rowSnap (b : Block) (c : Nat) (f : Cq → Cq) : (updCq b c f).rowSnap = b.rowSnap := rfl
@[simp] theorem updCq_digests (b : Block) (c : Nat) (f : Cq → Cq) : (updCq b c f).digests = b.digests := rfl
@[simp] theorem updCq_wk (b : Block) (c : Nat) (f : Cq → Cq) : (updCq b c f).wk = b.wk := rfl
@[simp] theorem updCq_keys (b : Block) (c : Nat) (f : Cq → Cq) : (updCq b c f).keys = b.keys := rfl
@[simp] theorem updCq_gens (b : Block) (c : Nat) (f : Cq → Cq) : (updCq b c f).gens = b.gens := rfl
@[simp] theorem updCq_vlog (b : Block) (c : Nat) (f : Cq → Cq) : (updCq b c f).vlog = b.vlog := rfl
@[simp] theorem updCq_att (b : Block) (c : Nat) (f : Cq → Cq) : (updCq b c f).att = b.att := rfl
@[simp] theorem updCq_cf (b : Block) (c : Nat) (f : Cq → Cq) : (updCq b c f).cf = b.cf := rfl
@[simp] theorem updCq_credits (b : Block) (c : Nat) (f : Cq → Cq) : (updCq b c f).credits = b.credits := rfl
@[simp] theorem updCq_bursts (b : Block) (c : Nat) (f : Cq → Cq) : (updCq b c f).bursts = b.bursts := rfl
@[simp] theorem updCq_quar (b : Block) (c : Nat) (f : Cq → Cq) : (updCq b c f).quar = b.quar := rfl
@[simp] theorem updCq_rr (b : Block) (c : Nat) (f : Cq → Cq) : (updCq b c f).rr = b.rr := rfl
@[simp] theorem updCq_answers (b : Block) (c : Nat) (f : Cq → Cq) : (updCq b c f).answers = b.answers := rfl
@[simp] theorem updCq_lastAnswer (b : Block) (c : Nat) (f : Cq → Cq) : (updCq b c f).lastAnswer = b.lastAnswer := rfl
@[simp] theorem updCq_srcs (b : Block) (c : Nat) (f : Cq → Cq) : (updCq b c f).srcs = b.srcs := rfl
@[simp] theorem updCq_idleIn (b : Block) (c : Nat) (f : Cq → Cq) : (updCq b c f).idleIn = b.idleIn := rfl
@[simp] theorem updCq_sleepIn (b : Block) (c : Nat) (f : Cq → Cq) : (updCq b c f).sleepIn = b.sleepIn := rfl
@[simp] theorem updCq_wake (b : Block) (c : Nat) (f : Cq → Cq) : (updCq b c f).wake = b.wake := rfl
@[simp] theorem updCq_sqs (b : Block) (c : Nat) (f : Cq → Cq) : (updCq b c f).sqs = b.sqs := rfl
@[simp] theorem updCq_pavs (b : Block) (c : Nat) (f : Cq → Cq) : (updCq b c f).pavs = b.pavs := rfl
@[simp] theorem updCq_lastPav (b : Block) (c : Nat) (f : Cq → Cq) : (updCq b c f).lastPav = b.lastPav := rfl
@[simp] theorem updCq_stripes (b : Block) (c : Nat) (f : Cq → Cq) : (updCq b c f).stripes = b.stripes := rfl
@[simp] theorem updCq_cmds (b : Block) (c : Nat) (f : Cq → Cq) : (updCq b c f).cmds = b.cmds := rfl
@[simp] theorem updCq_entries (b : Block) (c : Nat) (f : Cq → Cq) : (updCq b c f).entries = b.entries := rfl
@[simp] theorem updCq_nextId (b : Block) (c : Nat) (f : Cq → Cq) : (updCq b c f).nextId = b.nextId := rfl
@[simp] theorem updCq_order (b : Block) (c : Nat) (f : Cq → Cq) : (updCq b c f).order = b.order := rfl
@[simp] theorem updCq_lanes (b : Block) (c : Nat) (f : Cq → Cq) : (updCq b c f).lanes = b.lanes := rfl
@[simp] theorem updCq_dies (b : Block) (c : Nat) (f : Cq → Cq) : (updCq b c f).dies = b.dies := rfl
@[simp] theorem updCq_maps (b : Block) (c : Nat) (f : Cq → Cq) : (updCq b c f).maps = b.maps := rfl
@[simp] theorem updCq_cws (b : Block) (c : Nat) (f : Cq → Cq) : (updCq b c f).cws = b.cws := rfl
@[simp] theorem updCq_chans (b : Block) (c : Nat) (f : Cq → Cq) : (updCq b c f).chans = b.chans := rfl
@[simp] theorem updCq_juncs (b : Block) (c : Nat) (f : Cq → Cq) : (updCq b c f).juncs = b.juncs := rfl
@[simp] theorem updCq_toll (b : Block) (c : Nat) (f : Cq → Cq) : (updCq b c f).toll = b.toll := rfl
@[simp] theorem updCq_planted (b : Block) (c : Nat) (f : Cq → Cq) : (updCq b c f).planted = b.planted := rfl
@[simp] theorem updCq_lapLen (b : Block) (c : Nat) (f : Cq → Cq) : (updCq b c f).lapLen = b.lapLen := rfl
@[simp] theorem updCq_scrub (b : Block) (c : Nat) (f : Cq → Cq) : (updCq b c f).scrub = b.scrub := rfl
@[simp] theorem updCq_atRisk (b : Block) (c : Nat) (f : Cq → Cq) : (updCq b c f).atRisk = b.atRisk := rfl
@[simp] theorem updCq_warnHeld (b : Block) (c : Nat) (f : Cq → Cq) : (updCq b c f).warnHeld = b.warnHeld := rfl
@[simp] theorem updCq_warnWhole (b : Block) (c : Nat) (f : Cq → Cq) : (updCq b c f).warnWhole = b.warnWhole := rfl
@[simp] theorem updCq_free (b : Block) (c : Nat) (f : Cq → Cq) : (updCq b c f).free = b.free := rfl

@[simp] theorem updPav_build (b : Block) (p : Nat) (f : Pav → Pav) : (updPav b p f).build = b.build := rfl
@[simp] theorem updPav_inReset (b : Block) (p : Nat) (f : Pav → Pav) : (updPav b p f).inReset = b.inReset := rfl
@[simp] theorem updPav_rstPin (b : Block) (p : Nat) (f : Pav → Pav) : (updPav b p f).rstPin = b.rstPin := rfl
@[simp] theorem updPav_porPin (b : Block) (p : Nat) (f : Pav → Pav) : (updPav b p f).porPin = b.porPin := rfl
@[simp] theorem updPav_brownHold (b : Block) (p : Nat) (f : Pav → Pav) : (updPav b p f).brownHold = b.brownHold := rfl
@[simp] theorem updPav_lxReady (b : Block) (p : Nat) (f : Pav → Pav) : (updPav b p f).lxReady = b.lxReady := rfl
@[simp] theorem updPav_restoring (b : Block) (p : Nat) (f : Pav → Pav) : (updPav b p f).restoring = b.restoring := rfl
@[simp] theorem updPav_ticking (b : Block) (p : Nat) (f : Pav → Pav) : (updPav b p f).ticking = b.ticking := rfl
@[simp] theorem updPav_milepost (b : Block) (p : Nat) (f : Pav → Pav) : (updPav b p f).milepost = b.milepost := rfl
@[simp] theorem updPav_mileLatch (b : Block) (p : Nat) (f : Pav → Pav) : (updPav b p f).mileLatch = b.mileLatch := rfl
@[simp] theorem updPav_newPeriod (b : Block) (p : Nat) (f : Pav → Pav) : (updPav b p f).newPeriod = b.newPeriod := rfl
@[simp] theorem updPav_boardAt (b : Block) (p : Nat) (f : Pav → Pav) : (updPav b p f).boardAt = b.boardAt := rfl
@[simp] theorem updPav_sensors (b : Block) (p : Nat) (f : Pav → Pav) : (updPav b p f).sensors = b.sensors := rfl
@[simp] theorem updPav_comp105 (b : Block) (p : Nat) (f : Pav → Pav) : (updPav b p f).comp105 = b.comp105 := rfl
@[simp] theorem updPav_regs (b : Block) (p : Nat) (f : Pav → Pav) : (updPav b p f).regs = b.regs := rfl
@[simp] theorem updPav_aonImage (b : Block) (p : Nat) (f : Pav → Pav) : (updPav b p f).aonImage = b.aonImage := rfl
@[simp] theorem updPav_tbl (b : Block) (p : Nat) (f : Pav → Pav) : (updPav b p f).tbl = b.tbl := rfl
@[simp] theorem updPav_tblBad (b : Block) (p : Nat) (f : Pav → Pav) : (updPav b p f).tblBad = b.tblBad := rfl
@[simp] theorem updPav_famDirty (b : Block) (p : Nat) (f : Pav → Pav) : (updPav b p f).famDirty = b.famDirty := rfl
@[simp] theorem updPav_rset (b : Block) (p : Nat) (f : Pav → Pav) : (updPav b p f).rset = b.rset := rfl
@[simp] theorem updPav_rowSnap (b : Block) (p : Nat) (f : Pav → Pav) : (updPav b p f).rowSnap = b.rowSnap := rfl
@[simp] theorem updPav_digests (b : Block) (p : Nat) (f : Pav → Pav) : (updPav b p f).digests = b.digests := rfl
@[simp] theorem updPav_wk (b : Block) (p : Nat) (f : Pav → Pav) : (updPav b p f).wk = b.wk := rfl
@[simp] theorem updPav_keys (b : Block) (p : Nat) (f : Pav → Pav) : (updPav b p f).keys = b.keys := rfl
@[simp] theorem updPav_gens (b : Block) (p : Nat) (f : Pav → Pav) : (updPav b p f).gens = b.gens := rfl
@[simp] theorem updPav_vlog (b : Block) (p : Nat) (f : Pav → Pav) : (updPav b p f).vlog = b.vlog := rfl
@[simp] theorem updPav_att (b : Block) (p : Nat) (f : Pav → Pav) : (updPav b p f).att = b.att := rfl
@[simp] theorem updPav_cf (b : Block) (p : Nat) (f : Pav → Pav) : (updPav b p f).cf = b.cf := rfl
@[simp] theorem updPav_credits (b : Block) (p : Nat) (f : Pav → Pav) : (updPav b p f).credits = b.credits := rfl
@[simp] theorem updPav_bursts (b : Block) (p : Nat) (f : Pav → Pav) : (updPav b p f).bursts = b.bursts := rfl
@[simp] theorem updPav_quar (b : Block) (p : Nat) (f : Pav → Pav) : (updPav b p f).quar = b.quar := rfl
@[simp] theorem updPav_rr (b : Block) (p : Nat) (f : Pav → Pav) : (updPav b p f).rr = b.rr := rfl
@[simp] theorem updPav_answers (b : Block) (p : Nat) (f : Pav → Pav) : (updPav b p f).answers = b.answers := rfl
@[simp] theorem updPav_lastAnswer (b : Block) (p : Nat) (f : Pav → Pav) : (updPav b p f).lastAnswer = b.lastAnswer := rfl
@[simp] theorem updPav_srcs (b : Block) (p : Nat) (f : Pav → Pav) : (updPav b p f).srcs = b.srcs := rfl
@[simp] theorem updPav_idleIn (b : Block) (p : Nat) (f : Pav → Pav) : (updPav b p f).idleIn = b.idleIn := rfl
@[simp] theorem updPav_sleepIn (b : Block) (p : Nat) (f : Pav → Pav) : (updPav b p f).sleepIn = b.sleepIn := rfl
@[simp] theorem updPav_wake (b : Block) (p : Nat) (f : Pav → Pav) : (updPav b p f).wake = b.wake := rfl
@[simp] theorem updPav_sqs (b : Block) (p : Nat) (f : Pav → Pav) : (updPav b p f).sqs = b.sqs := rfl
@[simp] theorem updPav_cqs (b : Block) (p : Nat) (f : Pav → Pav) : (updPav b p f).cqs = b.cqs := rfl
@[simp] theorem updPav_lastPav (b : Block) (p : Nat) (f : Pav → Pav) : (updPav b p f).lastPav = b.lastPav := rfl
@[simp] theorem updPav_stripes (b : Block) (p : Nat) (f : Pav → Pav) : (updPav b p f).stripes = b.stripes := rfl
@[simp] theorem updPav_cmds (b : Block) (p : Nat) (f : Pav → Pav) : (updPav b p f).cmds = b.cmds := rfl
@[simp] theorem updPav_entries (b : Block) (p : Nat) (f : Pav → Pav) : (updPav b p f).entries = b.entries := rfl
@[simp] theorem updPav_nextId (b : Block) (p : Nat) (f : Pav → Pav) : (updPav b p f).nextId = b.nextId := rfl
@[simp] theorem updPav_order (b : Block) (p : Nat) (f : Pav → Pav) : (updPav b p f).order = b.order := rfl
@[simp] theorem updPav_lanes (b : Block) (p : Nat) (f : Pav → Pav) : (updPav b p f).lanes = b.lanes := rfl
@[simp] theorem updPav_dies (b : Block) (p : Nat) (f : Pav → Pav) : (updPav b p f).dies = b.dies := rfl
@[simp] theorem updPav_maps (b : Block) (p : Nat) (f : Pav → Pav) : (updPav b p f).maps = b.maps := rfl
@[simp] theorem updPav_cws (b : Block) (p : Nat) (f : Pav → Pav) : (updPav b p f).cws = b.cws := rfl
@[simp] theorem updPav_chans (b : Block) (p : Nat) (f : Pav → Pav) : (updPav b p f).chans = b.chans := rfl
@[simp] theorem updPav_juncs (b : Block) (p : Nat) (f : Pav → Pav) : (updPav b p f).juncs = b.juncs := rfl
@[simp] theorem updPav_toll (b : Block) (p : Nat) (f : Pav → Pav) : (updPav b p f).toll = b.toll := rfl
@[simp] theorem updPav_planted (b : Block) (p : Nat) (f : Pav → Pav) : (updPav b p f).planted = b.planted := rfl
@[simp] theorem updPav_lapLen (b : Block) (p : Nat) (f : Pav → Pav) : (updPav b p f).lapLen = b.lapLen := rfl
@[simp] theorem updPav_scrub (b : Block) (p : Nat) (f : Pav → Pav) : (updPav b p f).scrub = b.scrub := rfl
@[simp] theorem updPav_atRisk (b : Block) (p : Nat) (f : Pav → Pav) : (updPav b p f).atRisk = b.atRisk := rfl
@[simp] theorem updPav_warnHeld (b : Block) (p : Nat) (f : Pav → Pav) : (updPav b p f).warnHeld = b.warnHeld := rfl
@[simp] theorem updPav_warnWhole (b : Block) (p : Nat) (f : Pav → Pav) : (updPav b p f).warnWhole = b.warnWhole := rfl
@[simp] theorem updPav_free (b : Block) (p : Nat) (f : Pav → Pav) : (updPav b p f).free = b.free := rfl

@[simp] theorem updStripe_build (b : Block) (st : Nat) (f : Stripe → Stripe) : (updStripe b st f).build = b.build := rfl
@[simp] theorem updStripe_inReset (b : Block) (st : Nat) (f : Stripe → Stripe) : (updStripe b st f).inReset = b.inReset := rfl
@[simp] theorem updStripe_rstPin (b : Block) (st : Nat) (f : Stripe → Stripe) : (updStripe b st f).rstPin = b.rstPin := rfl
@[simp] theorem updStripe_porPin (b : Block) (st : Nat) (f : Stripe → Stripe) : (updStripe b st f).porPin = b.porPin := rfl
@[simp] theorem updStripe_brownHold (b : Block) (st : Nat) (f : Stripe → Stripe) : (updStripe b st f).brownHold = b.brownHold := rfl
@[simp] theorem updStripe_lxReady (b : Block) (st : Nat) (f : Stripe → Stripe) : (updStripe b st f).lxReady = b.lxReady := rfl
@[simp] theorem updStripe_restoring (b : Block) (st : Nat) (f : Stripe → Stripe) : (updStripe b st f).restoring = b.restoring := rfl
@[simp] theorem updStripe_ticking (b : Block) (st : Nat) (f : Stripe → Stripe) : (updStripe b st f).ticking = b.ticking := rfl
@[simp] theorem updStripe_milepost (b : Block) (st : Nat) (f : Stripe → Stripe) : (updStripe b st f).milepost = b.milepost := rfl
@[simp] theorem updStripe_mileLatch (b : Block) (st : Nat) (f : Stripe → Stripe) : (updStripe b st f).mileLatch = b.mileLatch := rfl
@[simp] theorem updStripe_newPeriod (b : Block) (st : Nat) (f : Stripe → Stripe) : (updStripe b st f).newPeriod = b.newPeriod := rfl
@[simp] theorem updStripe_boardAt (b : Block) (st : Nat) (f : Stripe → Stripe) : (updStripe b st f).boardAt = b.boardAt := rfl
@[simp] theorem updStripe_sensors (b : Block) (st : Nat) (f : Stripe → Stripe) : (updStripe b st f).sensors = b.sensors := rfl
@[simp] theorem updStripe_comp105 (b : Block) (st : Nat) (f : Stripe → Stripe) : (updStripe b st f).comp105 = b.comp105 := rfl
@[simp] theorem updStripe_regs (b : Block) (st : Nat) (f : Stripe → Stripe) : (updStripe b st f).regs = b.regs := rfl
@[simp] theorem updStripe_aonImage (b : Block) (st : Nat) (f : Stripe → Stripe) : (updStripe b st f).aonImage = b.aonImage := rfl
@[simp] theorem updStripe_tbl (b : Block) (st : Nat) (f : Stripe → Stripe) : (updStripe b st f).tbl = b.tbl := rfl
@[simp] theorem updStripe_tblBad (b : Block) (st : Nat) (f : Stripe → Stripe) : (updStripe b st f).tblBad = b.tblBad := rfl
@[simp] theorem updStripe_famDirty (b : Block) (st : Nat) (f : Stripe → Stripe) : (updStripe b st f).famDirty = b.famDirty := rfl
@[simp] theorem updStripe_rset (b : Block) (st : Nat) (f : Stripe → Stripe) : (updStripe b st f).rset = b.rset := rfl
@[simp] theorem updStripe_rowSnap (b : Block) (st : Nat) (f : Stripe → Stripe) : (updStripe b st f).rowSnap = b.rowSnap := rfl
@[simp] theorem updStripe_digests (b : Block) (st : Nat) (f : Stripe → Stripe) : (updStripe b st f).digests = b.digests := rfl
@[simp] theorem updStripe_wk (b : Block) (st : Nat) (f : Stripe → Stripe) : (updStripe b st f).wk = b.wk := rfl
@[simp] theorem updStripe_keys (b : Block) (st : Nat) (f : Stripe → Stripe) : (updStripe b st f).keys = b.keys := rfl
@[simp] theorem updStripe_gens (b : Block) (st : Nat) (f : Stripe → Stripe) : (updStripe b st f).gens = b.gens := rfl
@[simp] theorem updStripe_vlog (b : Block) (st : Nat) (f : Stripe → Stripe) : (updStripe b st f).vlog = b.vlog := rfl
@[simp] theorem updStripe_att (b : Block) (st : Nat) (f : Stripe → Stripe) : (updStripe b st f).att = b.att := rfl
@[simp] theorem updStripe_cf (b : Block) (st : Nat) (f : Stripe → Stripe) : (updStripe b st f).cf = b.cf := rfl
@[simp] theorem updStripe_credits (b : Block) (st : Nat) (f : Stripe → Stripe) : (updStripe b st f).credits = b.credits := rfl
@[simp] theorem updStripe_bursts (b : Block) (st : Nat) (f : Stripe → Stripe) : (updStripe b st f).bursts = b.bursts := rfl
@[simp] theorem updStripe_quar (b : Block) (st : Nat) (f : Stripe → Stripe) : (updStripe b st f).quar = b.quar := rfl
@[simp] theorem updStripe_rr (b : Block) (st : Nat) (f : Stripe → Stripe) : (updStripe b st f).rr = b.rr := rfl
@[simp] theorem updStripe_answers (b : Block) (st : Nat) (f : Stripe → Stripe) : (updStripe b st f).answers = b.answers := rfl
@[simp] theorem updStripe_lastAnswer (b : Block) (st : Nat) (f : Stripe → Stripe) : (updStripe b st f).lastAnswer = b.lastAnswer := rfl
@[simp] theorem updStripe_srcs (b : Block) (st : Nat) (f : Stripe → Stripe) : (updStripe b st f).srcs = b.srcs := rfl
@[simp] theorem updStripe_idleIn (b : Block) (st : Nat) (f : Stripe → Stripe) : (updStripe b st f).idleIn = b.idleIn := rfl
@[simp] theorem updStripe_sleepIn (b : Block) (st : Nat) (f : Stripe → Stripe) : (updStripe b st f).sleepIn = b.sleepIn := rfl
@[simp] theorem updStripe_wake (b : Block) (st : Nat) (f : Stripe → Stripe) : (updStripe b st f).wake = b.wake := rfl
@[simp] theorem updStripe_sqs (b : Block) (st : Nat) (f : Stripe → Stripe) : (updStripe b st f).sqs = b.sqs := rfl
@[simp] theorem updStripe_cqs (b : Block) (st : Nat) (f : Stripe → Stripe) : (updStripe b st f).cqs = b.cqs := rfl
@[simp] theorem updStripe_pavs (b : Block) (st : Nat) (f : Stripe → Stripe) : (updStripe b st f).pavs = b.pavs := rfl
@[simp] theorem updStripe_lastPav (b : Block) (st : Nat) (f : Stripe → Stripe) : (updStripe b st f).lastPav = b.lastPav := rfl
@[simp] theorem updStripe_cmds (b : Block) (st : Nat) (f : Stripe → Stripe) : (updStripe b st f).cmds = b.cmds := rfl
@[simp] theorem updStripe_entries (b : Block) (st : Nat) (f : Stripe → Stripe) : (updStripe b st f).entries = b.entries := rfl
@[simp] theorem updStripe_nextId (b : Block) (st : Nat) (f : Stripe → Stripe) : (updStripe b st f).nextId = b.nextId := rfl
@[simp] theorem updStripe_order (b : Block) (st : Nat) (f : Stripe → Stripe) : (updStripe b st f).order = b.order := rfl
@[simp] theorem updStripe_lanes (b : Block) (st : Nat) (f : Stripe → Stripe) : (updStripe b st f).lanes = b.lanes := rfl
@[simp] theorem updStripe_dies (b : Block) (st : Nat) (f : Stripe → Stripe) : (updStripe b st f).dies = b.dies := rfl
@[simp] theorem updStripe_maps (b : Block) (st : Nat) (f : Stripe → Stripe) : (updStripe b st f).maps = b.maps := rfl
@[simp] theorem updStripe_cws (b : Block) (st : Nat) (f : Stripe → Stripe) : (updStripe b st f).cws = b.cws := rfl
@[simp] theorem updStripe_chans (b : Block) (st : Nat) (f : Stripe → Stripe) : (updStripe b st f).chans = b.chans := rfl
@[simp] theorem updStripe_juncs (b : Block) (st : Nat) (f : Stripe → Stripe) : (updStripe b st f).juncs = b.juncs := rfl
@[simp] theorem updStripe_toll (b : Block) (st : Nat) (f : Stripe → Stripe) : (updStripe b st f).toll = b.toll := rfl
@[simp] theorem updStripe_planted (b : Block) (st : Nat) (f : Stripe → Stripe) : (updStripe b st f).planted = b.planted := rfl
@[simp] theorem updStripe_lapLen (b : Block) (st : Nat) (f : Stripe → Stripe) : (updStripe b st f).lapLen = b.lapLen := rfl
@[simp] theorem updStripe_scrub (b : Block) (st : Nat) (f : Stripe → Stripe) : (updStripe b st f).scrub = b.scrub := rfl
@[simp] theorem updStripe_atRisk (b : Block) (st : Nat) (f : Stripe → Stripe) : (updStripe b st f).atRisk = b.atRisk := rfl
@[simp] theorem updStripe_warnHeld (b : Block) (st : Nat) (f : Stripe → Stripe) : (updStripe b st f).warnHeld = b.warnHeld := rfl
@[simp] theorem updStripe_warnWhole (b : Block) (st : Nat) (f : Stripe → Stripe) : (updStripe b st f).warnWhole = b.warnWhole := rfl
@[simp] theorem updStripe_free (b : Block) (st : Nat) (f : Stripe → Stripe) : (updStripe b st f).free = b.free := rfl

@[simp] theorem updKey_build (b : Block) (k : Nat) (f : KeySlot → KeySlot) : (updKey b k f).build = b.build := rfl
@[simp] theorem updKey_inReset (b : Block) (k : Nat) (f : KeySlot → KeySlot) : (updKey b k f).inReset = b.inReset := rfl
@[simp] theorem updKey_rstPin (b : Block) (k : Nat) (f : KeySlot → KeySlot) : (updKey b k f).rstPin = b.rstPin := rfl
@[simp] theorem updKey_porPin (b : Block) (k : Nat) (f : KeySlot → KeySlot) : (updKey b k f).porPin = b.porPin := rfl
@[simp] theorem updKey_brownHold (b : Block) (k : Nat) (f : KeySlot → KeySlot) : (updKey b k f).brownHold = b.brownHold := rfl
@[simp] theorem updKey_lxReady (b : Block) (k : Nat) (f : KeySlot → KeySlot) : (updKey b k f).lxReady = b.lxReady := rfl
@[simp] theorem updKey_restoring (b : Block) (k : Nat) (f : KeySlot → KeySlot) : (updKey b k f).restoring = b.restoring := rfl
@[simp] theorem updKey_ticking (b : Block) (k : Nat) (f : KeySlot → KeySlot) : (updKey b k f).ticking = b.ticking := rfl
@[simp] theorem updKey_milepost (b : Block) (k : Nat) (f : KeySlot → KeySlot) : (updKey b k f).milepost = b.milepost := rfl
@[simp] theorem updKey_mileLatch (b : Block) (k : Nat) (f : KeySlot → KeySlot) : (updKey b k f).mileLatch = b.mileLatch := rfl
@[simp] theorem updKey_newPeriod (b : Block) (k : Nat) (f : KeySlot → KeySlot) : (updKey b k f).newPeriod = b.newPeriod := rfl
@[simp] theorem updKey_boardAt (b : Block) (k : Nat) (f : KeySlot → KeySlot) : (updKey b k f).boardAt = b.boardAt := rfl
@[simp] theorem updKey_sensors (b : Block) (k : Nat) (f : KeySlot → KeySlot) : (updKey b k f).sensors = b.sensors := rfl
@[simp] theorem updKey_comp105 (b : Block) (k : Nat) (f : KeySlot → KeySlot) : (updKey b k f).comp105 = b.comp105 := rfl
@[simp] theorem updKey_regs (b : Block) (k : Nat) (f : KeySlot → KeySlot) : (updKey b k f).regs = b.regs := rfl
@[simp] theorem updKey_aonImage (b : Block) (k : Nat) (f : KeySlot → KeySlot) : (updKey b k f).aonImage = b.aonImage := rfl
@[simp] theorem updKey_tbl (b : Block) (k : Nat) (f : KeySlot → KeySlot) : (updKey b k f).tbl = b.tbl := rfl
@[simp] theorem updKey_tblBad (b : Block) (k : Nat) (f : KeySlot → KeySlot) : (updKey b k f).tblBad = b.tblBad := rfl
@[simp] theorem updKey_famDirty (b : Block) (k : Nat) (f : KeySlot → KeySlot) : (updKey b k f).famDirty = b.famDirty := rfl
@[simp] theorem updKey_rset (b : Block) (k : Nat) (f : KeySlot → KeySlot) : (updKey b k f).rset = b.rset := rfl
@[simp] theorem updKey_rowSnap (b : Block) (k : Nat) (f : KeySlot → KeySlot) : (updKey b k f).rowSnap = b.rowSnap := rfl
@[simp] theorem updKey_digests (b : Block) (k : Nat) (f : KeySlot → KeySlot) : (updKey b k f).digests = b.digests := rfl
@[simp] theorem updKey_wk (b : Block) (k : Nat) (f : KeySlot → KeySlot) : (updKey b k f).wk = b.wk := rfl
@[simp] theorem updKey_gens (b : Block) (k : Nat) (f : KeySlot → KeySlot) : (updKey b k f).gens = b.gens := rfl
@[simp] theorem updKey_vlog (b : Block) (k : Nat) (f : KeySlot → KeySlot) : (updKey b k f).vlog = b.vlog := rfl
@[simp] theorem updKey_att (b : Block) (k : Nat) (f : KeySlot → KeySlot) : (updKey b k f).att = b.att := rfl
@[simp] theorem updKey_cf (b : Block) (k : Nat) (f : KeySlot → KeySlot) : (updKey b k f).cf = b.cf := rfl
@[simp] theorem updKey_credits (b : Block) (k : Nat) (f : KeySlot → KeySlot) : (updKey b k f).credits = b.credits := rfl
@[simp] theorem updKey_bursts (b : Block) (k : Nat) (f : KeySlot → KeySlot) : (updKey b k f).bursts = b.bursts := rfl
@[simp] theorem updKey_quar (b : Block) (k : Nat) (f : KeySlot → KeySlot) : (updKey b k f).quar = b.quar := rfl
@[simp] theorem updKey_rr (b : Block) (k : Nat) (f : KeySlot → KeySlot) : (updKey b k f).rr = b.rr := rfl
@[simp] theorem updKey_answers (b : Block) (k : Nat) (f : KeySlot → KeySlot) : (updKey b k f).answers = b.answers := rfl
@[simp] theorem updKey_lastAnswer (b : Block) (k : Nat) (f : KeySlot → KeySlot) : (updKey b k f).lastAnswer = b.lastAnswer := rfl
@[simp] theorem updKey_srcs (b : Block) (k : Nat) (f : KeySlot → KeySlot) : (updKey b k f).srcs = b.srcs := rfl
@[simp] theorem updKey_idleIn (b : Block) (k : Nat) (f : KeySlot → KeySlot) : (updKey b k f).idleIn = b.idleIn := rfl
@[simp] theorem updKey_sleepIn (b : Block) (k : Nat) (f : KeySlot → KeySlot) : (updKey b k f).sleepIn = b.sleepIn := rfl
@[simp] theorem updKey_wake (b : Block) (k : Nat) (f : KeySlot → KeySlot) : (updKey b k f).wake = b.wake := rfl
@[simp] theorem updKey_sqs (b : Block) (k : Nat) (f : KeySlot → KeySlot) : (updKey b k f).sqs = b.sqs := rfl
@[simp] theorem updKey_cqs (b : Block) (k : Nat) (f : KeySlot → KeySlot) : (updKey b k f).cqs = b.cqs := rfl
@[simp] theorem updKey_pavs (b : Block) (k : Nat) (f : KeySlot → KeySlot) : (updKey b k f).pavs = b.pavs := rfl
@[simp] theorem updKey_lastPav (b : Block) (k : Nat) (f : KeySlot → KeySlot) : (updKey b k f).lastPav = b.lastPav := rfl
@[simp] theorem updKey_stripes (b : Block) (k : Nat) (f : KeySlot → KeySlot) : (updKey b k f).stripes = b.stripes := rfl
@[simp] theorem updKey_cmds (b : Block) (k : Nat) (f : KeySlot → KeySlot) : (updKey b k f).cmds = b.cmds := rfl
@[simp] theorem updKey_entries (b : Block) (k : Nat) (f : KeySlot → KeySlot) : (updKey b k f).entries = b.entries := rfl
@[simp] theorem updKey_nextId (b : Block) (k : Nat) (f : KeySlot → KeySlot) : (updKey b k f).nextId = b.nextId := rfl
@[simp] theorem updKey_order (b : Block) (k : Nat) (f : KeySlot → KeySlot) : (updKey b k f).order = b.order := rfl
@[simp] theorem updKey_lanes (b : Block) (k : Nat) (f : KeySlot → KeySlot) : (updKey b k f).lanes = b.lanes := rfl
@[simp] theorem updKey_dies (b : Block) (k : Nat) (f : KeySlot → KeySlot) : (updKey b k f).dies = b.dies := rfl
@[simp] theorem updKey_maps (b : Block) (k : Nat) (f : KeySlot → KeySlot) : (updKey b k f).maps = b.maps := rfl
@[simp] theorem updKey_cws (b : Block) (k : Nat) (f : KeySlot → KeySlot) : (updKey b k f).cws = b.cws := rfl
@[simp] theorem updKey_chans (b : Block) (k : Nat) (f : KeySlot → KeySlot) : (updKey b k f).chans = b.chans := rfl
@[simp] theorem updKey_juncs (b : Block) (k : Nat) (f : KeySlot → KeySlot) : (updKey b k f).juncs = b.juncs := rfl
@[simp] theorem updKey_toll (b : Block) (k : Nat) (f : KeySlot → KeySlot) : (updKey b k f).toll = b.toll := rfl
@[simp] theorem updKey_planted (b : Block) (k : Nat) (f : KeySlot → KeySlot) : (updKey b k f).planted = b.planted := rfl
@[simp] theorem updKey_lapLen (b : Block) (k : Nat) (f : KeySlot → KeySlot) : (updKey b k f).lapLen = b.lapLen := rfl
@[simp] theorem updKey_scrub (b : Block) (k : Nat) (f : KeySlot → KeySlot) : (updKey b k f).scrub = b.scrub := rfl
@[simp] theorem updKey_atRisk (b : Block) (k : Nat) (f : KeySlot → KeySlot) : (updKey b k f).atRisk = b.atRisk := rfl
@[simp] theorem updKey_warnHeld (b : Block) (k : Nat) (f : KeySlot → KeySlot) : (updKey b k f).warnHeld = b.warnHeld := rfl
@[simp] theorem updKey_warnWhole (b : Block) (k : Nat) (f : KeySlot → KeySlot) : (updKey b k f).warnWhole = b.warnWhole := rfl
@[simp] theorem updKey_free (b : Block) (k : Nat) (f : KeySlot → KeySlot) : (updKey b k f).free = b.free := rfl

@[simp] theorem updCmd_build (b : Block) (c : Nat) (f : Cmd → Cmd) : (updCmd b c f).build = b.build := rfl
@[simp] theorem updCmd_inReset (b : Block) (c : Nat) (f : Cmd → Cmd) : (updCmd b c f).inReset = b.inReset := rfl
@[simp] theorem updCmd_rstPin (b : Block) (c : Nat) (f : Cmd → Cmd) : (updCmd b c f).rstPin = b.rstPin := rfl
@[simp] theorem updCmd_porPin (b : Block) (c : Nat) (f : Cmd → Cmd) : (updCmd b c f).porPin = b.porPin := rfl
@[simp] theorem updCmd_brownHold (b : Block) (c : Nat) (f : Cmd → Cmd) : (updCmd b c f).brownHold = b.brownHold := rfl
@[simp] theorem updCmd_lxReady (b : Block) (c : Nat) (f : Cmd → Cmd) : (updCmd b c f).lxReady = b.lxReady := rfl
@[simp] theorem updCmd_restoring (b : Block) (c : Nat) (f : Cmd → Cmd) : (updCmd b c f).restoring = b.restoring := rfl
@[simp] theorem updCmd_ticking (b : Block) (c : Nat) (f : Cmd → Cmd) : (updCmd b c f).ticking = b.ticking := rfl
@[simp] theorem updCmd_milepost (b : Block) (c : Nat) (f : Cmd → Cmd) : (updCmd b c f).milepost = b.milepost := rfl
@[simp] theorem updCmd_mileLatch (b : Block) (c : Nat) (f : Cmd → Cmd) : (updCmd b c f).mileLatch = b.mileLatch := rfl
@[simp] theorem updCmd_newPeriod (b : Block) (c : Nat) (f : Cmd → Cmd) : (updCmd b c f).newPeriod = b.newPeriod := rfl
@[simp] theorem updCmd_boardAt (b : Block) (c : Nat) (f : Cmd → Cmd) : (updCmd b c f).boardAt = b.boardAt := rfl
@[simp] theorem updCmd_sensors (b : Block) (c : Nat) (f : Cmd → Cmd) : (updCmd b c f).sensors = b.sensors := rfl
@[simp] theorem updCmd_comp105 (b : Block) (c : Nat) (f : Cmd → Cmd) : (updCmd b c f).comp105 = b.comp105 := rfl
@[simp] theorem updCmd_regs (b : Block) (c : Nat) (f : Cmd → Cmd) : (updCmd b c f).regs = b.regs := rfl
@[simp] theorem updCmd_aonImage (b : Block) (c : Nat) (f : Cmd → Cmd) : (updCmd b c f).aonImage = b.aonImage := rfl
@[simp] theorem updCmd_tbl (b : Block) (c : Nat) (f : Cmd → Cmd) : (updCmd b c f).tbl = b.tbl := rfl
@[simp] theorem updCmd_tblBad (b : Block) (c : Nat) (f : Cmd → Cmd) : (updCmd b c f).tblBad = b.tblBad := rfl
@[simp] theorem updCmd_famDirty (b : Block) (c : Nat) (f : Cmd → Cmd) : (updCmd b c f).famDirty = b.famDirty := rfl
@[simp] theorem updCmd_rset (b : Block) (c : Nat) (f : Cmd → Cmd) : (updCmd b c f).rset = b.rset := rfl
@[simp] theorem updCmd_rowSnap (b : Block) (c : Nat) (f : Cmd → Cmd) : (updCmd b c f).rowSnap = b.rowSnap := rfl
@[simp] theorem updCmd_digests (b : Block) (c : Nat) (f : Cmd → Cmd) : (updCmd b c f).digests = b.digests := rfl
@[simp] theorem updCmd_wk (b : Block) (c : Nat) (f : Cmd → Cmd) : (updCmd b c f).wk = b.wk := rfl
@[simp] theorem updCmd_keys (b : Block) (c : Nat) (f : Cmd → Cmd) : (updCmd b c f).keys = b.keys := rfl
@[simp] theorem updCmd_gens (b : Block) (c : Nat) (f : Cmd → Cmd) : (updCmd b c f).gens = b.gens := rfl
@[simp] theorem updCmd_vlog (b : Block) (c : Nat) (f : Cmd → Cmd) : (updCmd b c f).vlog = b.vlog := rfl
@[simp] theorem updCmd_att (b : Block) (c : Nat) (f : Cmd → Cmd) : (updCmd b c f).att = b.att := rfl
@[simp] theorem updCmd_cf (b : Block) (c : Nat) (f : Cmd → Cmd) : (updCmd b c f).cf = b.cf := rfl
@[simp] theorem updCmd_credits (b : Block) (c : Nat) (f : Cmd → Cmd) : (updCmd b c f).credits = b.credits := rfl
@[simp] theorem updCmd_bursts (b : Block) (c : Nat) (f : Cmd → Cmd) : (updCmd b c f).bursts = b.bursts := rfl
@[simp] theorem updCmd_quar (b : Block) (c : Nat) (f : Cmd → Cmd) : (updCmd b c f).quar = b.quar := rfl
@[simp] theorem updCmd_rr (b : Block) (c : Nat) (f : Cmd → Cmd) : (updCmd b c f).rr = b.rr := rfl
@[simp] theorem updCmd_answers (b : Block) (c : Nat) (f : Cmd → Cmd) : (updCmd b c f).answers = b.answers := rfl
@[simp] theorem updCmd_lastAnswer (b : Block) (c : Nat) (f : Cmd → Cmd) : (updCmd b c f).lastAnswer = b.lastAnswer := rfl
@[simp] theorem updCmd_srcs (b : Block) (c : Nat) (f : Cmd → Cmd) : (updCmd b c f).srcs = b.srcs := rfl
@[simp] theorem updCmd_idleIn (b : Block) (c : Nat) (f : Cmd → Cmd) : (updCmd b c f).idleIn = b.idleIn := rfl
@[simp] theorem updCmd_sleepIn (b : Block) (c : Nat) (f : Cmd → Cmd) : (updCmd b c f).sleepIn = b.sleepIn := rfl
@[simp] theorem updCmd_wake (b : Block) (c : Nat) (f : Cmd → Cmd) : (updCmd b c f).wake = b.wake := rfl
@[simp] theorem updCmd_sqs (b : Block) (c : Nat) (f : Cmd → Cmd) : (updCmd b c f).sqs = b.sqs := rfl
@[simp] theorem updCmd_cqs (b : Block) (c : Nat) (f : Cmd → Cmd) : (updCmd b c f).cqs = b.cqs := rfl
@[simp] theorem updCmd_pavs (b : Block) (c : Nat) (f : Cmd → Cmd) : (updCmd b c f).pavs = b.pavs := rfl
@[simp] theorem updCmd_lastPav (b : Block) (c : Nat) (f : Cmd → Cmd) : (updCmd b c f).lastPav = b.lastPav := rfl
@[simp] theorem updCmd_stripes (b : Block) (c : Nat) (f : Cmd → Cmd) : (updCmd b c f).stripes = b.stripes := rfl
@[simp] theorem updCmd_entries (b : Block) (c : Nat) (f : Cmd → Cmd) : (updCmd b c f).entries = b.entries := rfl
@[simp] theorem updCmd_nextId (b : Block) (c : Nat) (f : Cmd → Cmd) : (updCmd b c f).nextId = b.nextId := rfl
@[simp] theorem updCmd_order (b : Block) (c : Nat) (f : Cmd → Cmd) : (updCmd b c f).order = b.order := rfl
@[simp] theorem updCmd_lanes (b : Block) (c : Nat) (f : Cmd → Cmd) : (updCmd b c f).lanes = b.lanes := rfl
@[simp] theorem updCmd_dies (b : Block) (c : Nat) (f : Cmd → Cmd) : (updCmd b c f).dies = b.dies := rfl
@[simp] theorem updCmd_maps (b : Block) (c : Nat) (f : Cmd → Cmd) : (updCmd b c f).maps = b.maps := rfl
@[simp] theorem updCmd_cws (b : Block) (c : Nat) (f : Cmd → Cmd) : (updCmd b c f).cws = b.cws := rfl
@[simp] theorem updCmd_chans (b : Block) (c : Nat) (f : Cmd → Cmd) : (updCmd b c f).chans = b.chans := rfl
@[simp] theorem updCmd_juncs (b : Block) (c : Nat) (f : Cmd → Cmd) : (updCmd b c f).juncs = b.juncs := rfl
@[simp] theorem updCmd_toll (b : Block) (c : Nat) (f : Cmd → Cmd) : (updCmd b c f).toll = b.toll := rfl
@[simp] theorem updCmd_planted (b : Block) (c : Nat) (f : Cmd → Cmd) : (updCmd b c f).planted = b.planted := rfl
@[simp] theorem updCmd_lapLen (b : Block) (c : Nat) (f : Cmd → Cmd) : (updCmd b c f).lapLen = b.lapLen := rfl
@[simp] theorem updCmd_scrub (b : Block) (c : Nat) (f : Cmd → Cmd) : (updCmd b c f).scrub = b.scrub := rfl
@[simp] theorem updCmd_atRisk (b : Block) (c : Nat) (f : Cmd → Cmd) : (updCmd b c f).atRisk = b.atRisk := rfl
@[simp] theorem updCmd_warnHeld (b : Block) (c : Nat) (f : Cmd → Cmd) : (updCmd b c f).warnHeld = b.warnHeld := rfl
@[simp] theorem updCmd_warnWhole (b : Block) (c : Nat) (f : Cmd → Cmd) : (updCmd b c f).warnWhole = b.warnWhole := rfl
@[simp] theorem updCmd_free (b : Block) (c : Nat) (f : Cmd → Cmd) : (updCmd b c f).free = b.free := rfl

@[simp] theorem updEntry_build (b : Block) (e : Nat) (f : Entry → Entry) : (updEntry b e f).build = b.build := rfl
@[simp] theorem updEntry_inReset (b : Block) (e : Nat) (f : Entry → Entry) : (updEntry b e f).inReset = b.inReset := rfl
@[simp] theorem updEntry_rstPin (b : Block) (e : Nat) (f : Entry → Entry) : (updEntry b e f).rstPin = b.rstPin := rfl
@[simp] theorem updEntry_porPin (b : Block) (e : Nat) (f : Entry → Entry) : (updEntry b e f).porPin = b.porPin := rfl
@[simp] theorem updEntry_brownHold (b : Block) (e : Nat) (f : Entry → Entry) : (updEntry b e f).brownHold = b.brownHold := rfl
@[simp] theorem updEntry_lxReady (b : Block) (e : Nat) (f : Entry → Entry) : (updEntry b e f).lxReady = b.lxReady := rfl
@[simp] theorem updEntry_restoring (b : Block) (e : Nat) (f : Entry → Entry) : (updEntry b e f).restoring = b.restoring := rfl
@[simp] theorem updEntry_ticking (b : Block) (e : Nat) (f : Entry → Entry) : (updEntry b e f).ticking = b.ticking := rfl
@[simp] theorem updEntry_milepost (b : Block) (e : Nat) (f : Entry → Entry) : (updEntry b e f).milepost = b.milepost := rfl
@[simp] theorem updEntry_mileLatch (b : Block) (e : Nat) (f : Entry → Entry) : (updEntry b e f).mileLatch = b.mileLatch := rfl
@[simp] theorem updEntry_newPeriod (b : Block) (e : Nat) (f : Entry → Entry) : (updEntry b e f).newPeriod = b.newPeriod := rfl
@[simp] theorem updEntry_boardAt (b : Block) (e : Nat) (f : Entry → Entry) : (updEntry b e f).boardAt = b.boardAt := rfl
@[simp] theorem updEntry_sensors (b : Block) (e : Nat) (f : Entry → Entry) : (updEntry b e f).sensors = b.sensors := rfl
@[simp] theorem updEntry_comp105 (b : Block) (e : Nat) (f : Entry → Entry) : (updEntry b e f).comp105 = b.comp105 := rfl
@[simp] theorem updEntry_regs (b : Block) (e : Nat) (f : Entry → Entry) : (updEntry b e f).regs = b.regs := rfl
@[simp] theorem updEntry_aonImage (b : Block) (e : Nat) (f : Entry → Entry) : (updEntry b e f).aonImage = b.aonImage := rfl
@[simp] theorem updEntry_tbl (b : Block) (e : Nat) (f : Entry → Entry) : (updEntry b e f).tbl = b.tbl := rfl
@[simp] theorem updEntry_tblBad (b : Block) (e : Nat) (f : Entry → Entry) : (updEntry b e f).tblBad = b.tblBad := rfl
@[simp] theorem updEntry_famDirty (b : Block) (e : Nat) (f : Entry → Entry) : (updEntry b e f).famDirty = b.famDirty := rfl
@[simp] theorem updEntry_rset (b : Block) (e : Nat) (f : Entry → Entry) : (updEntry b e f).rset = b.rset := rfl
@[simp] theorem updEntry_rowSnap (b : Block) (e : Nat) (f : Entry → Entry) : (updEntry b e f).rowSnap = b.rowSnap := rfl
@[simp] theorem updEntry_digests (b : Block) (e : Nat) (f : Entry → Entry) : (updEntry b e f).digests = b.digests := rfl
@[simp] theorem updEntry_wk (b : Block) (e : Nat) (f : Entry → Entry) : (updEntry b e f).wk = b.wk := rfl
@[simp] theorem updEntry_keys (b : Block) (e : Nat) (f : Entry → Entry) : (updEntry b e f).keys = b.keys := rfl
@[simp] theorem updEntry_gens (b : Block) (e : Nat) (f : Entry → Entry) : (updEntry b e f).gens = b.gens := rfl
@[simp] theorem updEntry_vlog (b : Block) (e : Nat) (f : Entry → Entry) : (updEntry b e f).vlog = b.vlog := rfl
@[simp] theorem updEntry_att (b : Block) (e : Nat) (f : Entry → Entry) : (updEntry b e f).att = b.att := rfl
@[simp] theorem updEntry_cf (b : Block) (e : Nat) (f : Entry → Entry) : (updEntry b e f).cf = b.cf := rfl
@[simp] theorem updEntry_credits (b : Block) (e : Nat) (f : Entry → Entry) : (updEntry b e f).credits = b.credits := rfl
@[simp] theorem updEntry_bursts (b : Block) (e : Nat) (f : Entry → Entry) : (updEntry b e f).bursts = b.bursts := rfl
@[simp] theorem updEntry_quar (b : Block) (e : Nat) (f : Entry → Entry) : (updEntry b e f).quar = b.quar := rfl
@[simp] theorem updEntry_rr (b : Block) (e : Nat) (f : Entry → Entry) : (updEntry b e f).rr = b.rr := rfl
@[simp] theorem updEntry_answers (b : Block) (e : Nat) (f : Entry → Entry) : (updEntry b e f).answers = b.answers := rfl
@[simp] theorem updEntry_lastAnswer (b : Block) (e : Nat) (f : Entry → Entry) : (updEntry b e f).lastAnswer = b.lastAnswer := rfl
@[simp] theorem updEntry_srcs (b : Block) (e : Nat) (f : Entry → Entry) : (updEntry b e f).srcs = b.srcs := rfl
@[simp] theorem updEntry_idleIn (b : Block) (e : Nat) (f : Entry → Entry) : (updEntry b e f).idleIn = b.idleIn := rfl
@[simp] theorem updEntry_sleepIn (b : Block) (e : Nat) (f : Entry → Entry) : (updEntry b e f).sleepIn = b.sleepIn := rfl
@[simp] theorem updEntry_wake (b : Block) (e : Nat) (f : Entry → Entry) : (updEntry b e f).wake = b.wake := rfl
@[simp] theorem updEntry_sqs (b : Block) (e : Nat) (f : Entry → Entry) : (updEntry b e f).sqs = b.sqs := rfl
@[simp] theorem updEntry_cqs (b : Block) (e : Nat) (f : Entry → Entry) : (updEntry b e f).cqs = b.cqs := rfl
@[simp] theorem updEntry_pavs (b : Block) (e : Nat) (f : Entry → Entry) : (updEntry b e f).pavs = b.pavs := rfl
@[simp] theorem updEntry_lastPav (b : Block) (e : Nat) (f : Entry → Entry) : (updEntry b e f).lastPav = b.lastPav := rfl
@[simp] theorem updEntry_stripes (b : Block) (e : Nat) (f : Entry → Entry) : (updEntry b e f).stripes = b.stripes := rfl
@[simp] theorem updEntry_cmds (b : Block) (e : Nat) (f : Entry → Entry) : (updEntry b e f).cmds = b.cmds := rfl
@[simp] theorem updEntry_nextId (b : Block) (e : Nat) (f : Entry → Entry) : (updEntry b e f).nextId = b.nextId := rfl
@[simp] theorem updEntry_order (b : Block) (e : Nat) (f : Entry → Entry) : (updEntry b e f).order = b.order := rfl
@[simp] theorem updEntry_lanes (b : Block) (e : Nat) (f : Entry → Entry) : (updEntry b e f).lanes = b.lanes := rfl
@[simp] theorem updEntry_dies (b : Block) (e : Nat) (f : Entry → Entry) : (updEntry b e f).dies = b.dies := rfl
@[simp] theorem updEntry_maps (b : Block) (e : Nat) (f : Entry → Entry) : (updEntry b e f).maps = b.maps := rfl
@[simp] theorem updEntry_cws (b : Block) (e : Nat) (f : Entry → Entry) : (updEntry b e f).cws = b.cws := rfl
@[simp] theorem updEntry_chans (b : Block) (e : Nat) (f : Entry → Entry) : (updEntry b e f).chans = b.chans := rfl
@[simp] theorem updEntry_juncs (b : Block) (e : Nat) (f : Entry → Entry) : (updEntry b e f).juncs = b.juncs := rfl
@[simp] theorem updEntry_toll (b : Block) (e : Nat) (f : Entry → Entry) : (updEntry b e f).toll = b.toll := rfl
@[simp] theorem updEntry_planted (b : Block) (e : Nat) (f : Entry → Entry) : (updEntry b e f).planted = b.planted := rfl
@[simp] theorem updEntry_lapLen (b : Block) (e : Nat) (f : Entry → Entry) : (updEntry b e f).lapLen = b.lapLen := rfl
@[simp] theorem updEntry_scrub (b : Block) (e : Nat) (f : Entry → Entry) : (updEntry b e f).scrub = b.scrub := rfl
@[simp] theorem updEntry_atRisk (b : Block) (e : Nat) (f : Entry → Entry) : (updEntry b e f).atRisk = b.atRisk := rfl
@[simp] theorem updEntry_warnHeld (b : Block) (e : Nat) (f : Entry → Entry) : (updEntry b e f).warnHeld = b.warnHeld := rfl
@[simp] theorem updEntry_warnWhole (b : Block) (e : Nat) (f : Entry → Entry) : (updEntry b e f).warnWhole = b.warnWhole := rfl
@[simp] theorem updEntry_free (b : Block) (e : Nat) (f : Entry → Entry) : (updEntry b e f).free = b.free := rfl

@[simp] theorem updCw_build (b : Block) (c : Nat) (f : Cw → Cw) : (updCw b c f).build = b.build := rfl
@[simp] theorem updCw_inReset (b : Block) (c : Nat) (f : Cw → Cw) : (updCw b c f).inReset = b.inReset := rfl
@[simp] theorem updCw_rstPin (b : Block) (c : Nat) (f : Cw → Cw) : (updCw b c f).rstPin = b.rstPin := rfl
@[simp] theorem updCw_porPin (b : Block) (c : Nat) (f : Cw → Cw) : (updCw b c f).porPin = b.porPin := rfl
@[simp] theorem updCw_brownHold (b : Block) (c : Nat) (f : Cw → Cw) : (updCw b c f).brownHold = b.brownHold := rfl
@[simp] theorem updCw_lxReady (b : Block) (c : Nat) (f : Cw → Cw) : (updCw b c f).lxReady = b.lxReady := rfl
@[simp] theorem updCw_restoring (b : Block) (c : Nat) (f : Cw → Cw) : (updCw b c f).restoring = b.restoring := rfl
@[simp] theorem updCw_ticking (b : Block) (c : Nat) (f : Cw → Cw) : (updCw b c f).ticking = b.ticking := rfl
@[simp] theorem updCw_milepost (b : Block) (c : Nat) (f : Cw → Cw) : (updCw b c f).milepost = b.milepost := rfl
@[simp] theorem updCw_mileLatch (b : Block) (c : Nat) (f : Cw → Cw) : (updCw b c f).mileLatch = b.mileLatch := rfl
@[simp] theorem updCw_newPeriod (b : Block) (c : Nat) (f : Cw → Cw) : (updCw b c f).newPeriod = b.newPeriod := rfl
@[simp] theorem updCw_boardAt (b : Block) (c : Nat) (f : Cw → Cw) : (updCw b c f).boardAt = b.boardAt := rfl
@[simp] theorem updCw_sensors (b : Block) (c : Nat) (f : Cw → Cw) : (updCw b c f).sensors = b.sensors := rfl
@[simp] theorem updCw_comp105 (b : Block) (c : Nat) (f : Cw → Cw) : (updCw b c f).comp105 = b.comp105 := rfl
@[simp] theorem updCw_regs (b : Block) (c : Nat) (f : Cw → Cw) : (updCw b c f).regs = b.regs := rfl
@[simp] theorem updCw_aonImage (b : Block) (c : Nat) (f : Cw → Cw) : (updCw b c f).aonImage = b.aonImage := rfl
@[simp] theorem updCw_tbl (b : Block) (c : Nat) (f : Cw → Cw) : (updCw b c f).tbl = b.tbl := rfl
@[simp] theorem updCw_tblBad (b : Block) (c : Nat) (f : Cw → Cw) : (updCw b c f).tblBad = b.tblBad := rfl
@[simp] theorem updCw_famDirty (b : Block) (c : Nat) (f : Cw → Cw) : (updCw b c f).famDirty = b.famDirty := rfl
@[simp] theorem updCw_rset (b : Block) (c : Nat) (f : Cw → Cw) : (updCw b c f).rset = b.rset := rfl
@[simp] theorem updCw_rowSnap (b : Block) (c : Nat) (f : Cw → Cw) : (updCw b c f).rowSnap = b.rowSnap := rfl
@[simp] theorem updCw_digests (b : Block) (c : Nat) (f : Cw → Cw) : (updCw b c f).digests = b.digests := rfl
@[simp] theorem updCw_wk (b : Block) (c : Nat) (f : Cw → Cw) : (updCw b c f).wk = b.wk := rfl
@[simp] theorem updCw_keys (b : Block) (c : Nat) (f : Cw → Cw) : (updCw b c f).keys = b.keys := rfl
@[simp] theorem updCw_gens (b : Block) (c : Nat) (f : Cw → Cw) : (updCw b c f).gens = b.gens := rfl
@[simp] theorem updCw_vlog (b : Block) (c : Nat) (f : Cw → Cw) : (updCw b c f).vlog = b.vlog := rfl
@[simp] theorem updCw_att (b : Block) (c : Nat) (f : Cw → Cw) : (updCw b c f).att = b.att := rfl
@[simp] theorem updCw_cf (b : Block) (c : Nat) (f : Cw → Cw) : (updCw b c f).cf = b.cf := rfl
@[simp] theorem updCw_credits (b : Block) (c : Nat) (f : Cw → Cw) : (updCw b c f).credits = b.credits := rfl
@[simp] theorem updCw_bursts (b : Block) (c : Nat) (f : Cw → Cw) : (updCw b c f).bursts = b.bursts := rfl
@[simp] theorem updCw_quar (b : Block) (c : Nat) (f : Cw → Cw) : (updCw b c f).quar = b.quar := rfl
@[simp] theorem updCw_rr (b : Block) (c : Nat) (f : Cw → Cw) : (updCw b c f).rr = b.rr := rfl
@[simp] theorem updCw_answers (b : Block) (c : Nat) (f : Cw → Cw) : (updCw b c f).answers = b.answers := rfl
@[simp] theorem updCw_lastAnswer (b : Block) (c : Nat) (f : Cw → Cw) : (updCw b c f).lastAnswer = b.lastAnswer := rfl
@[simp] theorem updCw_srcs (b : Block) (c : Nat) (f : Cw → Cw) : (updCw b c f).srcs = b.srcs := rfl
@[simp] theorem updCw_idleIn (b : Block) (c : Nat) (f : Cw → Cw) : (updCw b c f).idleIn = b.idleIn := rfl
@[simp] theorem updCw_sleepIn (b : Block) (c : Nat) (f : Cw → Cw) : (updCw b c f).sleepIn = b.sleepIn := rfl
@[simp] theorem updCw_wake (b : Block) (c : Nat) (f : Cw → Cw) : (updCw b c f).wake = b.wake := rfl
@[simp] theorem updCw_sqs (b : Block) (c : Nat) (f : Cw → Cw) : (updCw b c f).sqs = b.sqs := rfl
@[simp] theorem updCw_cqs (b : Block) (c : Nat) (f : Cw → Cw) : (updCw b c f).cqs = b.cqs := rfl
@[simp] theorem updCw_pavs (b : Block) (c : Nat) (f : Cw → Cw) : (updCw b c f).pavs = b.pavs := rfl
@[simp] theorem updCw_lastPav (b : Block) (c : Nat) (f : Cw → Cw) : (updCw b c f).lastPav = b.lastPav := rfl
@[simp] theorem updCw_stripes (b : Block) (c : Nat) (f : Cw → Cw) : (updCw b c f).stripes = b.stripes := rfl
@[simp] theorem updCw_cmds (b : Block) (c : Nat) (f : Cw → Cw) : (updCw b c f).cmds = b.cmds := rfl
@[simp] theorem updCw_entries (b : Block) (c : Nat) (f : Cw → Cw) : (updCw b c f).entries = b.entries := rfl
@[simp] theorem updCw_nextId (b : Block) (c : Nat) (f : Cw → Cw) : (updCw b c f).nextId = b.nextId := rfl
@[simp] theorem updCw_order (b : Block) (c : Nat) (f : Cw → Cw) : (updCw b c f).order = b.order := rfl
@[simp] theorem updCw_lanes (b : Block) (c : Nat) (f : Cw → Cw) : (updCw b c f).lanes = b.lanes := rfl
@[simp] theorem updCw_dies (b : Block) (c : Nat) (f : Cw → Cw) : (updCw b c f).dies = b.dies := rfl
@[simp] theorem updCw_maps (b : Block) (c : Nat) (f : Cw → Cw) : (updCw b c f).maps = b.maps := rfl
@[simp] theorem updCw_chans (b : Block) (c : Nat) (f : Cw → Cw) : (updCw b c f).chans = b.chans := rfl
@[simp] theorem updCw_juncs (b : Block) (c : Nat) (f : Cw → Cw) : (updCw b c f).juncs = b.juncs := rfl
@[simp] theorem updCw_toll (b : Block) (c : Nat) (f : Cw → Cw) : (updCw b c f).toll = b.toll := rfl
@[simp] theorem updCw_planted (b : Block) (c : Nat) (f : Cw → Cw) : (updCw b c f).planted = b.planted := rfl
@[simp] theorem updCw_lapLen (b : Block) (c : Nat) (f : Cw → Cw) : (updCw b c f).lapLen = b.lapLen := rfl
@[simp] theorem updCw_scrub (b : Block) (c : Nat) (f : Cw → Cw) : (updCw b c f).scrub = b.scrub := rfl
@[simp] theorem updCw_atRisk (b : Block) (c : Nat) (f : Cw → Cw) : (updCw b c f).atRisk = b.atRisk := rfl
@[simp] theorem updCw_warnHeld (b : Block) (c : Nat) (f : Cw → Cw) : (updCw b c f).warnHeld = b.warnHeld := rfl
@[simp] theorem updCw_warnWhole (b : Block) (c : Nat) (f : Cw → Cw) : (updCw b c f).warnWhole = b.warnWhole := rfl
@[simp] theorem updCw_free (b : Block) (c : Nat) (f : Cw → Cw) : (updCw b c f).free = b.free := rfl

@[simp] theorem updChan_build (b : Block) (j g : Nat) (f : Chan → Chan) : (updChan b j g f).build = b.build := rfl
@[simp] theorem updChan_inReset (b : Block) (j g : Nat) (f : Chan → Chan) : (updChan b j g f).inReset = b.inReset := rfl
@[simp] theorem updChan_rstPin (b : Block) (j g : Nat) (f : Chan → Chan) : (updChan b j g f).rstPin = b.rstPin := rfl
@[simp] theorem updChan_porPin (b : Block) (j g : Nat) (f : Chan → Chan) : (updChan b j g f).porPin = b.porPin := rfl
@[simp] theorem updChan_brownHold (b : Block) (j g : Nat) (f : Chan → Chan) : (updChan b j g f).brownHold = b.brownHold := rfl
@[simp] theorem updChan_lxReady (b : Block) (j g : Nat) (f : Chan → Chan) : (updChan b j g f).lxReady = b.lxReady := rfl
@[simp] theorem updChan_restoring (b : Block) (j g : Nat) (f : Chan → Chan) : (updChan b j g f).restoring = b.restoring := rfl
@[simp] theorem updChan_ticking (b : Block) (j g : Nat) (f : Chan → Chan) : (updChan b j g f).ticking = b.ticking := rfl
@[simp] theorem updChan_milepost (b : Block) (j g : Nat) (f : Chan → Chan) : (updChan b j g f).milepost = b.milepost := rfl
@[simp] theorem updChan_mileLatch (b : Block) (j g : Nat) (f : Chan → Chan) : (updChan b j g f).mileLatch = b.mileLatch := rfl
@[simp] theorem updChan_newPeriod (b : Block) (j g : Nat) (f : Chan → Chan) : (updChan b j g f).newPeriod = b.newPeriod := rfl
@[simp] theorem updChan_boardAt (b : Block) (j g : Nat) (f : Chan → Chan) : (updChan b j g f).boardAt = b.boardAt := rfl
@[simp] theorem updChan_sensors (b : Block) (j g : Nat) (f : Chan → Chan) : (updChan b j g f).sensors = b.sensors := rfl
@[simp] theorem updChan_comp105 (b : Block) (j g : Nat) (f : Chan → Chan) : (updChan b j g f).comp105 = b.comp105 := rfl
@[simp] theorem updChan_regs (b : Block) (j g : Nat) (f : Chan → Chan) : (updChan b j g f).regs = b.regs := rfl
@[simp] theorem updChan_aonImage (b : Block) (j g : Nat) (f : Chan → Chan) : (updChan b j g f).aonImage = b.aonImage := rfl
@[simp] theorem updChan_tbl (b : Block) (j g : Nat) (f : Chan → Chan) : (updChan b j g f).tbl = b.tbl := rfl
@[simp] theorem updChan_tblBad (b : Block) (j g : Nat) (f : Chan → Chan) : (updChan b j g f).tblBad = b.tblBad := rfl
@[simp] theorem updChan_famDirty (b : Block) (j g : Nat) (f : Chan → Chan) : (updChan b j g f).famDirty = b.famDirty := rfl
@[simp] theorem updChan_rset (b : Block) (j g : Nat) (f : Chan → Chan) : (updChan b j g f).rset = b.rset := rfl
@[simp] theorem updChan_rowSnap (b : Block) (j g : Nat) (f : Chan → Chan) : (updChan b j g f).rowSnap = b.rowSnap := rfl
@[simp] theorem updChan_digests (b : Block) (j g : Nat) (f : Chan → Chan) : (updChan b j g f).digests = b.digests := rfl
@[simp] theorem updChan_wk (b : Block) (j g : Nat) (f : Chan → Chan) : (updChan b j g f).wk = b.wk := rfl
@[simp] theorem updChan_keys (b : Block) (j g : Nat) (f : Chan → Chan) : (updChan b j g f).keys = b.keys := rfl
@[simp] theorem updChan_gens (b : Block) (j g : Nat) (f : Chan → Chan) : (updChan b j g f).gens = b.gens := rfl
@[simp] theorem updChan_vlog (b : Block) (j g : Nat) (f : Chan → Chan) : (updChan b j g f).vlog = b.vlog := rfl
@[simp] theorem updChan_att (b : Block) (j g : Nat) (f : Chan → Chan) : (updChan b j g f).att = b.att := rfl
@[simp] theorem updChan_cf (b : Block) (j g : Nat) (f : Chan → Chan) : (updChan b j g f).cf = b.cf := rfl
@[simp] theorem updChan_credits (b : Block) (j g : Nat) (f : Chan → Chan) : (updChan b j g f).credits = b.credits := rfl
@[simp] theorem updChan_bursts (b : Block) (j g : Nat) (f : Chan → Chan) : (updChan b j g f).bursts = b.bursts := rfl
@[simp] theorem updChan_quar (b : Block) (j g : Nat) (f : Chan → Chan) : (updChan b j g f).quar = b.quar := rfl
@[simp] theorem updChan_rr (b : Block) (j g : Nat) (f : Chan → Chan) : (updChan b j g f).rr = b.rr := rfl
@[simp] theorem updChan_answers (b : Block) (j g : Nat) (f : Chan → Chan) : (updChan b j g f).answers = b.answers := rfl
@[simp] theorem updChan_lastAnswer (b : Block) (j g : Nat) (f : Chan → Chan) : (updChan b j g f).lastAnswer = b.lastAnswer := rfl
@[simp] theorem updChan_srcs (b : Block) (j g : Nat) (f : Chan → Chan) : (updChan b j g f).srcs = b.srcs := rfl
@[simp] theorem updChan_idleIn (b : Block) (j g : Nat) (f : Chan → Chan) : (updChan b j g f).idleIn = b.idleIn := rfl
@[simp] theorem updChan_sleepIn (b : Block) (j g : Nat) (f : Chan → Chan) : (updChan b j g f).sleepIn = b.sleepIn := rfl
@[simp] theorem updChan_wake (b : Block) (j g : Nat) (f : Chan → Chan) : (updChan b j g f).wake = b.wake := rfl
@[simp] theorem updChan_sqs (b : Block) (j g : Nat) (f : Chan → Chan) : (updChan b j g f).sqs = b.sqs := rfl
@[simp] theorem updChan_cqs (b : Block) (j g : Nat) (f : Chan → Chan) : (updChan b j g f).cqs = b.cqs := rfl
@[simp] theorem updChan_pavs (b : Block) (j g : Nat) (f : Chan → Chan) : (updChan b j g f).pavs = b.pavs := rfl
@[simp] theorem updChan_lastPav (b : Block) (j g : Nat) (f : Chan → Chan) : (updChan b j g f).lastPav = b.lastPav := rfl
@[simp] theorem updChan_stripes (b : Block) (j g : Nat) (f : Chan → Chan) : (updChan b j g f).stripes = b.stripes := rfl
@[simp] theorem updChan_cmds (b : Block) (j g : Nat) (f : Chan → Chan) : (updChan b j g f).cmds = b.cmds := rfl
@[simp] theorem updChan_entries (b : Block) (j g : Nat) (f : Chan → Chan) : (updChan b j g f).entries = b.entries := rfl
@[simp] theorem updChan_nextId (b : Block) (j g : Nat) (f : Chan → Chan) : (updChan b j g f).nextId = b.nextId := rfl
@[simp] theorem updChan_order (b : Block) (j g : Nat) (f : Chan → Chan) : (updChan b j g f).order = b.order := rfl
@[simp] theorem updChan_lanes (b : Block) (j g : Nat) (f : Chan → Chan) : (updChan b j g f).lanes = b.lanes := rfl
@[simp] theorem updChan_dies (b : Block) (j g : Nat) (f : Chan → Chan) : (updChan b j g f).dies = b.dies := rfl
@[simp] theorem updChan_maps (b : Block) (j g : Nat) (f : Chan → Chan) : (updChan b j g f).maps = b.maps := rfl
@[simp] theorem updChan_cws (b : Block) (j g : Nat) (f : Chan → Chan) : (updChan b j g f).cws = b.cws := rfl
@[simp] theorem updChan_juncs (b : Block) (j g : Nat) (f : Chan → Chan) : (updChan b j g f).juncs = b.juncs := rfl
@[simp] theorem updChan_toll (b : Block) (j g : Nat) (f : Chan → Chan) : (updChan b j g f).toll = b.toll := rfl
@[simp] theorem updChan_planted (b : Block) (j g : Nat) (f : Chan → Chan) : (updChan b j g f).planted = b.planted := rfl
@[simp] theorem updChan_lapLen (b : Block) (j g : Nat) (f : Chan → Chan) : (updChan b j g f).lapLen = b.lapLen := rfl
@[simp] theorem updChan_scrub (b : Block) (j g : Nat) (f : Chan → Chan) : (updChan b j g f).scrub = b.scrub := rfl
@[simp] theorem updChan_atRisk (b : Block) (j g : Nat) (f : Chan → Chan) : (updChan b j g f).atRisk = b.atRisk := rfl
@[simp] theorem updChan_warnHeld (b : Block) (j g : Nat) (f : Chan → Chan) : (updChan b j g f).warnHeld = b.warnHeld := rfl
@[simp] theorem updChan_warnWhole (b : Block) (j g : Nat) (f : Chan → Chan) : (updChan b j g f).warnWhole = b.warnWhole := rfl
@[simp] theorem updChan_free (b : Block) (j g : Nat) (f : Chan → Chan) : (updChan b j g f).free = b.free := rfl

@[simp] theorem updJunc_build (b : Block) (j : Nat) (f : Junction → Junction) : (updJunc b j f).build = b.build := rfl
@[simp] theorem updJunc_inReset (b : Block) (j : Nat) (f : Junction → Junction) : (updJunc b j f).inReset = b.inReset := rfl
@[simp] theorem updJunc_rstPin (b : Block) (j : Nat) (f : Junction → Junction) : (updJunc b j f).rstPin = b.rstPin := rfl
@[simp] theorem updJunc_porPin (b : Block) (j : Nat) (f : Junction → Junction) : (updJunc b j f).porPin = b.porPin := rfl
@[simp] theorem updJunc_brownHold (b : Block) (j : Nat) (f : Junction → Junction) : (updJunc b j f).brownHold = b.brownHold := rfl
@[simp] theorem updJunc_lxReady (b : Block) (j : Nat) (f : Junction → Junction) : (updJunc b j f).lxReady = b.lxReady := rfl
@[simp] theorem updJunc_restoring (b : Block) (j : Nat) (f : Junction → Junction) : (updJunc b j f).restoring = b.restoring := rfl
@[simp] theorem updJunc_ticking (b : Block) (j : Nat) (f : Junction → Junction) : (updJunc b j f).ticking = b.ticking := rfl
@[simp] theorem updJunc_milepost (b : Block) (j : Nat) (f : Junction → Junction) : (updJunc b j f).milepost = b.milepost := rfl
@[simp] theorem updJunc_mileLatch (b : Block) (j : Nat) (f : Junction → Junction) : (updJunc b j f).mileLatch = b.mileLatch := rfl
@[simp] theorem updJunc_newPeriod (b : Block) (j : Nat) (f : Junction → Junction) : (updJunc b j f).newPeriod = b.newPeriod := rfl
@[simp] theorem updJunc_boardAt (b : Block) (j : Nat) (f : Junction → Junction) : (updJunc b j f).boardAt = b.boardAt := rfl
@[simp] theorem updJunc_sensors (b : Block) (j : Nat) (f : Junction → Junction) : (updJunc b j f).sensors = b.sensors := rfl
@[simp] theorem updJunc_comp105 (b : Block) (j : Nat) (f : Junction → Junction) : (updJunc b j f).comp105 = b.comp105 := rfl
@[simp] theorem updJunc_regs (b : Block) (j : Nat) (f : Junction → Junction) : (updJunc b j f).regs = b.regs := rfl
@[simp] theorem updJunc_aonImage (b : Block) (j : Nat) (f : Junction → Junction) : (updJunc b j f).aonImage = b.aonImage := rfl
@[simp] theorem updJunc_tbl (b : Block) (j : Nat) (f : Junction → Junction) : (updJunc b j f).tbl = b.tbl := rfl
@[simp] theorem updJunc_tblBad (b : Block) (j : Nat) (f : Junction → Junction) : (updJunc b j f).tblBad = b.tblBad := rfl
@[simp] theorem updJunc_famDirty (b : Block) (j : Nat) (f : Junction → Junction) : (updJunc b j f).famDirty = b.famDirty := rfl
@[simp] theorem updJunc_rset (b : Block) (j : Nat) (f : Junction → Junction) : (updJunc b j f).rset = b.rset := rfl
@[simp] theorem updJunc_rowSnap (b : Block) (j : Nat) (f : Junction → Junction) : (updJunc b j f).rowSnap = b.rowSnap := rfl
@[simp] theorem updJunc_digests (b : Block) (j : Nat) (f : Junction → Junction) : (updJunc b j f).digests = b.digests := rfl
@[simp] theorem updJunc_wk (b : Block) (j : Nat) (f : Junction → Junction) : (updJunc b j f).wk = b.wk := rfl
@[simp] theorem updJunc_keys (b : Block) (j : Nat) (f : Junction → Junction) : (updJunc b j f).keys = b.keys := rfl
@[simp] theorem updJunc_gens (b : Block) (j : Nat) (f : Junction → Junction) : (updJunc b j f).gens = b.gens := rfl
@[simp] theorem updJunc_vlog (b : Block) (j : Nat) (f : Junction → Junction) : (updJunc b j f).vlog = b.vlog := rfl
@[simp] theorem updJunc_att (b : Block) (j : Nat) (f : Junction → Junction) : (updJunc b j f).att = b.att := rfl
@[simp] theorem updJunc_cf (b : Block) (j : Nat) (f : Junction → Junction) : (updJunc b j f).cf = b.cf := rfl
@[simp] theorem updJunc_credits (b : Block) (j : Nat) (f : Junction → Junction) : (updJunc b j f).credits = b.credits := rfl
@[simp] theorem updJunc_bursts (b : Block) (j : Nat) (f : Junction → Junction) : (updJunc b j f).bursts = b.bursts := rfl
@[simp] theorem updJunc_quar (b : Block) (j : Nat) (f : Junction → Junction) : (updJunc b j f).quar = b.quar := rfl
@[simp] theorem updJunc_rr (b : Block) (j : Nat) (f : Junction → Junction) : (updJunc b j f).rr = b.rr := rfl
@[simp] theorem updJunc_answers (b : Block) (j : Nat) (f : Junction → Junction) : (updJunc b j f).answers = b.answers := rfl
@[simp] theorem updJunc_lastAnswer (b : Block) (j : Nat) (f : Junction → Junction) : (updJunc b j f).lastAnswer = b.lastAnswer := rfl
@[simp] theorem updJunc_srcs (b : Block) (j : Nat) (f : Junction → Junction) : (updJunc b j f).srcs = b.srcs := rfl
@[simp] theorem updJunc_idleIn (b : Block) (j : Nat) (f : Junction → Junction) : (updJunc b j f).idleIn = b.idleIn := rfl
@[simp] theorem updJunc_sleepIn (b : Block) (j : Nat) (f : Junction → Junction) : (updJunc b j f).sleepIn = b.sleepIn := rfl
@[simp] theorem updJunc_wake (b : Block) (j : Nat) (f : Junction → Junction) : (updJunc b j f).wake = b.wake := rfl
@[simp] theorem updJunc_sqs (b : Block) (j : Nat) (f : Junction → Junction) : (updJunc b j f).sqs = b.sqs := rfl
@[simp] theorem updJunc_cqs (b : Block) (j : Nat) (f : Junction → Junction) : (updJunc b j f).cqs = b.cqs := rfl
@[simp] theorem updJunc_pavs (b : Block) (j : Nat) (f : Junction → Junction) : (updJunc b j f).pavs = b.pavs := rfl
@[simp] theorem updJunc_lastPav (b : Block) (j : Nat) (f : Junction → Junction) : (updJunc b j f).lastPav = b.lastPav := rfl
@[simp] theorem updJunc_stripes (b : Block) (j : Nat) (f : Junction → Junction) : (updJunc b j f).stripes = b.stripes := rfl
@[simp] theorem updJunc_cmds (b : Block) (j : Nat) (f : Junction → Junction) : (updJunc b j f).cmds = b.cmds := rfl
@[simp] theorem updJunc_entries (b : Block) (j : Nat) (f : Junction → Junction) : (updJunc b j f).entries = b.entries := rfl
@[simp] theorem updJunc_nextId (b : Block) (j : Nat) (f : Junction → Junction) : (updJunc b j f).nextId = b.nextId := rfl
@[simp] theorem updJunc_order (b : Block) (j : Nat) (f : Junction → Junction) : (updJunc b j f).order = b.order := rfl
@[simp] theorem updJunc_lanes (b : Block) (j : Nat) (f : Junction → Junction) : (updJunc b j f).lanes = b.lanes := rfl
@[simp] theorem updJunc_dies (b : Block) (j : Nat) (f : Junction → Junction) : (updJunc b j f).dies = b.dies := rfl
@[simp] theorem updJunc_maps (b : Block) (j : Nat) (f : Junction → Junction) : (updJunc b j f).maps = b.maps := rfl
@[simp] theorem updJunc_cws (b : Block) (j : Nat) (f : Junction → Junction) : (updJunc b j f).cws = b.cws := rfl
@[simp] theorem updJunc_chans (b : Block) (j : Nat) (f : Junction → Junction) : (updJunc b j f).chans = b.chans := rfl
@[simp] theorem updJunc_toll (b : Block) (j : Nat) (f : Junction → Junction) : (updJunc b j f).toll = b.toll := rfl
@[simp] theorem updJunc_planted (b : Block) (j : Nat) (f : Junction → Junction) : (updJunc b j f).planted = b.planted := rfl
@[simp] theorem updJunc_lapLen (b : Block) (j : Nat) (f : Junction → Junction) : (updJunc b j f).lapLen = b.lapLen := rfl
@[simp] theorem updJunc_scrub (b : Block) (j : Nat) (f : Junction → Junction) : (updJunc b j f).scrub = b.scrub := rfl
@[simp] theorem updJunc_atRisk (b : Block) (j : Nat) (f : Junction → Junction) : (updJunc b j f).atRisk = b.atRisk := rfl
@[simp] theorem updJunc_warnHeld (b : Block) (j : Nat) (f : Junction → Junction) : (updJunc b j f).warnHeld = b.warnHeld := rfl
@[simp] theorem updJunc_warnWhole (b : Block) (j : Nat) (f : Junction → Junction) : (updJunc b j f).warnWhole = b.warnWhole := rfl
@[simp] theorem updJunc_free (b : Block) (j : Nat) (f : Junction → Junction) : (updJunc b j f).free = b.free := rfl

/-- Setting a field of a register is a write of its word. -/
theorem rputF_eq (b : Block) (a hi lo v : Nat) : rputF b a hi lo v = rput b a (setFld (rget b a) hi lo v) := rfl
/-- Setting a bit is a write of its word. -/
theorem rset1_eq (b : Block) (a i : Nat) : rset1 b a i = rput b a (rget b a ||| BitVec.ofNat 32 (2 ^ i)) := rfl
/-- Clearing a bit is a write of its word. -/
theorem rclr1_eq (b : Block) (a i : Nat) : rclr1 b a i = rput b a (rget b a &&& ~~~(BitVec.ofNat 32 (2 ^ i))) := rfl
/-- Counting is a write of the counter's word. -/
theorem rinc_eq (b : Block) (a hi lo k : Nat) :
    rinc b a hi lo k = rputF b a hi lo (min (rfld b a hi lo + k) (2 ^ (hi + 1 - lo) - 1)) := rfl
/-- Raising a field is a write of its word. -/
theorem rmax_eq (b : Block) (a hi lo v : Nat) : rmax b a hi lo v = rputF b a hi lo (max (rfld b a hi lo) v) := rfl

/-- A register word just written reads as written. -/
@[simp] theorem rget_rput_same (b : Block) (a : Nat) (w : Word) : rget (rput b a w) a = w := tget_tset_same _ _ _ _

/-- A register write leaves every other word alone. -/
theorem rget_rput_other (b : Block) (a c : Nat) (w : Word) (h : c ≠ a) : rget (rput b a w) c = rget b c :=
  tget_tset_other _ _ _ _ _ _ h

/-- The update shows at its own number. -/
@[simp] theorem lane_updLane_same (b : Block) (n : Nat) (f : Lane → Lane) : lane (updLane b n f) n = f (lane b n) := tget_tupd_same _ _ _ _
/-- And at no other. -/
theorem lane_updLane_other (b : Block) (n m : Nat) (f : Lane → Lane) (h : m ≠ n) : lane (updLane b n f) m = lane b m :=
  tget_tupd_other _ _ _ _ _ h

/-- The update shows at its own number. -/
@[simp] theorem sq_updSq_same (b : Block) (n : Nat) (f : Sq → Sq) : sq (updSq b n f) n = f (sq b n) := tget_tupd_same _ _ _ _
/-- And at no other. -/
theorem sq_updSq_other (b : Block) (n m : Nat) (f : Sq → Sq) (h : m ≠ n) : sq (updSq b n f) m = sq b m :=
  tget_tupd_other _ _ _ _ _ h

/-- The update shows at its own number. -/
@[simp] theorem cq_updCq_same (b : Block) (n : Nat) (f : Cq → Cq) : cq (updCq b n f) n = f (cq b n) := tget_tupd_same _ _ _ _
/-- And at no other. -/
theorem cq_updCq_other (b : Block) (n m : Nat) (f : Cq → Cq) (h : m ≠ n) : cq (updCq b n f) m = cq b m :=
  tget_tupd_other _ _ _ _ _ h

/-- The update shows at its own number. -/
@[simp] theorem pav_updPav_same (b : Block) (n : Nat) (f : Pav → Pav) : pav (updPav b n f) n = f (pav b n) := tget_tupd_same _ _ _ _
/-- And at no other. -/
theorem pav_updPav_other (b : Block) (n m : Nat) (f : Pav → Pav) (h : m ≠ n) : pav (updPav b n f) m = pav b m :=
  tget_tupd_other _ _ _ _ _ h

/-- The update shows at its own number. -/
@[simp] theorem stripe_updStripe_same (b : Block) (n : Nat) (f : Stripe → Stripe) : stripe (updStripe b n f) n = f (stripe b n) := tget_tupd_same _ _ _ _
/-- And at no other. -/
theorem stripe_updStripe_other (b : Block) (n m : Nat) (f : Stripe → Stripe) (h : m ≠ n) : stripe (updStripe b n f) m = stripe b m :=
  tget_tupd_other _ _ _ _ _ h

/-- The update shows at its own number. -/
@[simp] theorem cmd_updCmd_same (b : Block) (n : Nat) (f : Cmd → Cmd) : cmd (updCmd b n f) n = f (cmd b n) := tget_tupd_same _ _ _ _
/-- And at no other. -/
theorem cmd_updCmd_other (b : Block) (n m : Nat) (f : Cmd → Cmd) (h : m ≠ n) : cmd (updCmd b n f) m = cmd b m :=
  tget_tupd_other _ _ _ _ _ h

/-- The update shows at its own number. -/
@[simp] theorem entry_updEntry_same (b : Block) (n : Nat) (f : Entry → Entry) : entry (updEntry b n f) n = f (entry b n) := tget_tupd_same _ _ _ _
/-- And at no other. -/
theorem entry_updEntry_other (b : Block) (n m : Nat) (f : Entry → Entry) (h : m ≠ n) : entry (updEntry b n f) m = entry b m :=
  tget_tupd_other _ _ _ _ _ h

/-- The update shows at its own number. -/
@[simp] theorem cw_updCw_same (b : Block) (n : Nat) (f : Cw → Cw) : cw (updCw b n f) n = f (cw b n) := tget_tupd_same _ _ _ _
/-- And at no other. -/
theorem cw_updCw_other (b : Block) (n m : Nat) (f : Cw → Cw) (h : m ≠ n) : cw (updCw b n f) m = cw b m :=
  tget_tupd_other _ _ _ _ _ h

end Sys2Proof.Laws
end

