-- ==== Sys2Proof/Tests/Slice0.lean ====
section
/-! SUPPORT. Tests of the model: an ill-formed command for each check of well-formedness, for every statement with hypotheses the
states and operands that meet them, and small tests on values of the spec. -/

namespace Sys2Proof.Tests

open Sys2Proof Sys2Proof.Machine

-- The tests are elaborated one after another, which bounds the threads in use at once.
set_option Elab.async false

/-- Commands with one number out of its range: none is well formed. -/
theorem test_wf_refuses_1 : ([
    .controlStoreLoad 64 [], .controlStoreLoad 0 [⟨1024, 0, []⟩], .controlStoreLoad 0 [⟨0, 0, [512]⟩], .laneStart 64 [] [],
    .laneStart 0 [⟨64, true, 0, [], false⟩] [], .laneStart 0 [⟨0, true, 0, List.replicate 33 (0, 0), false⟩] [],
    .laneStart 0 [] [⟨1024, 0, []⟩], .laneStart 0 [] [⟨0, 0, [512]⟩], .dieTrain 64 0 [], .dieTrain 0 64 [],
    .dieTrain 0 0 (List.replicate 33 (0, 0)), .laneSlipEvent 64, .frameBuild 64, .suspendEarliestReached 64 0,
    .suspendEarliestReached 0 64, .suspendHoldExpiry 64 0, .suspendHoldExpiry 0 64, .ps1Entry 64, .thermalTrip 4,
    .refclkFail 8, .idleSleepChange 32 true true, .fabricReadReturn 8 0 0 0 0, .fabricReadReturn 0 256 0 0 0,
    .fabricReadReturn 0 0 4 0 0, .fabricWriteAck 8 0 0, .fabricWriteAck 0 256 0, .fabricResponseTimeout 8 true 0,
    .fabricResponseTimeout 0 true 256, .registerWrite 0x400000 0 0 true, .registerWrite 2 0 0 true,
    .sqDoorbell 16 none 0 true, .sqDoorbell 0 (some 4096) 0 true, .cqDoorbell 16 none 0 true,
    .cqDoorbell 0 (some 2048) 0 true, .entryCheck 16, .chainTimeout 16 none, .chainTimeout 0 (some 4096),
    .pvErrRead 16 true true, .poolEntry 64, .completionAccept 2064 1, .completionAccept 0 65, .sqCreate 16, .sqDelete 16,
    .cqCreate 16, .cqDelete 16, .sqResume 16, .vectorBind 16, .keyCreate 16, .keyLoad 16, .keyExport 16, .keyDestroy 16,
    .stripeOpen 16, .stripeAdd 16, .stripeClose 16, .stripeCloseTaken 64 0, .stripeCloseTaken 0 256, .identify 16,
    .abort 16, .abortRequest 64, .read 64 0 0] : List Instr).all (fun c => !c.wf) = true := by decide +kernel
/-- Commands with one number out of its range: none is well formed. -/
theorem test_wf_refuses_2 : ([
    .read 0 0 16, .prog 64 0 0, .prog 0 0 16, .append 64 0 0, .append 0 0 16, .erase 64 0 0, .erase 0 0 16,
    .eraseVerify 64 0 0, .eraseVerify 0 0 16, .relocate 64 0 0, .relocate 0 0 16, .sample 64 0 0, .sample 0 0 16,
    .fence 64 0 0, .fence 0 0 16, .wait 64 0 0, .wait 0 0 16, .waitTimeout 64 0 0, .waitTimeout 0 0 16, .signal 64 0 0,
    .signal 0 0 16, .featureGet 64 0 0, .featureGet 0 0 16, .featureSet 64 0 0, .featureSet 0 0 16, .dieStatus 64 0 0,
    .dieStatus 0 0 16, .train 64 0 0, .train 0 0 16, .raw 64 0 0, .raw 0 0 16, .nop 64 0 0, .nop 0 0 16,
    .waymarkWrite 64 0 true, .microRoutineStart 64, .phyCycleQueueEntry 64 [], .mwNop 64, .mwEnd 64, .mwJmp 64, .mwJz 64,
    .mwJnz 64, .mwCall 64, .mwRet 64, .mwLoop 64, .mwMovi 64, .mwMovh 64, .mwMov 64, .mwAdd 64, .mwSub 64, .mwAnd 64,
    .mwOr 64, .mwXor 64, .mwShl 64, .mwShr 64, .mwAddi 64, .mwTst 64, .mwLdp 64, .mwTmask 64, .tmaskForcedClose 64,
    .mwCe 64] : List Instr).all (fun c => !c.wf) = true := by decide +kernel
/-- Commands with one number out of its range: none is well formed. -/
theorem test_wf_refuses_3 : ([
    .mwCeoff 64, .mwCmd 64, .mwConf 64, .mwAdr 64, .mwAdrc 64, .mwAdrr 64, .mwTw 64, .mwDly 64, .mwDin 64, .mwDout 64,
    .mwPin 64, .mwPout 64 0, .mwStat 64 0, .mwWrb 64 true, .rbNChange 64 0 true, .rbNChange 0 16 true, .statusPoll 64 0,
    .statusPoll 0 64, .dieReady 64 0, .dieReady 0 64, .operationTimeLimit 64 0 .read, .operationTimeLimit 0 64 .read,
    .dieTempPoll 64 0 0, .dieTempPoll 0 64 0, .retrainDeferExpiry 64 0, .retrainDeferExpiry 0 64, .hardDecodeDone 64 0 [] 0,
    .softDecodeStart 8 0, .softDecodeStart 0 4, .softDecodeDone 8 0 [], .softDecodeDone 0 4 [], .cwJobFinish 8 0,
    .cwJobFinish 0 16, .machineCheck 64, .watchdogExpiry 64, .controlStoreReload 64 [],
    .controlStoreReload 0 [⟨1024, 0, []⟩], .controlStoreReload 0 [⟨0, 0, [512]⟩], .laneReset 64 0 true,
    .pvCfgWrite 16 0 true, .pvReset 16 0 true, .pvResetDone 16, .pvAdmEnable 16 0 true, .pvAdmDisable 16 0 true,
    .pvAdmResume 16 0 true, .familyTableWrite 0x4000 0 0 true, .familyTableWrite 2 0 0 true, .cwLoad 8 0 0 true,
    .cwLoad 0 24 0 true, .cwDisable 8 0 0 true, .cwDisable 0 24 0 true, .cwDisableClear 8 0 0 true,
    .cwDisableClear 0 24 0 true, .cwProgramWrite 8 0 0 0 0 true, .cwProgramWrite 0 8 0 0 0 true,
    .cwProgramWrite 0 0 32 0 0 true, .cwEventWrite 8 true 0 true, .cwMove 8 0, .cwMove 0 24, .cwLoop 8 0] : List Instr).all (fun c => !c.wf) = true := by decide +kernel
/-- Commands with one number out of its range: none is well formed. -/
theorem test_wf_refuses_4 : ([
    .cwLoop 0 24, .cwWait 8 0, .cwWait 0 24, .cwSignal 8 0, .cwSignal 0 24, .cwEnd 8 0, .cwEnd 0 24, .cwDrainComplete 8 0,
    .cwDrainComplete 0 24, .icClaim 32 true, .icComplete 32 0 true, .moderationTimeout 0, .moderationTimeout 1024,
    .icSrcCfgWrite 0 0 0 true, .icSrcCfgWrite 1024 0 0 true, .cfSequenceStep 12 0 0 true,
    .cfWindowRead 0x8000 true true 0 true, .cfWindowRead 2 true true 0 true, .scrubWord (some 64) .good 0 0 0 false,
    .fabricCredit (some 8) 0, .fabricCredit none 4, .resetDeassert [⟨1025, 0, []⟩] true,
    .resetDeassert [⟨0, 0, [512]⟩] true, .vddCoreRestored [⟨1025, 0, []⟩] true, .vddCoreRestored [⟨0, 0, [512]⟩] true,
    .comparator105cChange 4 true, .pvSrcTgtWrite 16 0 true, .rcRegisterRead 0x400000 true true, .rcRegisterRead 2 true true] : List Instr).all (fun c => !c.wf) = true := by decide +kernel
/-- A command of every constructor with every number in range: each is well formed. -/
theorem test_wf_accepts_1 : ([
    .powerOnReset 0, .blockReset 0, .brownOutReset 0, .controlStoreLoad 0 [], .lxReady, .laneStart 0 [] [],
    .dieTrain 0 0 [], .tick 0 0 0 0, .laneSlipEvent 0, .frameBuild 0, .suspendEarliestReached 0 0, .suspendHoldExpiry 0 0,
    .ps1Entry 0, .epochAdvance, .epochWrite 0 true, .boardTempWrite 0 true, .boardTempStale, .tickCtrlWrite 0 true,
    .milepostLoRead true, .telemetrySample 0, .tollgatePeriod, .thermalLoop, .thermalTrip 0, .thermalRestart,
    .supplyWarning .vcc, .supplyWarningEnd .vcc 0, .refclkFail 0, .idleSleepChange 0 true true, .fabricReadReturn 0 0 0 0 0,
    .fabricWriteAck 0 0 0, .fabricResponseTimeout 0 true 0, .registerWrite 0 0 0 true, .sqDoorbell 0 none 0 true,
    .cqDoorbell 0 none 0 true, .pavilionFetch, .entryCheck 0, .chainTimeout 0 none, .pvErrRead 0 true true, .poolEntry 0,
    .completionAccept 0 1, .sqCreate 0, .sqDelete 0, .cqCreate 0, .cqDelete 0, .sqResume 0, .vectorBind 0, .keyCreate 0,
    .keyLoad 0, .keyExport 0, .keyDestroy 0, .stripeOpen 0, .stripeAdd 0, .stripeClose 0, .stripeCloseTaken 0 0,
    .identify 0, .abort 0, .abortRequest 0, .read 0 0 0, .prog 0 0 0, .append 0 0 0] : List Instr).all (fun c => c.wf) = true := by decide +kernel
/-- A command of every constructor with every number in range: each is well formed. -/
theorem test_wf_accepts_2 : ([
    .erase 0 0 0, .eraseVerify 0 0 0, .relocate 0 0 0, .sample 0 0 0, .fence 0 0 0, .wait 0 0 0, .waitTimeout 0 0 0,
    .signal 0 0 0, .featureGet 0 0 0, .featureSet 0 0 0, .dieStatus 0 0 0, .train 0 0 0, .raw 0 0 0, .nop 0 0 0,
    .waymarkWrite 0 0 true, .microRoutineStart 0, .phyCycleQueueEntry 0 [], .mwNop 0, .mwEnd 0, .mwJmp 0, .mwJz 0, .mwJnz 0,
    .mwCall 0, .mwRet 0, .mwLoop 0, .mwMovi 0, .mwMovh 0, .mwMov 0, .mwAdd 0, .mwSub 0, .mwAnd 0, .mwOr 0, .mwXor 0,
    .mwShl 0, .mwShr 0, .mwAddi 0, .mwTst 0, .mwLdp 0, .mwTmask 0, .tmaskForcedClose 0, .mwCe 0, .mwCeoff 0, .mwCmd 0,
    .mwConf 0, .mwAdr 0, .mwAdrc 0, .mwAdrr 0, .mwTw 0, .mwDly 0, .mwDin 0, .mwDout 0, .mwPin 0, .mwPout 0 0, .mwStat 0 0,
    .mwWrb 0 true, .rbNChange 0 0 true, .statusPoll 0 0, .dieReady 0 0, .operationTimeLimit 0 0 .read, .dieTempPoll 0 0 0] : List Instr).all (fun c => c.wf) = true := by decide +kernel
/-- A command of every constructor with every number in range: each is well formed. -/
theorem test_wf_accepts_3 : ([
    .retrainDeferExpiry 0 0, .hardDecodeDone 0 0 [] 0, .softDecodeStart 0 0, .softDecodeDone 0 0 [], .cwJobFinish 0 0,
    .machineCheck 0, .watchdogExpiry 0, .controlStoreReload 0 [], .laneReset 0 0 true, .pvCfgWrite 0 0 true,
    .pvReset 0 0 true, .pvResetDone 0, .pvAdmEnable 0 0 true, .pvAdmDisable 0 0 true, .pvAdmResume 0 0 true,
    .sysStageWrite 0 true true, .sysUrecWrite 0 true true, .familyTableWrite 0 0 0 true, .cwLoad 0 0 0 true,
    .cwDisable 0 0 0 true, .cwDisableClear 0 0 0 true, .cwProgramWrite 0 0 0 0 0 true, .cwEventWrite 0 true 0 true,
    .cwMove 0 0, .cwLoop 0 0, .cwWait 0 0, .cwSignal 0 0, .cwEnd 0 0, .cwDrainComplete 0 0, .icClaim 0 true,
    .icComplete 0 0 true, .moderationTimeout 1, .icSrcCfgWrite 1 0 0 true, .vlogPop 0 true, .keyArm 0 true,
    .keyZeroise 0 true, .wrapKeyLoad 0 true, .wrapKeyClear 0 true, .rngReseed 0 true, .rngRestart 0 true, .rngHealthFail,
    .rngDataRead true, .attStart 0 true, .cfSequenceStep 0 0 0 true, .cfSequenceTimeout, .wordProg 0 true,
    .sectorErase 0 true, .rowProg 0 true, .protProg 0 true, .protErase 0 true, .protLock 0 true, .protUnlock 0 true,
    .cfCommandEnd true, .cfProtClose 0 true, .cfWindowRead 0 true true 0 true, .pmReqPs2 0 true, .pmReqPs3 0 true,
    .pmReqCancel 0 true, .ps2Entry, .ps2Exit] : List Instr).all (fun c => c.wf) = true := by decide +kernel
/-- A command of every constructor with every number in range: each is well formed. -/
theorem test_wf_accepts_4 : ([
    .ps3Entry, .pmWake 0 true, .atriskRelease 0 true, .atriskLaneRelease true 0 true, .scrubWord none .good 0 0 0 false,
    .mpTestArm 0 true, .mpTestGo 0 true, .fabricCredit none 0, .resetDeassert [⟨1024, 0, []⟩] true, .vddCoreRestored [] true,
    .comparator105cChange 0 true, .pvSrcTgtWrite 0 0 true, .rcRegisterRead 0 true true, .drbgInstantiated] : List Instr).all (fun c => c.wf) = true := by decide +kernel
/-- The block out of reset with lx_ready high. -/
def up : Block := { State.reset.blk with lxReady := true }
/-- The machine with a blank CFLASH and this block. -/
def at_ (b : Block) : State := ⟨NonVol.blank, b, []⟩
/-- Lane 0 native, with CFG nothing, in a machine that is up. -/
def native0 : Block := rset1 up (laneReg 0 0x304) 1
/-- A microword of the fields given, with its parity bit (R315). -/
def mword (op cyc a b imm : Nat) : BitVec 33 :=
  let w := op * 2 ^ 24 + cyc * 2 ^ 30 + a * 2 ^ 20 + b * 2 ^ 16 + imm
  let odd := ((List.range 32).filter (fun i => w.testBit i)).length % 2
  BitVec.ofNat 33 (w + (1 - odd) * 2 ^ 32)
/-- A routine of entry kind 9 for die 0. -/
def poll0 : Routine := laneRoutine up 0 9 0 .poll
/-- A sequencer at word 0 of its store. -/
def seq0 : Seq :=
  { routine := poll0, pc := 0, z := false, m := [], stack := [], queue := [], ce := none, tmask := 0, tmaskAge := 0, dataIn := [], sent := [], ca := [], spent := 0
    confirmed := false, pageLoad := false }
/-- Lane 0 with a store of two words, the first the one given, and its sequencer. -/
def micro (w : BitVec 33) (q : Seq) (b : Block := native0) : State :=
  at_ (updLane b 0 (fun l => { l with cs := [(0, w)], words := 2, seq := some q, loadPend := false }))

theorem witness_ExecLeavesTheQueue : ∃ t, exec .pavilionFetch (at_ up) = .next t := ⟨_, rfl⟩
theorem witness_StepTakesTheFirstCommand : State.reset.pending = [] := rfl
theorem witness_OnlyAnUndefinedPulseStops : 20 ≤ 20 ∧ 20 < 100 ∧ 20 ≤ 99 ∧ 99 < 100 := by decide

theorem witness_ComputingMicrowords_plain : ∀ x ∈ [(0x00, 3, 0, 0, 0), (0x0A, 3, 15, 1, 0), (0x0B, 0, 0, 15, 0), (0x0C, 1, 2, 2, 0),
    (0x0D, 3, 1, 0, 0), (0x0E, 0, 1, 15, 0), (0x0F, 2, 5, 5, 0)], AtWord (micro (mword x.1 x.2.1 x.2.2.1 x.2.2.2.1 x.2.2.2.2) seq0) 0
    seq0 x.1 := by unfold AtWord; decide +kernel
theorem witness_ComputingMicrowords_imm : ∀ x ∈ [(0x08, 0xFFFF), (0x09, 0), (0x09, 0xFFFF), (0x10, 0), (0x10, 31), (0x11, 31),
    (0x12, 0x8000), (0x12, 0x7FFF), (0x13, 0xFFFF), (0x13, 0)], AtWord (micro (mword x.1 3 15 0 x.2) seq0) 0 seq0 x.1 := by
  unfold AtWord; decide +kernel

theorem witness_JumpingMicrowords : ∀ x ∈ [(0x02, 0, 1), (0x03, 0, 0), (0x04, 0, 1), (0x05, 0, 0), (0x07, 15, 1), (0x14, 3, 0),
    (0x14, 3, 0x7FF), (0x14, 0, 0xBFF), (0x14, 0, 0xC00), (0x15, 0, 24), (0x15, 0, 0)],
    AtWord (micro (mword x.1 0 x.2.1 0 x.2.2) seq0) 0 seq0 x.1 := by unfold AtWord; decide +kernel
theorem witness_JumpingMicrowords_ret : AtWord (micro (mword 0x06 0 0 0 0) { seq0 with stack := [1] }) 0 { seq0 with stack := [1] } 0x06 ∧
    ({ seq0 with stack := [1] } : Seq).stack = 1 :: [] := by unfold AtWord; decide +kernel

/-- Three entries wait in the cycle queue: one more has room. -/
def seq3 : Seq := { seq0 with queue := [.ceOff, .ceOff, .ceOff] }
/-- The cycle queue is full. -/
def seq4 : Seq := { seq0 with queue := [.ceOff, .ceOff, .ceOff, .ceOff] }
theorem witness_QueuedMicrowords : ∀ x ∈ [(0x20, 15, 0, 0), (0x21, 0, 0, 0), (0x22, 0, 0, 0xFF), (0x23, 0, 0, 0x10), (0x24, 0, 0, 0xFF),
    (0x25, 1, 0, 0), (0x26, 1, 0, 0), (0x27, 0, 0, 31), (0x28, 0, 0, 0xFFFF), (0x29, 1, 15, 0), (0x2A, 1, 2, 0), (0x2B, 1, 0, 0)],
    AtWord (micro (mword x.1 0 x.2.1 x.2.2.1 x.2.2.2) seq3) 0 seq3 x.1 ∧
    AtWord (micro (mword x.1 0 x.2.1 x.2.2.1 x.2.2.2) seq4) 0 seq4 x.1 := by unfold AtWord; decide +kernel
theorem witness_QueuedMicrowords_depth : seq3.queue.length < (if laneNative native0 0 then 4 else 1) ∧
    (if laneNative native0 0 then 4 else 1) ≤ seq4.queue.length ∧ seq0.queue.length < (if laneNative up 0 then 4 else 1) ∧
    (if laneNative up 0 then 4 else 1) ≤ seq3.queue.length := by decide +kernel

/-- A routine with a feature routine still to come. -/
def seqF : Seq := { seq0 with routine := { poll0 with feats := [(0x91, 5)] } }
/-- Lane 0 with an entry of every kind at word 0. -/
def entries0 (b : Block) : Block := updLane b 0 (fun l => { l with ent := (List.range 20).map (fun k => (k, 0)) })
theorem witness_SynchronousMicrowords : ∀ q ∈ [seq0, seq3], ∀ x ∈ [(0x2C, 15), (0x2D, 1), (0x2E, 0), (0x01, 0)],
    AtWord (micro (mword x.1 0 x.2 0 0) q) 0 q x.1 := by unfold AtWord; decide +kernel
theorem witness_SynchronousMicrowords_end : seq0.routine.feats = [] ∧ seq0.queue = [] ∧ seq3.queue ≠ [] ∧
    AtWord (micro (mword 1 0 0 0 0) seqF (entries0 native0)) 0 seqF 1 ∧ seqF.queue = [] ∧ seqF.routine.feats = (0x91, 5) :: [] ∧
    (enterSeq (entries0 native0) 0 { seqF.routine with feats := [] } 7).isSome = true := by unfold AtWord; decide +kernel

theorem witness_FaultyMicrowordsHaltTheLane : ∀ op ∈ List.range 0x16 ++ List.range' 0x20 15,
    (lane (micro (mword op 0 0 0 0 ^^^ 0x100000000) seq0).blk 0).seq = some seq0 ∧
    laneRuns (micro (mword op 0 0 0 0 ^^^ 0x100000000) seq0).blk 0 = true ∧
    microFault (micro (mword op 0 0 0 0 ^^^ 0x100000000) seq0).blk 0 seq0 = 1 ∧
    mwOp (seq0.word (micro (mword op 0 0 0 0 ^^^ 0x100000000) seq0).blk 0) = op := by decide +kernel
/-- Lane 0's sequencer stands at a word of right parity, whose fault is the one given. -/
def faultIs (k : Nat) (w : BitVec 33) (q : Seq) : Bool :=
  let b := (micro w q).blk
  parityOk (q.word b 0) && decide (microIllegal (laneNative b 0) (q.word b 0) = decide (k = 2)) && decide (microFault b 0 q = k)
theorem witness_FaultyMicrowordsHaltTheLane_stack :
    (∀ k ∈ [0, 7, 8], faultIs (if k = 8 then 3 else 0) (mword 0x05 0 0 0 1) { seq0 with stack := List.replicate k 1 } = true) ∧
    faultIs 3 (mword 0x06 0 0 0 0) seq0 = true ∧ faultIs 0 (mword 0x06 0 0 0 0) { seq0 with stack := [1] } = true ∧
    faultIs 4 (mword 0x06 0 0 0 0) { seq0 with stack := [2] } = true := by decide +kernel
theorem witness_FaultyMicrowordsHaltTheLane_targets : ∀ x ∈ [(0x02, seq0), (0x03, { seq0 with z := true }), (0x04, seq0), (0x05, seq0),
    (0x07, seq0)], faultIs 4 (mword x.1 0 0 0 2) x.2 = true ∧ faultIs 0 (mword x.1 0 0 0 1) x.2 = true ∧
    faultIs 4 (mword x.1 0 0 0 0x1FFF) x.2 = true := by decide +kernel
theorem witness_FaultyMicrowordsHaltTheLane_passes : faultIs 0 (mword 0x03 0 0 0 2) seq0 = true ∧
    faultIs 0 (mword 0x04 0 0 0 2) { seq0 with z := true } = true ∧ faultIs 0 (mword 0x07 0 1 0 2) { seq0 with m := [(1, 1)] } = true ∧
    faultIs 0 (mword 0x0B 3 15 15 0) seq0 = true := by decide +kernel
theorem witness_FaultyMicrowordsHaltTheLane_illegal : ∀ x ∈ [(0x16, 0, 0, 0, 0), (0x2F, 0, 0, 0, 0), (0x3F, 0, 0, 0, 0), (0x00, 0, 1, 0, 0), (0x08, 0, 0, 1, 0), (0x0B, 0, 0, 0, 1),
    (0x02, 0, 0, 0, 0x2000), (0x10, 0, 0, 0, 32), (0x22, 0, 0, 0, 0x100), (0x14, 0, 0, 0, 0x1000), (0x2E, 0, 0, 0, 8), (0x20, 1, 0, 0, 0)],
    faultIs 2 (mword x.1 x.2.1 x.2.2.1 x.2.2.2.1 x.2.2.2.2) seq0 = true := by decide +kernel
theorem witness_FaultyMicrowordsHaltTheLane_tmask : (∀ x ∈ [(1, 23), (1, 24), (25, 0)],
      (lane (micro 0 { seq0 with tmask := x.1, tmaskAge := x.2 }).blk 0).seq = some { seq0 with tmask := x.1, tmaskAge := x.2 } ∧
      laneRuns (micro 0 { seq0 with tmask := x.1, tmaskAge := x.2 }).blk 0 = true ∧ x.1 ≠ 0) ∧ ¬ (24 < 1 + 23) ∧ 24 < 1 + 24 ∧ 24 < 25 + 0 := by
  decide +kernel

theorem witness_CycleQueueEntriesExecute : ∀ x ∈ [CycEntry.ce 15 3, .ceOff, .adr [0, 1, 2, 3, 4], .wait 0xFFFF, .din 16 0, .pin 0,
    .cmd 0x70 false, .cmd 0xD0 true, .dout 2 0], ∃ q, q.queue = x :: [] ∧ (lane (micro 0 q).blk 0).seq = some q ∧
    laneRuns (micro 0 q).blk 0 = true := by
  intro x h
  refine ⟨{ seq0 with queue := [x] }, rfl, rfl, ?_⟩
  simp only [List.mem_cons, List.not_mem_nil, or_false] at h
  rcases h with rfl | rfl | rfl | rfl | rfl | rfl | rfl | rfl | rfl <;> decide +kernel
theorem witness_CycleQueueEntriesExecute_held : warnHolds (rset1 up 0x38024 0) { poll0 with purpose := .eraseIssue 0 0 } = true ∧
    warnHolds up { poll0 with purpose := .eraseIssue 0 0 } = false ∧ ([0, 0] : List Byte).length = 2 := by decide +kernel

/-- Lane 0 with an entry of every kind, and one routine placed. -/
def placed (r : Routine) : State := at_ (updLane (entries0 native0) 0 (fun l => { l with frame := [r], loadPend := false }))
theorem witness_MicroRoutineStarts : ∀ r ∈ [poll0, { poll0 with kind := 19, purpose := .rawCycle 0 0 0 },
    { poll0 with kind := 4, purpose := .pass 0 0 0 0 0 }, { poll0 with kind := 4, purpose := .pass 0 0 0 0 0, spent := 1 }],
    laneRuns (placed r).blk 0 = true ∧ (lane (placed r).blk 0).seq = none ∧ holdsEvents (placed r).blk 0 = false ∧
    (lane (placed r).blk 0).ps1 = false ∧ rbit (placed r).blk (laneReg 0 0x304) 3 = false ∧ (placed r).blk.planted = [] ∧
    nextRoutine (placed r).blk 0 = some r ∧ entryWord (placed r).blk 0 r.entryOf.kind = some 0 := by decide +kernel

/-- Pavilion 0 enabled, in a machine that is up. -/
def pav0 : Block := rset1 up (pavReg 0 0xD000) 0
/-- A live queue of 16 slots of pavilion 0. -/
def ring0 : Sq := { Sq.none with live := true, k := 4, base := 0x10000 }
/-- The same with submission queue q. -/
def withSq (q : Nat) (x : Sq) (b : Block := pav0) : Block := { b with sqs := tput b.sqs q x }
/-- The same with completion ring c. -/
def withCq (c : Nat) (x : Cq) (b : Block := pav0) : Block := { b with cqs := tput b.cqs c x }
/-- A live ring of 16 slots of pavilion 0. -/
def compl0 : Cq := { Cq.none with live := true, k := 4, base := 0x20000 }

/-- What PortTakes asks, as one decidable fact. -/
def takes (s : State) (a : Nat) : Bool := portOpen s.blk && s.blk.lxReady && pageImplemented a && !absent s.blk a
theorem takes_of {s : State} {a : Nat} (h : takes s a = true) : PortTakes s a := by
  simp only [takes, Bool.and_eq_true, Bool.not_eq_true'] at h
  exact ⟨h.1.1.1, .inl h.1.1.2, h.1.2, h.2⟩

theorem witness_Doorbells : PortTakes (at_ (withSq 5 ring0)) (sqDbAddr 0 (some 5)) ∧ PortTakes (at_ (withSq 4096 ring0)) (sqDbAddr 0 none) ∧
    PortTakes (at_ (withCq 7 compl0)) (cqDbAddr 0 (some 7)) := ⟨takes_of (by decide +kernel), takes_of (by decide +kernel),
  takes_of (by decide +kernel)⟩
theorem witness_Doorbells_causes : sqDoorbellCause (withSq 5 ring0) 0 (some 5) 15 = none ∧
    sqDoorbellCause (withSq 5 { ring0 with tail := 14 }) 0 (some 5) 0 = some 2 ∧ sqDoorbellCause (withSq 5 ring0) 0 (some 5) 16 = some 1 ∧
    sqDoorbellCause (withSq 5 ring0) 0 (some 6) 0 = some 0 ∧ cqDoorbellCause (withCq 7 { compl0 with tail := 3 }) 0 (some 7) 3 = none ∧
    cqDoorbellCause (withCq 7 { compl0 with tail := 3 }) 0 (some 7) 4 = some 2 := by decide +kernel
theorem witness_DoorbellsPostNoSlotTwice : (sq (withSq 5 { ring0 with head := 15, tail := 15 }) (sqKey 0 (some 5))).head < 2 ^ 4 ∧
    (sq (withSq 5 { ring0 with head := 15, tail := 15 }) (sqKey 0 (some 5))).tail < 2 ^ 4 ∧
    sqDoorbellCause (withSq 5 { ring0 with head := 15, tail := 15 }) 0 (some 5) 14 = none := by decide +kernel

theorem witness_PavilionEvents_fetch : running (withSq 5 { ring0 with tail := 1 } (withCq 0 compl0)) = true ∧
    nextPav (withSq 5 { ring0 with tail := 1 } (withCq 0 compl0)) = some 0 ∧
    nextQueue (withSq 5 { ring0 with tail := 1 } (withCq 0 compl0)) 0 = some 5 := by decide +kernel
/-- An open chain whose time has come. -/
def chain0 : Chain := ⟨0, 9, 0, 2, 1, 0⟩
theorem witness_PavilionEvents_chain : (sq (withSq 5 { ring0 with chain := some chain0 }) (sqKey 0 (some 5))).chain = some chain0 ∧
    (sq (withSq 5 { ring0 with chain := some chain0 }) (sqKey 0 (some 5))).owner = 0 ∧
    chain0.due ≤ now (withSq 5 { ring0 with chain := some chain0 }) ∧
    (withSq 5 { ring0 with chain := some chain0 }).inReset = false := by decide +kernel
theorem witness_PavilionEvents_read : PortTakes (at_ pav0) (pvErrAddr 0 true) ∧ PortTakes (at_ pav0) (pvErrAddr 15 false) :=
  ⟨takes_of (by decide +kernel), takes_of (by decide +kernel)⟩
/-- Lane 0 with a routed entry of one instruction, armed and not yet in its pool. -/
def arrived : Block :=
  updLane { pav0 with entries := [(3, ⟨0, some 0, 5, 0, 0, [InstrRec.none], true, false, false, false⟩)] } 0 (fun l => { l with arrive := [3] })
theorem witness_PavilionEvents_pool : laneRuns arrived 0 = true ∧ nextArrival arrived 0 = some 3 := by decide +kernel

/-- An entry of one 64-byte slot with the header fields and instruction bytes given, and its CRC (R91). -/
def entryOf (len flags cid units : Nat) (body : List Byte) : List Byte :=
  let x := leBytes 1 len ++ leBytes 1 flags ++ leBytes 2 cid ++ leBytes 3 0 ++ leBytes 1 units ++ zeros 8 ++ body ++
    zeros (48 - body.length)
  x.take 8 ++ leBytes 4 (crc32c x) ++ x.drop 12
/-- A fetched slot of queue q. -/
def fetched (q : Nat) (x : List Byte) : Fetch := ⟨q, 0, 1, [(0, (toBeats x).headD 0)], 0, false⟩
/-- Pavilion 0 with a fetched entry. -/
def fetching (q : Nat) (x : List Byte) (b : Block) : Block := updPav b 0 (fun v => { v with fetch := some (fetched q x) })
/-- One NOP for the lane that its queue names, FIRST and LAST. -/
def nopEntry : List Byte := entryOf 1 3 7 1 (leBytes 1 0x38 ++ leBytes 1 1 ++ zeros 14)
/-- A service queue of lane 0. -/
def svcRing : Sq := { ring0 with service := true, lane := 0 }
theorem witness_EntriesAreChecked : ∀ q ∈ [(5, svcRing), (5, ring0), (4096, ring0)],
    let b := fetching q.1 nopEntry (withSq q.1 q.2)
    running b = true ∧ (pav b 0).fetch = some (fetched q.1 nopEntry) ∧ (fetched q.1 nopEntry).waiting = 0 ∧
    (fetched q.1 nopEntry).len ≠ 0 ∧ (sq b q.1).live = true ∧ (sq b q.1).deleting = false ∧ (sq b q.1).stopped = false ∧
    (sq b q.1).fetch = (fetched q.1 nopEntry).slot ∧ pavEnabled b 0 = true ∧ (pav b 0).resetting = false := by decide +kernel
/-- A completion of an entry without a lane. -/
def complN : Compl := ⟨[], none, 5, 7, 0, 0, false, 0, 0, 0, 0, []⟩
theorem witness_EntriesAreChecked_routes :
    entryChecks (withSq 5 ring0) 5 nopEntry = .inr [(nopEntry.drop 16).take 16] ∧
    (routeEntry (withSq 5 svcRing) 5 [(nopEntry.drop 16).take 16]).lane = some 0 ∧
    (routeEntry (withSq 5 ring0) 5 [(nopEntry.drop 16).take 16]).lane = none ∧ poolRoom pav0 0 true = true ∧
    takesFor pav0 0 0 = true ∧ takesFor (updLane pav0 0 (fun l => { l with holding := List.replicate 64 (0, complN) })) 0 0 = false ∧
    poolRoom (updLane pav0 0 (fun l => { l with arrive := List.range 256 })) 0 true = false := by decide +kernel
theorem witness_EntriesAreChecked_admin : ∀ x ∈ [entryOf 0 3 7 1 [], entryOf 1 3 7 0 []],
    (entryChecks (withSq 4096 ring0) 4096 x).isLeft = true := by decide +kernel
theorem witness_EntriesAreChecked_adminGood : entryChecks (withSq 4096 ring0) 4096
    (entryOf 1 3 7 1 (leBytes 1 0x84 ++ leBytes 1 2 ++ zeros 30)) = .inr [leBytes 1 0x84 ++ leBytes 1 2 ++ zeros 30] ∧
    isAdmin 4096 = true ∧ isAdmin 5 = false := by decide +kernel

theorem witness_ChecksRunInOrder :
    (hLen (entryOf 0 3 7 1 []) = 0 ∧ 16 < hLen (entryOf 17 3 7 1 [])) ∧
    (1 ≤ hLen (entryOf 16 3 7 1 []) ∧ hLen (entryOf 16 3 7 1 []) ≤ 16 ∧ 2 ^ 4 - 1 < hLen (entryOf 16 3 7 1 [])) ∧
    (∀ x ∈ [entryOf 1 4 7 1 [], entryOf 1 3 7 0 []], fieldAt x 8 4 = crc32c (x.take 8 ++ zeros 4 ++ x.drop 12)) ∧
    (4 ≤ hFlags (entryOf 1 4 7 1 []) ∧ hFlags (entryOf 1 3 7 0 []) < 4 ∧ fieldAt (entryOf 1 3 7 0 []) 12 4 = 0 ∧
      byteAt (entryOf 1 3 7 0 []) 7 = 0) ∧
    fieldAt (nopEntry.set 9 0) 8 4 ≠ crc32c (nopEntry.take 8 ++ zeros 4 ++ nopEntry.drop 12) := by decide +kernel

/-- One unit of an instruction: its opcode, NU, and the bytes that follow, to the length that NU gives. -/
def ins (op nu : Nat) (rest : List Byte) : List Byte := leBytes 1 op ++ leBytes 1 nu ++ rest ++ zeros (16 * nu - 2 - rest.length)
theorem witness_ChecksRunInOrder_operands : notPermitted (ins 0x29 2 []) false false = true ∧
    notPermitted (ins 0x38 2 []) false false = false ∧ iNu (ins 0x38 2 []) ≠ nuWanted (ins 0x38 2 []) ∧
    iNu (ins 0x38 1 [1]) = nuWanted (ins 0x38 1 [1]) ∧ reservedAt (ins 0x38 1 [1]) = some 2 ∧ formFail (ins 0x21 1 [0, 1]) = none ∧
    paFail pav0 0 (ins 0x21 1 [0, 1]) = some (3, 6) ∧ paFail pav0 0 (ins 0x38 1 []) = none ∧ formFail (ins 0x38 1 []) = none ∧
    notPermitted (ins 0x21 1 [0, 1]) false false = false := by decide +kernel

theorem witness_CompletionsAreAccepted : (cq (withCq 7 { compl0 with wait := [complN] }) 7).live = true ∧
    (cq (withCq 7 { compl0 with wait := [complN] }) 7).blocked = false ∧ running (withCq 7 { compl0 with wait := [complN] }) = true ∧
    (takeCompl (withCq 7 { compl0 with wait := [complN] }) 7 none).isSome = true ∧
    (takeCompl (updLane (withCq 7 compl0) 0 (fun l => { l with holding := [(7, complN)] })) 7 (some 0)).isSome = true ∧
    (cq pav0 7).live = false ∧ (cq (withCq 7 { compl0 with broken := true }) 7).blocked = true := by decide +kernel
theorem witness_CompletionLayout : complN.sq < 4096 ∧ 4096 ≤ ({ complN with sq := 4096 } : Compl).sq ∧
    ({ complN with sq := 4111 } : Compl).sq = 4096 + 15 := by decide +kernel

/-- Pavilion 0 secure, with every grant, its executor at the instruction given. -/
def admin (x : List Byte) (b : Block := pav0) : Block :=
  updPav (each [0xD010, 0xD014, 0xD018, 0xD01C, 0xD020] (fun b o => rput b (pavReg 0 o) 0x01000000)
    (rset1 (rset1 b (pavReg 0 0xD000) 1) (pavReg 0 0xD000) 2)) 0 (fun v => { v with exec := some (Exec.start 0 [x]) })
/-- What AdminAt asks, as one decidable fact. -/
def adminIs (b : Block) (op : Nat) (x : List Byte) : Bool :=
  running b && decide (iOp x = op) && decide (adminForm x = none) && decide ((pav b 0).exec = some (Exec.start 0 [x]))
theorem adminAt_of {b : Block} {op : Nat} {x : List Byte} (h : adminIs b op x = true) : AdminAt (at_ b) 0 op x := by
  simp only [adminIs, Bool.and_eq_true, decide_eq_true_eq] at h
  exact ⟨h.1.1.1, by decide, h.1.1.2, h.1.2, _, h.2, rfl, rfl⟩

/-- SQ.CREATE of queue 255 with ring 0, K = 16 and key slot 0. -/
def sqCreateI : List Byte := ins 0x80 2 ([0xFF, 0, 0, 0, 16, 0, 0, 0, 0, 0, 0, 0, 0, 0] ++ leBytes 8 0x1000)
theorem witness_QueueCommands_sqCreate : AdminAt (at_ (admin sqCreateI (withCq 0 compl0))) 0 0x80 sqCreateI ∧ aId sqCreateI = 255 :=
  ⟨adminAt_of (by decide +kernel), by decide +kernel⟩
theorem witness_QueueCommands_sqCreateGood : let b := admin sqCreateI (withCq 0 compl0)
    aId sqCreateI < b.build.sqMax ∧ granted b 0 0xD010 255 = true ∧ (sq b 255).live = false ∧ ownCq b 0 0 = true ∧
    (cq b 0).broken = false ∧ 4 ≤ byteAt sqCreateI 6 ∧ byteAt sqCreateI 6 ≤ 16 ∧ (byteAt sqCreateI 7).testBit 0 = false ∧
    fieldAt sqCreateI 10 2 % 4096 = 0 ∧ pavSec b 0 = true ∧ iAddr sqCreateI % 4096 = 0 ∧ iAddr sqCreateI < 2 ^ 48 := by decide +kernel
/-- SQ.CREATE of a service queue of lane 63, class 7. -/
def sqCreateS : List Byte := ins 0x80 2 ([0xFF, 0, 0, 0, 4, 15, 63, 0, 0, 0, 0, 0, 0, 0] ++ leBytes 8 0xFFFFFFFFF000)
theorem witness_QueueCommands_sqCreateService : AdminAt (at_ (admin sqCreateS (withCq 0 compl0))) 0 0x80 sqCreateS ∧
    (byteAt sqCreateS 7).testBit 0 = true ∧ rbit (admin sqCreateS (withCq 0 compl0)) (pavReg 0 0xD000) 2 = true ∧
    byteAt sqCreateS 8 % 64 < (admin sqCreateS).build.lanes ∧
    serviceQueue (admin sqCreateS (withCq 0 compl0)) 63 7 = none ∧ iAddr sqCreateS < 2 ^ 48 := ⟨adminAt_of (by decide +kernel), by decide +kernel⟩
/-- CQ.CREATE of ring 255, K = 4. -/
def cqCreateI : List Byte := ins 0x82 2 ([0xFF, 0, 0, 0, 4, 0, 0, 0, 0, 0, 0, 0, 0, 0] ++ leBytes 8 0x2000)
theorem witness_QueueCommands_cqCreate : AdminAt (at_ (admin cqCreateI)) 0 0x82 cqCreateI ∧ aCqid cqCreateI < (admin cqCreateI).build.cqMax ∧
    granted (admin cqCreateI) 0 0xD014 (aCqid cqCreateI) = true ∧ (cq (admin cqCreateI) (aCqid cqCreateI)).live = false ∧
    4 ≤ byteAt cqCreateI 6 ∧ byteAt cqCreateI 6 ≤ 16 ∧ iAddr cqCreateI % 4096 = 0 := ⟨adminAt_of (by decide +kernel), by decide +kernel⟩
theorem witness_QueueCommands_delete : AdminAt (at_ (admin (ins 0x81 2 [5]) (withSq 5 ring0))) 0 0x81 (ins 0x81 2 [5]) ∧
    AdminAt (at_ (admin (ins 0x83 2 [7]) (withCq 7 compl0))) 0 0x83 (ins 0x83 2 [7]) ∧
    sqFail (admin (ins 0x81 2 [5]) (withSq 5 ring0)) 0 5 = none ∧ (sq (withSq 5 ring0) 5).chain = none ∧ (withSq 5 ring0).cmds = [] ∧
    cqFail (admin (ins 0x83 2 [7]) (withCq 7 compl0)) 0 7 = none ∧ boundTo (admin (ins 0x83 2 [7]) (withCq 7 compl0)) 7 = none :=
  ⟨adminAt_of (by decide +kernel), adminAt_of (by decide +kernel), by decide +kernel⟩
theorem witness_QueueCommands_resume : let s := { ring0 with stopped := true, head := 15, tail := 1, fetch := 15 }
    AdminAt (at_ (admin (ins 0x84 2 [5, 0, 1]) (withSq 5 s))) 0 0x84 (ins 0x84 2 [5, 0, 1]) ∧
    sqFail (admin (ins 0x84 2 [5, 0, 1]) (withSq 5 s)) 0 5 = none ∧ (sq (withSq 5 s) 5).stopped = true ∧ resumeOk s 1 = true ∧
    resumeOk s 15 = true ∧ resumeOk s 2 = false := ⟨adminAt_of (by decide +kernel), by decide +kernel⟩
/-- VECTOR.BIND of ring 7 to vector 255, target 0, count 1, time 1. -/
def bindI : List Byte := ins 0xA0 2 [7, 0, 0xFF, 0, 0, 1, 1, 0]
theorem witness_QueueCommands_bind : AdminAt (at_ (admin bindI (rset1 (withCq 7 compl0) (pavReg 0 0xD004) 0))) 0 0xA0 bindI ∧
    fieldAt bindI 4 2 % 1024 = 255 ∧ granted (admin bindI) 0 0xD01C 255 = true ∧
    rbit (admin bindI (rset1 (withCq 7 compl0) (pavReg 0 0xD004) 0)) (pavReg 0 0xD004) 0 = true ∧
    cqFail (admin bindI (withCq 7 compl0)) 0 (aCqid bindI) = none ∧ byteAt bindI 6 % 32 = 0 ∧ byteAt bindI 7 ≠ 0 ∧
    fieldAt bindI 8 2 ≠ 0 := ⟨adminAt_of (by decide +kernel), by decide +kernel⟩

/-- A machine whose DRBG is ready, in lifecycle state 1. -/
def drbg0 : Block := rputF (rset1 pav0 0x10504 0) 0x10000 1 0 1
theorem witness_KeyCommands_create : AdminAt (at_ (admin (ins 0x90 2 [1]) drbg0)) 0 0x90 (ins 0x90 2 [1]) ∧
    keyRange (admin (ins 0x90 2 [1]) drbg0) 0 1 = true ∧ keyRange (admin (ins 0x90 2 [1]) drbg0) 0 255 = true ∧
    retired (admin (ins 0x90 2 [1]) drbg0) = false ∧ (keySlot (admin (ins 0x90 2 [1]) drbg0) 1).st = .empty ∧
    rbit drbg0 0x10504 1 = false ∧ rngReady (admin (ins 0x90 2 [1]) drbg0) = true := ⟨adminAt_of (by decide +kernel), by decide +kernel⟩
/-- Slot 1 of pavilion 0 holds an exportable key. -/
def keyed : Block := { drbg0 with keys := [(1, ⟨.live, 5, 0, true, false⟩)] }
theorem witness_KeyCommands_others : AdminAt (at_ (admin (ins 0x93 2 [1]) keyed)) 0 0x93 (ins 0x93 2 [1]) ∧
    AdminAt (at_ (admin (ins 0x91 2 [2, 0, 1]) keyed)) 0 0x91 (ins 0x91 2 [2, 0, 1]) ∧
    AdminAt (at_ (admin (ins 0x92 2 [1]) keyed)) 0 0x92 (ins 0x92 2 [1]) ∧ keyRange (admin (ins 0x93 2 [1]) keyed) 0 1 = true ∧
    keyRange (admin (ins 0x91 2 [2, 0, 1]) keyed) 0 2 = true ∧ (keySlot keyed 1).st ≠ .empty ∧ boundQueues keyed 1 = [] ∧
    (wrapKeyOf (admin (ins 0x92 2 [1]) keyed) 0).isSome = true ∧ (keySlot keyed 2).st = .empty ∧ addrBad 0 128 = false ∧
    (keySlot keyed 1).st = .live ∧ (keySlot keyed 1).exportable = true :=
  ⟨adminAt_of (by decide +kernel), adminAt_of (by decide +kernel), adminAt_of (by decide +kernel), by decide +kernel⟩

/-- An open stripe of pavilion 0 with no member, and one with a member on lane 3. -/
def striped (m : List Member) : Block := { pav0 with stripes := [(2, ⟨true, 0, m, [], [], none, 0⟩)] }
/-- STRIPE.ADD to stripe 2 of lane 0, die 0, unit 0, pages 0 to 7. -/
def addI : List Byte := ins 0x9A 2 ([2, 0, 0, 0, 0, 0] ++ zeros 8 ++ [7, 0])
theorem witness_StripeCommands : AdminAt (at_ (admin (ins 0x98 2 [2]))) 0 0x98 (ins 0x98 2 [2]) ∧
    AdminAt (at_ (admin addI (striped []))) 0 0x9A addI ∧ AdminAt (at_ (admin (ins 0x99 2 [2]) (striped []))) 0 0x99 (ins 0x99 2 [2]) ∧
    stripeNamed (admin (ins 0x98 2 [2])) 0 2 = true ∧ (stripe pav0 2).isOpen = false ∧ stripeNamed (admin addI (striped [])) 0 2 = true ∧
    (stripe (striped []) 2).isOpen = true ∧ (stripe (striped []) 2).members.length < 64 ∧
    dieValid (rput pav0 (laneReg 0 0x400) 0x1000) 0 0 = false ∧ dieValid { pav0 with maps := [(0, 0x1000)] } 0 0 = true ∧
    unitInStripe (striped []) 0 0 0 = false ∧ paPage (iPa addI) ≤ fieldAt addI 16 2 ∧
    (List.range 64).filter (fun m => (stripe (striped [⟨3, 0, 0, 0, 7, false⟩]) 2).members.any (fun y => decide (y.lane = m))) ≠ [] :=
  ⟨adminAt_of (by decide +kernel), adminAt_of (by decide +kernel), adminAt_of (by decide +kernel), by decide +kernel⟩
/-- Stripe 2 is closing on lanes 0 and 1. -/
def closing (l : List Nat) : Block := updLane { pav0 with stripes := [(2, ⟨false, 0, [], [], l, some 0, 0⟩)] } 0 (fun x => { x with closes := [2] })
theorem witness_StripeCommands_taken : ∀ l ∈ [[0, 1], [0]], (stripe (closing l) 2).closing.contains 0 = true ∧
    (lane (closing l) 0).closes.contains 2 = true ∧ laneRuns (closing l) 0 = true ∧ (stripe (closing l) 2).closer = some 0 := by
  decide +kernel

/-- Command 4 of queue 5, armed, with one entry on lane 0. -/
def command4 : Block := { withSq 5 ring0 with
  cmds := [(4, ⟨5, 7, 0, none, true, [3], false, false⟩)]
  entries := [(3, ⟨4, some 0, 5, 0, 0, [{ InstrRec.none with phase := .pooled }], true, true, false, false⟩)] }
/-- ABORT of CID 7 of queue 5. -/
def abortI : List Byte := ins 0x88 2 [5, 0, 7]
theorem witness_AbortAndIdentify : AdminAt (at_ (admin abortI command4)) 0 0x88 abortI ∧
    AdminAt (at_ (admin abortI (withSq 5 ring0))) 0 0x88 abortI ∧ (pav (admin abortI command4) 0).exec.bind (·.abort) = none ∧
    sqFail (admin abortI command4) 0 (aId abortI) = none ∧
    (command4.cmds.find? (fun y => decide (y.2.sq = aId abortI ∧ y.2.cid = fieldAt abortI 4 2) && !y.2.discarded)).isSome = true ∧
    (cmd command4 4).armed = true := ⟨adminAt_of (by decide +kernel), adminAt_of (by decide +kernel), by decide +kernel⟩
theorem witness_AbortAndIdentify_identify : ∀ x ∈ [ins 0xA8 2 ([0, 0, 0, 0] ++ zeros 10), ins 0xA8 2 ([2, 0, 63, 0] ++ zeros 10),
    ins 0xA8 2 ([3, 0, 15, 0] ++ zeros 10)], adminIs (admin x) 0xA8 x = true ∧ byteAt x 2 ≤ 3 ∧
    fieldAt x 4 2 < (if byteAt x 2 = 2 then (admin x).build.lanes else if byteAt x 2 = 3 then 16 else 1) ∧
    addrBad (iAddr x) 4096 = false := by decide +kernel
theorem witness_AbortAndIdentify_request : ∀ y ∈ [(command4, true), (pav0, false)],
    let b := updLane y.1 0 (fun l => { l with aborts := [(0, 3)] })
    (lane b 0).aborts = (0, 3) :: [] ∧ laneRuns b 0 = true ∧ (lane b 0).seq = none ∧
    b.entries.any (fun z => decide (z.1 = 3 ∧ z.2.lane = some 0)) = y.2 ∧ (y.2 = true → entryDone b 3 = false ∧ memberConfirmed b 3 = false) := by
  decide +kernel

/-- The check value of R62: the nine bytes 123456789. -/
theorem test_crc32c : crc32c [0x31, 0x32, 0x33, 0x34, 0x35, 0x36, 0x37, 0x38, 0x39] = 0xE3069283 := by decide +kernel
/-- The worked example of 05_kordo_data.md, building a PA (R123). -/
theorem test_pa : mkPa 9 5 0x123 0x200 0 = 0x48A02461000 ∧ paLane 0x48A02461000 = 9 ∧ paDie 0x48A02461000 = 5 ∧
    paUnit 0x48A02461000 = 0x123 ∧ paPage 0x48A02461000 = 0x200 ∧ paSlot 0x48A02461000 = 0 := by decide +kernel
/-- The worked example of 09_codeword_path.md, the seed of one slot (R264, R265). -/
theorem test_randomiser : randomise 0x48A02461000 [0, 0, 0] = [0x19, 0x20, 0x80] := by decide +kernel
/-- The worked example of 09_codeword_path.md, one codeword's metadata (R258). -/
theorem test_metadata : ((metaBytes 0x17F32 0x914C0 0xCB2A 0x2A1 1 0).drop 16).take 2 = [0xA1, 0x12] := by decide +kernel
/-- Steps 1, 3, 4 and 7 of the worked example of 03_rings.md (R64): queue 0x123 with 16 slots. -/
theorem test_doorbells : sqDoorbellCause (withSq 0x123 ring0) 0 (some 0x123) 0x0E = none ∧
    sqDoorbellCause (withSq 0x123 { ring0 with head := 14, tail := 14 }) 0 (some 0x123) 3 = none ∧
    sqDoorbellCause (withSq 0x123 { ring0 with head := 14, tail := 3 }) 0 (some 0x123) 0x10 = some 1 ∧
    sqDoorbellCause (withSq 0x123 { ring0 with head := 3, tail := 2 }) 0 (some 0x123) 3 = some 2 := by decide +kernel
/-- The settings of the worked example of 13_tollgate.md, one period at 38 A. -/
def period38 : Block :=
  let b := rput (rput (rput up 0x30010 0x20004000) 0x30014 0x6000) 0x30018 0x00030401
  let b := rput (rput (rput b 0x30020 0) 0x30024 0x0A280000) 0x30028 0x0A280000
  { b with toll := { b.toll with x := 3800 * 65536, meas := 3850, measPrev := 3820, integ := 0x09600000 } }
/-- That example's result (R361): u 0x0957_F400 and the integral 0x095F_9C00. -/
theorem test_tollgate : (computeOutput period38).toll.uNext = some 0x0957F400 ∧ (computeOutput period38).toll.integ = 0x095F9C00 := by
  decide +kernel
/-- The microwords of the worked example of 11_sequencers.md, with their parity bits (R315): no fault in any. -/
theorem test_microwords : [(0x20D00000, 0x20), (0x22000000, 0x22), (0x25900000, 0x25), (0x26800000, 0x26), (0x23000030, 0x23),
    (0x27000003, 0x27), (0x21000000, 0x21), (0x01000000, 0x01)].all (fun x =>
      decide (mwOp (mword 0 0 0 0 x.1) = x.2) && parityOk (mword 0 0 0 0 x.1) &&
      decide (microFault (micro (mword 0 0 0 0 x.1) seq0).blk 0 seq0 = 0)) = true := by decide +kernel
/-- MW_SUB in two's complement, M3 ← 0 − 1, sets M3 to all ones and clears Z; MW_SHR by 31 leaves the top bit (R317). -/
theorem test_sub_shr : ∃ t u, exec (.mwSub 0) (micro (mword 0x0C 3 3 4 0) { seq0 with m := [(4, 1)] }) = .next t ∧
    ((lane t.blk 0).seq.map (fun q => (tget 0 q.m 3, q.z))) = some (0xFFFFFFFF, false) ∧
    exec (.mwShr 0) (micro (mword 0x11 3 3 0 31) { seq0 with m := [(3, 0x80000000)] }) = .next u ∧
    ((lane u.blk 0).seq.map (fun q => (tget 0 q.m 3, q.z))) = some (1, false) := ⟨_, _, rfl, by decide +kernel, rfl, by decide +kernel⟩
/-- A write of SYS_EPOCH below its value changes nothing and sets EPOCH_BACK (R33). -/
theorem test_epoch_back : ∃ t, exec (.epochWrite 4 true) (at_ (rset1 (rput up 0x110 5) 0x114 0)) = .next t ∧
    rget t.blk 0x110 = 5 ∧ rbit t.blk 0x120 4 = true := ⟨_, rfl, by decide +kernel, by decide +kernel⟩
/-- A pulse of 19 ns does nothing, one of 100 ns resets (R18). -/
theorem test_pulses : exec (.blockReset 19) (at_ up) = .next (at_ up) ∧ ∃ t, exec (.blockReset 100) (at_ up) = .next t ∧
    t.blk.lxReady = false := ⟨rfl, _, rfl, by decide +kernel⟩
/-- A tick counts one (R25). -/
theorem test_tick : ∃ t, exec (.tick 40 40 40 40) (at_ up) = .next t ∧ t.blk.milepost = up.milepost + 1 := ⟨_, rfl, by decide +kernel⟩
/-- A microword of opcode 0x0B without CYC 0 is MW_ADD: the sum wraps to 0 and sets Z. -/
theorem test_add_wraps : ∃ t, exec (.mwAdd 0) (micro (mword 0x0B 0 1 1 0) { seq0 with m := [(1, 0x80000000)] }) = .next t ∧
    ((lane t.blk 0).seq.map (fun q => (tget 0 q.m 1, q.z))) = some (0, true) := ⟨_, rfl, by decide +kernel⟩
/-- Family 0: 2 planes, 4 codewords a page, 8 pages a unit, 16 units a plane, no owned feature address (R253). -/
def family0 : Tab Word :=
  [(0x40, 0x01040202), (0x44, 0x00100008), (0x48, 0x4480), (0x4C, 0x04030201), (0x50, 0x0401), (0x64, 0x10), (0x1E0, 0)] ++
    (List.range 8).map (fun i => (0x200 + 4 * i, 0)) ++ [(0x220, 0)]
/-- Lane 0 started, die 0 of family 0 in service, in a machine that is up. -/
def lane0 : Block :=
  let b := { pav0 with tbl := family0, maps := [(0, 0x1000)] }
  rput (rset1 (rset1 b (laneReg 0 0x204) 4) (laneReg 0 0x304) 1) (laneReg 0 0x400) 0x4000
/-- An instruction released into the pool, the k-th in order. -/
def released (k : Nat) (x : List Byte) (p : Phase := .pooled) : InstrRec := { InstrRec.none with bytes := x, phase := p, order := k }
/-- Entry 3 of queue 5 in the pool of lane 0, with these instructions. -/
def pooled (l : List InstrRec) (b : Block := lane0) : Block :=
  updLane { withSq 5 ring0 b with
    cmds := [(4, ⟨5, 7, 0, none, true, [3], false, false⟩)]
    entries := [(3, ⟨4, some 0, 5, 0, 0, l, true, true, false, false⟩)] } 0
    (fun x => { x with pool := [3], loadPend := false, ent := (List.range 20).map (fun k => (k, 0)) })
/-- What TakenUp asks, as one decidable fact. -/
def taken (b : Block) (i op : Nat) : Bool :=
  takeUp b 0 3 i op && !startFailed b 0 && laneStarted b 0 &&
    decide (operandFail b 0 (instr b 3 i).bytes (pavSec b (sq b (entry b 3).sq).owner) (sq b (entry b 3).sq).service = none) &&
    decide (offlineAt b 0 3 i = none)
theorem takenUp_of {b : Block} {i op : Nat} (h : taken b i op = true) : TakenUp (at_ b) 0 3 i op := by
  simp only [taken, Bool.and_eq_true, Bool.not_eq_true', decide_eq_true_eq] at h
  exact ⟨h.1.1.1.1, h.1.1.1.2, h.1.1.2, h.1.2, h.2⟩

/-- READ of one codeword of die 0 of lane 0 at a physical address. -/
def readI (pa : Nat) : List Byte := ins 0x01 4 ([0, 1, 0, 0, 0, 0] ++ leBytes 8 pa)
/-- PROG of the page at a physical address. -/
def progI (pa : Nat) : List Byte := ins 0x08 4 ([0, 0, 0, 0, 0, 0] ++ leBytes 8 pa)
/-- ERASE of the unit at a physical address. -/
def eraseI (pa : Nat) : List Byte := ins 0x0C 2 ([0, 0, 0, 0, 0, 0] ++ leBytes 8 pa)
/-- ERASE.VERIFY of the unit at a physical address. -/
def verifyI (pa : Nat) : List Byte := ins 0x0D 2 ([0, 0, 0, 0, 0, 0] ++ leBytes 8 pa)
/-- FEATURE.SET of address 0x10 of die 0. -/
def featI : List Byte := ins 0x29 2 [0, 0x10]
/-- A FEATURE.SET that waits ahead of the instruction. -/
def behindFeat (x : List Byte) : Block := rset1 (pooled [released 0 featI .waiting, released 1 x]) (pavReg 0 0xD000) 1

theorem witness_InstructionsAreChecked : ∀ x ∈ [(readI 0, 0x01), (progI 0, 0x08), (ins 0x38 1 [], 0x38)],
    takeUp (pooled [released 0 x.1]) 0 3 0 x.2 = true ∧ startFailed (pooled [released 0 x.1]) 0 = false ∧
    laneStarted (pooled [released 0 x.1]) 0 = true ∧ places x.1 = false := by decide +kernel
theorem witness_InstructionsAreChecked_fails :
    startFailed (rputF (pooled [released 0 (readI 0)]) (laneReg 0 0x204) 27 24 15) 0 = true ∧
    takeUp (rputF (pooled [released 0 (readI 0)]) (laneReg 0 0x204) 27 24 15) 0 3 0 1 = true ∧
    laneStarted (rclr1 (pooled [released 0 (readI 0)]) (laneReg 0 0x204) 4) 0 = false ∧
    operandFail lane0 0 (readI 4) false false = some (8, 6) ∧ operandFail lane0 0 (readI 3) false false = none ∧
    offlineAt (rset1 (pooled [released 0 (readI 0)]) (laneReg 0 0x400) 13) 0 3 0 = some 8 := by decide +kernel

theorem witness_OrderingInstructions : ∀ x ∈ [(ins 0x38 1 [], 0x38), (ins 0x20 1 [1], 0x20), (ins 0x21 1 [], 0x21), (ins 0x22 1 [1, 0, 0, 1], 0x22)],
    taken (pooled [released 0 x.1]) 0 x.2 = true := by decide +kernel
theorem witness_OrderingInstructions_earlier : ∀ x ∈ [(ins 0x20 1 [1], 0x20), (ins 0x22 1 [1, 0, 0, 1], 0x22)],
    let b := pooled [released 0 (ins 0x38 1 []) .waiting, released 1 x.1]
    let c := pooled [{ released 0 (ins 0x38 1 []) .finished with status := some (0x20, 0) }, released 1 x.1]
    taken b 1 x.2 = true ∧ earlierDone (entry b 3).instrs 1 = false ∧ taken c 1 x.2 = true ∧ earlierDone (entry c 3).instrs 1 = true ∧
    (iOpt (instr c 3 1).bytes 0 && earlierFailed (entry c 3).instrs 1) = true := by decide +kernel
theorem witness_OrderingInstructions_wait : ∀ x ∈ [(0 : Nat), 1, 0x80000001, 0x80000000],
    taken (pooled [released 0 (ins 0x21 1 ([0, 0, 0, 0, 0, 0] ++ leBytes 4 x))]) 0 0x21 = true ∧
    (((0 : Word) - BitVec.ofNat 32 x).toNat < 2 ^ 31 ↔ x = 0 ∨ x = 0x80000001) := by decide +kernel

/-- A WAIT of TIMEOUT 1 that has waited since tick 0, at tick t. -/
def waited (t : Nat) : Block := { pooled [released 0 (ins 0x21 1 ([0, 0, 0, 0, 0, 0] ++ leBytes 4 1 ++ [1, 0])) .waiting] with
  milepost := BitVec.ofNat 64 t }
theorem witness_WaitsTimeOut : (entry (waited 1) 3).lane = some 0 ∧ (instr (waited 1) 3 0).phase = .waiting ∧
    iOp (instr (waited 1) 3 0).bytes = opWait ∧ fieldAt (instr (waited 1) 3 0).bytes 12 2 = 1 ∧ (instr (waited 1) 3 0).started = 0 ∧
    now (waited 1) = 1 ∧ now (waited 0) = 0 ∧ laneRuns (waited 1) 0 = true := by decide +kernel
theorem witness_WaitsTimeOut_write : PortTakes (at_ up) (laneReg 63 0xE4) := takes_of (by decide +kernel)

theorem witness_ReadsAndErasesStart : ∀ x ∈ [(readI 0, 0x01), (ins 0x11 3 [0, 1], 0x11), (ins 0x10 3 [1, 1], 0x10)],
    taken (pooled [released 0 x.1]) 0 x.2 = true ∧ readWaits (pooled [released 0 x.1]) 0 3 0 = false ∧
    taken (behindFeat x.1) 1 x.2 = true ∧ readWaits (behindFeat x.1) 0 3 1 = true := by decide +kernel
/-- A PROG, not yet staged, ahead of the instruction. -/
def behindProg (x : List Byte) : Block := pooled [released 0 (progI 0) .active, released 1 x]
/-- Page 0 of die 0, unit 0 stands in staging. -/
def staged0 (x : List Byte) : Block :=
  updLane (pooled [released 0 x]) 0 (fun l => { l with pages := [⟨0, 0, 0, [], 0, true, false⟩], opens := [⟨0, 0, 0, 1, false, false, 0, [], []⟩] })
theorem witness_ReadsAndErasesStart_erase : taken (pooled [released 0 (eraseI 0)]) 0 0x0C = true ∧
    featBarred (pooled [released 0 (eraseI 0)]) 0 3 0 = false ∧ earlierOf (pooled [released 0 (eraseI 0)]) 0 3 0 = [] ∧
    taken (behindProg (eraseI 0)) 1 0x0C = true ∧ namedUnits (behindProg (eraseI 0)) 3 0 = [(0, 0)] ∧
    eraseUnits (eraseI 0) = [(0, 0)] ∧ earlierOf (behindProg (eraseI 0)) 0 3 1 = [(3, 0)] := by decide +kernel
theorem witness_ReadsAndErasesStart_verify : taken (pooled [released 0 (verifyI 0)]) 0 0x0D = true ∧
    erasePending (pooled [released 0 (verifyI 0)]) 0 3 0 0 0 = false ∧
    taken (pooled [released 0 (eraseI 0) .waiting, released 1 (verifyI 0)]) 1 0x0D = true ∧
    erasePending (pooled [released 0 (eraseI 0) .waiting, released 1 (verifyI 0)]) 0 3 1 0 0 = true ∧
    taken (behindFeat (verifyI 0)) 1 0x0D = true ∧ featBarred (behindFeat (verifyI 0)) 0 3 1 = true ∧
    taken (staged0 (verifyI 0)) 0 0x0D = true ∧
    (lane (staged0 (verifyI 0)) 0).pages.any (fun p => decide (p.die = 0 ∧ p.unit = 0) && p.staged) = true := by decide +kernel

/-- APPEND to stripe 2. -/
def appendI : List Byte := ins 0x09 4 [2]
/-- Stripe 2 open with the members given. -/
def openStripe (m : List Member) (b : Block) : Block := { b with stripes := [(2, ⟨true, 0, m, [], [], none, 0⟩)] }
theorem witness_ProgramsStart : taken (pooled [released 0 (progI 0)]) 0 0x08 = true ∧
    featBarred (pooled [released 0 (progI 0)]) 0 3 0 = false ∧ places (progI 0) = false ∧ taken (behindFeat (progI 0)) 1 0x08 = true ∧
    featBarred (behindFeat (progI 0)) 0 3 1 = true ∧ taken (pooled [released 0 appendI]) 0 0x09 = true ∧ places appendI = true ∧
    (instr (pooled [released 0 appendI]) 3 0).place = none := by decide +kernel
theorem witness_ProgramsStart_stripe :
    choosePage (pooled [released 0 appendI]) 0 2 0 = .inr (stStripeClosed, 1) ∧
    choosePage (openStripe [] (pooled [released 0 appendI])) 0 2 0 = .inr (stStripeFull, 0) ∧
    choosePage (openStripe [⟨0, 0, 0, 0, 7, true⟩] (pooled [released 0 appendI])) 0 2 0 = .inl none ∧
    choosePage (openStripe [⟨0, 0, 0, 7, 7, false⟩] (pooled [released 0 appendI])) 0 2 0 = .inl (some ⟨0, 0, 0, 7, 7, false⟩) ∧
    iOp appendI ≠ opReloc ∧ offlineAt (pooled [released 0 appendI]) 0 3 0 = none := by decide +kernel
theorem witness_ProgramsStart_reloc : taken (pooled [released 0 (ins 0x10 4 [0, 4])]) 0 0x10 = true ∧
    relocMode (ins 0x10 4 [0, 4]) ≠ 1 := by decide +kernel

/-- A lane with room for staging: a region of 64 MiB, slots of 4,608 B. -/
def roomy (b : Block) : Block := updLane (rput b 0x300 64) 0 (fun l => { l with frameSz := 4608 })
theorem witness_ProgramsAreDecided :
    let b := pooled [released 0 (progI 0)]
    progPages b 3 0 = [(0, 0, 0)] ∧ stPage b 0 0 0 0 = none ∧ beingWritten b 0 3 0 0 0 0 = false ∧ openUnit b 0 0 0 = none ∧
    erasePending b 0 3 0 0 0 = false ∧ (die b 0 0).susp.isSome = false ∧ readWaits b 0 3 0 = false ∧ openCount b 0 = 0 ∧
    reserveStaging b 0 3 0 = none ∧ (reserveStaging (roomy b) 0 3 0).isSome = true ∧ iOp (instr b 3 0).bytes = opProg := by
  decide +kernel
theorem witness_ProgramsAreDecided_stops :
    (stPage (staged0 (progI 0)) 0 0 0 0).isSome = true ∧
    erasePending (pooled [released 0 (eraseI 0) .waiting, released 1 (progI 0)]) 0 3 1 0 0 = true ∧
    ((openUnit (staged0 (progI 16)) 0 0 0).map (·.next) = some 1) ∧ progPages (staged0 (progI 16)) 3 0 = [(0, 0, 2)] ∧
    passesOf { lane0 with tbl := tset 0xFFFFFFFF family0 0x130 0x200 } 0 = 2 ∧
    openCount (updLane { lane0 with tbl := tset 0xFFFFFFFF family0 0x130 0x200 } 0 (fun l => { l with
      opens := (List.range 128).map (fun u => ⟨0, u, 0, 1, false, false, 0, [], []⟩) })) 0 = 128 := by decide +kernel

theorem witness_DieInstructionsStart : ∀ x ∈ [(ins 0x28 2 [0, 0x10], 0x28), (featI, 0x29), (ins 0x2A 2 [], 0x2A), (ins 0x30 2 [], 0x30),
    (ins 0x30 2 [1], 0x30)], taken (rset1 (pooled [released 0 x.1]) (pavReg 0 0xD000) 1) 0 x.2 = true ∧
    featBarred (pooled [released 0 x.1]) 0 3 0 = false := by decide +kernel
theorem witness_DieInstructionsStart_more : taken (behindFeat (ins 0x28 2 [0, 0x10])) 1 0x28 = true ∧
    featBarred (behindFeat (ins 0x28 2 [0, 0x10])) 0 3 1 = true ∧ trainDies lane0 0 (ins 0x30 2 []) = [0] ∧
    trainDies lane0 0 (ins 0x30 2 [1]) = [0] ∧ trainable (rset1 lane0 (laneReg 0 0x400) 13) 0 0 = false ∧ trainable lane0 0 0 = true ∧
    taken (rset1 (rset1 (pooled [released 0 (ins 0x30 2 [1])]) (laneReg 0 0x400) 13) (pavReg 0 0xD000) 1) 0 0x30 = true := by
  decide +kernel
/-- RAW of one command cycle. -/
def rawI : List Byte := ins 0x31 3 ([0, 1] ++ zeros 28 ++ [1, 0x70])
theorem witness_DieInstructionsStart_raw : taken (pooled [released 0 rawI]) 0 0x31 = true ∧
    (entryWord (pooled [released 0 rawI]) 0 19).isSome = true ∧
    entryWord (updLane (pooled [released 0 rawI]) 0 (fun l => { l with ent := [] })) 0 19 = none := by decide +kernel

theorem witness_LaneSchedulerEvents : lanePlaces lane0 0 = true ∧ (lane lane0 0).built = false ∧ (lane lane0 0).ps1 = false ∧
    (die (updDie lane0 0 0 (fun x => { x with waitSusp := some 0 })) 0 0).waitSusp = some 0 ∧ 0 ≤ now lane0 ∧
    rfld (rputF lane0 (laneReg 0 0xA0) 15 0 1) (laneReg 0 0xA0) 15 0 = 1 ∧ (lane lane0 0).seq = none ∧ diesQuiet lane0 0 = true ∧
    (∀ d ∈ validDies lane0 0, (die lane0 0 d).retrain = none ∧ (die lane0 0 d).training = false) ∧ (lane lane0 0).slipRaised = false ∧
    rfld (rputF lane0 (laneReg 0 0x80) 15 0 3) (laneReg 0 0x80) 15 0 = 3 ∧ rfld (rputF lane0 0x200 23 16 3) 0x200 23 16 = 3 := by
  decide +kernel
/-- A program operation of die 0. -/
def op0 (k : OpKind) (p : Purpose) (ready : Bool) : DieOp := ⟨k, p, 0, 0, 1, 0, 0, 0, ready, none, 0, none⟩
/-- Die 0 with an operation. -/
def running0 (o : DieOp) : Block := updDie lane0 0 0 (fun x => { x with op := some o })
theorem witness_LaneSchedulerEvents_hold : let b := { updDie lane0 0 0 (fun x => { x with
      susp := some (op0 .erase (.eraseIssue 3 0) false), suspAt := 0 }) with milepost := 255 }
    (die b 0 0).susp.isSome = true ∧ (die b 0 0).suspAt + max 1 (rfld b (laneReg 0 0x144) 23 16) ≤ now b ∧ lanePlaces b 0 = true := by
  decide +kernel

theorem witness_DieEvents : lanePlaces lane0 0 = true ∧ lunsPerCe lane0 0 = 1 ∧ famOption lane0 0 4 = true ∧
    (validDies (running0 (op0 (.pass 1) .poll false)) 0).filter (fun d => decide (dieCe lane0 0 d = 0) &&
      (dieRuns (die (running0 (op0 (.pass 1) .poll false)) 0 d) || (die (running0 (op0 (.pass 1) .poll false)) 0 d).suspending)) = [0] ∧
    (lane (updLane (running0 (op0 .read .poll false)) 0 (fun l => { l with events := [(0, true)] })) 0).events.contains (0, true) = true ∧
    (die (running0 (op0 .read .poll false)) 0 0).op = some (op0 .read .poll false) ∧ dieInService lane0 0 0 = true ∧
    dieOffline lane0 0 0 = false ∧ (die lane0 0 0).op = none ∧
    fam8 { lane0 with tbl := tset 0xFFFFFFFF family0 0x220 1 } 0 0x220 ≠ 0 := by decide +kernel
theorem witness_DieEvents_retrain : let b := { updDie lane0 0 0 (fun x => { x with retrain := some 0 }) with milepost := 255 }
    (die b 0 0).retrain = some 0 ∧ 0 + rfld b (laneReg 0 0x220) 15 8 ≤ now b ∧ trainRuns b 0 0 = true := by decide +kernel
theorem witness_DieEvents_limits : (die (running0 (op0 .erase (.eraseIssue 3 0) false)) 0 0).suspending = false ∧
    (op0 .erase (.eraseIssue 3 0) false).ready = false ∧
    passOf (updLane lane0 0 (fun l => { l with passes := [⟨0, 0, 1, 0, 1, 3, 0, 0, 0, [], []⟩] })) 0 0 (.pass 3 0 0 0 1) =
      some ⟨0, 0, 1, 0, 1, 3, 0, 0, 0, [], []⟩ ∧
    (die (updDie lane0 0 0 (fun x => { x with suspending := true })) 0 0).suspending = true := by decide +kernel

/-- Codeword 6 of lane 0 at a stage. -/
def cword (g : CwStage) : Block := { pooled [released 0 (readI 0) .active] with cws := [(6, { Cw.none with e := 3, stage := g })] }
theorem witness_Decoders : cwLive (cword .hard) 6 = true ∧ (cw (cword .hard) 6).lane = 0 ∧ (cw (cword .hard) 6).stage = .hard ∧
    laneRuns (cword .hard) 0 = true ∧ ([] : List Byte).length ≠ cwLen (cword .hard) 0 ∧
    (junc (updJunc (cword .softQueued) 0 (fun q => { q with soft := [6] })) 0).soft = 6 :: [] ∧
    tget 0 (junc (cword .softQueued) 0).dec 3 = 0 ∧
    tget 0 (junc (updJunc (cword .softDecode) 0 (fun q => { q with dec := [(0, 7)] })) 0).dec 0 = 6 + 1 ∧
    recoveryMode (instr (cword .softDecode) 3 0).bytes ≠ 3 := by decide +kernel

/-- The codeword that encodes zeros, for die 0. -/
def coded0 : List Byte := ldpcEncode (zeros 4128) 4384
theorem witness_Decoders_good : ldpcValid coded0 = true ∧ coded0.length = cwLen lane0 0 := by
  have z : (zeros 4128).length = 4128 := List.length_replicate
  have h : coded0.length = 4384 := by rw [coded0, Laws.ldpcEncode_length, z]; decide +kernel
  have k : coded0.take 4128 = zeros 4128 := by
    rw [coded0, ldpcEncode, List.take_left' z]
  exact ⟨by rw [ldpcValid, k, h]; exact decide_eq_true rfl, h.trans (by decide +kernel)⟩

/-- A lane whose load has ended. -/
def loaded : Lane := { lane State.reset.blk 0 with loadPend := false }
theorem witness_ResetsAndStart : powerState up ≠ 3 ∧ 100 ≤ 100 ∧ 19 < 20 ∧
    ({ State.reset.blk with inReset := true, rstPin := true } : Block).brownHold = false ∧
    (∀ n < up.build.lanes, (lane { up with lanes := (List.range 64).map (fun n => (n, loaded)) } n).loadPend = false) ∧
    faulted State.reset.blk = false ∧ powerState (rputF up 0x38004 1 0 3) = 3 ∧ rbit (rset1 up 0x38008 0) 0x38008 0 = true := by
  decide +kernel
theorem witness_BlockResetState : 0x38024 ∈ aonRegs ∧ 0x30000 ∉ aonRegs := by decide +kernel
theorem witness_SupplyWarnings : up.porPin = false ∧ (holdAll up).inReset = false ∧ powerState up ≠ 3 ∧
    (let b := { State.reset.blk with inReset := true }
     b.porPin = false ∧ warned b = false ∧ (holdAll b).inReset = true) ∧ rbit up 0x38024 0 = false ∧ warned up = false ∧
    rbit (rset1 up 0x38024 1) 0x38024 0 = false ∧ warned (rset1 up 0x38024 1) = true ∧ rbit (rset1 up 0x38024 2) 0x38024 2 = true ∧
    warned (rclr1 (rset1 up 0x38024 2) 0x38024 2) = false ∧ warned (rclr1 (rset1 (rset1 up 0x38024 0) 0x38024 2) 0x38024 2) = true := by
  decide +kernel

/-- The four junction sensors valid, in a machine shut down by heat. -/
def hot : Block := rset1 { up with sensors := [some 40, some 40, some 40, some 40] } 0x300C0 0
theorem witness_TripsAndRestarts : (hot.sensors.getD 3 none).isSome = true ∧ tripped hot = true ∧ coolNow hot = true ∧
    faulted hot = false ∧ powerState hot ≠ 3 ∧ hot.inReset = false ∧ 7 < hot.build.juncs ∧ coolNow { hot with comp105 := [true] } = false := by
  decide +kernel

/-- A request for power state r, in a 16-lane build. -/
def asked (r : Nat) : Block :=
  rset1 (rputF { up with build := .lanes16, lanes := (List.range 16).map (fun n => (n, loaded)) } 0x38000 1 0 r) 0x38004 2
/-- A block whose die maps are blank has no dies. -/
theorem no_dies (b : Block) (n : Nat) (h : b.maps = []) : validDies b n = [] := by
  simp only [validDies, List.filter_eq_nil_iff]
  intro d _
  rw [dieValid, dieMap, h]
  simp [tget]
theorem asked_quiet : ∀ r ∈ [2, 3], blockQuiet (asked r) = true := by
  have m : ∀ r, (asked r).maps = [] := fun r => rfl
  have k : ∀ r n, validDies (asked r) n = [] := fun r n => no_dies _ n (m r)
  have q : ∀ r, laneQuiet (asked r) = fun n => let l := lane (asked r) n
      decide (poolCount (asked r) n = 0) && l.holding.isEmpty && l.inJobs.isEmpty && l.outJobs.isEmpty && l.seq.isNone && true := by
    intro r; funext n; simp only [laneQuiet, k, List.all_nil]
  simp only [blockQuiet, q]
  decide +kernel
theorem witness_PowerStates : requested (asked 2) 2 = true ∧ requested (asked 3) 3 = true ∧
    blockEmpty (asked 3) = true ∧ powerState (rputF up 0x38004 1 0 2) = 2 ∧
    rbit (rset1 up 0x38008 0) 0x38008 0 = true := by decide +kernel
theorem witness_PowerStates_ports : ∀ a ∈ [0x38000, 0x38008, 0x38040, 0x38044, 0x38048], takes (at_ up) a = true ∧
    (1 : Word).getLsbD 0 = true := by decide +kernel
theorem witness_TicksAdvanceTheMilepost : up.inReset = false ∧ up.ticking = true ∧ ({ up with ticking := false } : Block).ticking = false ∧
    (Block.inReset0 .lanes64).inReset = true := by decide +kernel
theorem witness_BoardRegisters : (∀ a ∈ [0x110, 0x118, 0x200, 0x208], takes (at_ up) a = true) ∧
    epochValid (rset1 (rput up 0x110 5) 0x114 0) = true ∧ (4 : Word).toNat < (epochNow (rset1 (rput up 0x110 5) 0x114 0)).toNat ∧
    epochValid up = false ∧ -40 ≤ sbyte (fld 0xD8 7 0) ∧ sbyte (fld 0x7D 7 0) ≤ 125 ∧ sbyte (fld 0xD7 7 0) < -40 ∧
    125 < sbyte (fld 0x7E 7 0) ∧ 0 + rfld { up with boardAt := some 0, milepost := 245 * 1024 } 0x118 31 16 * 1024 ≤ now { up with boardAt := some 0, milepost := 245 * 1024 } ∧ fld 1 5 0 < 2 ∧ 32 < fld 33 5 0 ∧
    2 ≤ fld 2 5 0 ∧ fld 32 5 0 ≤ 32 := by decide +kernel
theorem witness_TollgateEvents : up.toll.samples = 0 ∧ (0xFFFE : BitVec 16) ≠ 0xFFFF ∧ powerState up = 0 ∧
    1 ≤ ({ up with toll := { up.toll with samples := 1 } } : Block).toll.samples ∧ running up = true ∧ up.toll.due = false ∧
    running { up with toll := { up.toll with due := true, thermal := true } } = true := by decide +kernel

theorem witness_PavilionRegisters : (∀ a ∈ [0xD000, 0xC210, 0xC214, 0xD008], takes (at_ up) (pavReg 15 a) = true) ∧
    fld 2 2 1 ≠ rfld pav0 (pavReg 0 0xD000) 2 1 ∧ (!rbit pav0 (pavReg 0 0xD000) 0 && pavEmpty pav0 0) = false ∧
    fld 1 2 1 = rfld pav0 (pavReg 0 0xD000) 2 1 ∧ (!rbit up (pavReg 0 0xD000) 0 && pavEmpty up 0) = true ∧
    rbit up (pavReg 0 0xC210) 0 = false ∧ baseOk (rget64 up (pavReg 0 0xC200)) = true ∧ baseOk (rget64 up (pavReg 0 0xC208)) = true ∧
    kOk (fld 0x00100401 12 8) = true ∧ kOk (fld 0x00100401 20 16) = true ∧ rbit (rset1 up (pavReg 0 0xC210) 0) (pavReg 0 0xC210) 0 = true ∧
    resumeOk { ring0 with stopped := true, tail := 3 } 3 = true ∧ resumeOk { ring0 with stopped := true, tail := 3 } 4 = false ∧
    (sq (withSq 4096 { ring0 with stopped := true }) 4096).stopped = true ∧
    let b := updCq (updPav pav0 0 (fun v => { v with resetting := true })) 5 (fun _ => { Cq.none with live := true, k := 4 })
    ((pav b 0).resetting = true ∧ ringDone b 5 = true ∧ (cq b 5).owner = 0 ∧
     (b.cqs.filter (fun x => x.2.live && decide (x.2.owner = 0))).map (·.1) ≠ [] ∧
     ((b.cqs.filter (fun x => x.2.live && decide (x.2.owner = 0))).map (·.1)).all (ringDone b) = true ∧
     ringDone (updCq b 5 (fun q => { q with wait := [complN] })) 5 = false) := by decide +kernel

/-- A burst of port 3 with id 9. -/
def burst3 (write : Bool) : Burst :=
  ⟨3, write, .general 3 0 0 0 0 0 false, 16, 0, 0x1000, 2, true, some 9, if write then 2 else 0, 0, false, false, false, false, [], []⟩
theorem witness_FabricResponses : let b := { up with bursts := [burst3 false, burst3 true] }
    findBurst b 3 false 9 = some (0, burst3 false) ∧ ({ burst3 false with got := 1 } : Burst).got < (burst3 false).beats ∧
    findBurst { b with bursts := [{ burst3 false with got := 1 }] } 3 false 9 = some (0, { burst3 false with got := 1 }) ∧
    findBurst b 3 true 9 = some (1, burst3 true) ∧ (burst3 true).beats ≤ (burst3 true).put ∧ (burst3 true).timeout = false ∧
    findBurst b 3 true 8 = none ∧ b.inReset = false ∧ 3 < b.build.juncs ∧
    quarantined (burstOver 1 { burst3 true with bad := true, timeout := true, data := [] } (rinc (quarantine 1 (burst3 true) b) 0x108 15 8 1)) 3 true < 128 := by
  decide +kernel
theorem witness_IdsAreNotReused : ∃ n, (pickId up 3 false).1 = some n := ⟨_, rfl⟩
theorem witness_RegisterAccesses : takes (at_ up) 0x110 = true ∧ maskFits 0x110 0x0F = true ∧ maskFits 0x110 0xFF = true ∧
    maskFits 0x114 0xF0 = true ∧ maskFits 0x114 0x0F = false ∧ portOpen { up with answers := List.replicate 4 ⟨false, 0, 0, none⟩ } = false ∧
    portOpen { up with answers := List.replicate 3 ⟨false, 0, 0, none⟩ } = true ∧ takes (at_ up) 0x27FFC = true ∧ takes (at_ up) 0x30000 = true := by
  decide +kernel
theorem witness_RegionWrites : takes (at_ up) 0x300 = true ∧ takes (at_ up) 0x430 = true ∧ regionBad 64 = false ∧ regionBad 63 = true ∧
    regionBad 0 = false ∧ stagingInUse up = false ∧ stagingInUse (staged0 (readI 0)) = true ∧ takes (at_ up) 0x303FFC = true ∧
    familyInUse up 15 = false ∧ familyInUse lane0 0 = true := by decide +kernel

/-- General channel 7 of junction 7, in a run state, at pc 1 of a program of the words given. -/
def chan7 (r : Nat) (w : Nat) (f : Chan → Chan := id) : Block :=
  updChan (rput64 up (juncReg 7 0x2708) (BitVec.ofNat 64 w)) 7 7 (fun c => f { c with run := r, pc := 1 })
theorem witness_ChannelCommands : takes (at_ up) (chanReg 7 23 4) = true ∧ takes (at_ up) (juncReg 7 (0x2000 + 0x100 * 7 + 8 * 31)) = true ∧
    (∀ r ∈ [0, 1, 2, 3, 4, 5], (chan (chan7 r 0) 7 7).run = r) ∧ engineRuns up = true ∧ rbit (chan7 5 0) (chanReg 7 23 4) 0 = false ∧
    takes (at_ up) (juncReg 7 0x1004) = true ∧ takes (at_ up) (juncReg 7 0x1008) = true := by decide +kernel
theorem witness_ChannelInstructions : engineRuns (chan7 1 0) = true ∧ tripped (chan7 1 0) = false ∧
    progWord (chan7 1 (1 * 2 ^ 60 + 1)) 7 7 (chan (chan7 1 (1 * 2 ^ 60 + 1)) 7 7).pc = 1 * 2 ^ 60 + 1 ∧ cwOp (1 * 2 ^ 60 + 1) = 1 ∧
    moveOk (1 * 2 ^ 60 + 1) = true ∧ moveOk (1 * 2 ^ 60) = false ∧ moveOk (1 * 2 ^ 60 + 2 ^ 57) = true ∧
    (chan (chan7 1 0) 7 7).src < 2 ^ 48 ∧ cwOp (2 * 2 ^ 60 + 2 * 2 ^ 16) = 2 ∧ bitsOf (2 * 2 ^ 60 + 2 * 2 ^ 16) 23 16 = 2 ∧
    bitsOf (2 * 2 ^ 60 + 2 * 2 ^ 16) 4 0 < (chan (chan7 1 0) 7 7).pc ∧ (chan (chan7 1 0) 7 7).left = 0 ∧
    (chan (chan7 1 0 (fun c => { c with left := 1, loopAt := 1 })) 7 7).left = 1 ∧
    (chan (chan7 1 0 (fun c => { c with left := 1, loopAt := 1 })) 7 7).loopAt = (chan (chan7 1 0) 7 7).pc := by decide +kernel
theorem witness_ChannelInstructions_others : (∀ w ∈ [3 * 2 ^ 60 + 2 ^ 15, 4 * 2 ^ 60 + 2 ^ 8 + 15, 4 * 2 ^ 60 + 2 ^ 9, 0],
      progWord (chan7 1 w) 7 7 (chan (chan7 1 w) 7 7).pc = w) ∧ chanDrained (chan7 1 0) 7 7 = true ∧
    chanDrained { chan7 1 0 with bursts := [{ burst3 true with owner := .general 7 7 0 0 0 0 false }] } 7 7 = false ∧
    rbit (chan7 3 0) (chCtrl 7 7) 0 = false ∧ rbit (rset1 (chan7 3 0) (chCtrl 7 7) 0) (chCtrl 7 7) 0 = true := by decide +kernel
/-- A job whose beats have all come. -/
def job0 : Job := { mkJob (.recordWrite 0) 0 64 true [] with started := true }
theorem witness_ChannelInstructions_jobs : engineRuns up = true ∧ job0.started = true ∧ job0.left = 0 ∧
    (lane (updLane up 63 (fun l => { l with inJobs := [job0], outJobs := [job0] })) (8 * 7 + 15 / 2)).outJobs = job0 :: [] ∧
    (lane (updLane up 63 (fun l => { l with inJobs := [job0], outJobs := [job0] })) (8 * 7 + 14 / 2)).inJobs = job0 :: [] := by decide +kernel

/-- Source 64 at a state, for target 0, enabled. -/
def source64 (x : SrcState) : Block := { rset1 up (srcCfg 64) 8 with srcs := [(64, ⟨true, x, 1, 1, 0, 0, 0⟩)] }
theorem witness_InterruptCommands : (∀ a ∈ [tgtReg 31 0, tgtReg 0 4, srcCfg 1, srcCfg 1023], takes (at_ up) a = true) ∧
    pendingFor up up.srcs 31 = [] ∧ pendingFor (source64 .pending) (source64 .pending).srcs 0 = 64 :: [] ∧
    (src (source64 .active) 64).st = .active ∧ (src (source64 .active) 64).owner = 0 ∧
    (srcLevel (source64 .active) 64 && srcEnabled (source64 .active) 64) = false ∧ (src (source64 .pending) 64).st ≠ .active ∧
    (src (source64 .accum) 64).st = .accum ∧ (src (source64 .accum) 64).due ≤ now (source64 .accum) ∧ srcCfg 1023 % 8 = 0 := by
  decide +kernel
/-- Ring 7 holds a completion for vector 64. -/
def raised64 (x : SrcState) : Block := { source64 x with cqs := [(7, { compl0 with vector := 64, tail := 1 })] }
theorem witness_SourcesFollowTheirTable : (srcLevel (raised64 .idle) 64 && srcEnabled (raised64 .idle) 64) = true ∧
    (srcLevel (source64 .idle) 64 && srcEnabled (source64 .idle) 64) = false ∧ srcMcount (raised64 .idle) 64 = 1 ∧
    srcMcount (rputF (raised64 .idle) (srcCfg 64) 23 16 255) 64 = 255 ∧ targetIdle up 0 = false ∧ targetIdle { up with idleIn := 1 } 0 = true ∧
    (src (raised64 .accum) 64).limit ≤ (src (raised64 .accum) 64).count ∧ ({ src (raised64 .accum) 64 with limit := 2 } : Src).count < 2 := by
  decide +kernel

theorem witness_GatehouseCommands : (∀ a ∈ [0x10314, 0x10400, 0x1043C, 0x10414, 0x10500, 0x10508, 0x10600], takes (at_ up) a = true) ∧
    rbit (rset1 up 0x10400 0) 0x10400 0 = true ∧ rbit up 0x10400 0 = false ∧ rbit up 0x10504 0 = false ∧ rbit up 0x10504 1 = false ∧
    rngReady drbg0 = true ∧ rngReady up = false ∧ up.att = none ∧ rngReady (plainWrite drbg0 0x10600 0xFFFFFFFF 1) = true := by
  decide +kernel
/-- The block at step k of a CFLASH sequence of command c. -/
def cfAt (k c : Nat) : Block := { up with cf := ⟨k, c, 0, false, 0⟩ }
theorem witness_CflashSequences : (∀ a ∈ [0x20000, 0x20004, 0x20008, 0x20010], takes (at_ up) a = true) ∧
    (∀ k ∈ [0, 1, 2, 3, 4], (cfAt k 1).cf.step = k ∧ (cfAt k 1).cf.busy = false) ∧ (cfAt 3 2).cf.cmd = 2 ∧ (cfAt 3 5).cf.cmd = 5 ∧
    (0 : Word64).toNat % 2 ^ 32 ≠ 0x5AA5 := by decide +kernel
theorem witness_CflashCommands_start : (∀ x ∈ [(1, 0, 5), (2, 0, 0), (2, 4095, 2), (3, 8, 0), (6, 0, 0), (7, 0, 9)],
    cfRefusal NonVol.blank { up with cf := ⟨0, x.1, x.2.1, false, 5⟩ } x.1 x.2.1 5 = x.2.2) ∧
    cfRefusal { NonVol.blank with prot := [(16, 5)] } { up with cf := ⟨0, 7, 0, false, 5⟩ } 7 0 5 = 0 := by decide +kernel
theorem witness_CflashCommands_end : ({ up with cf := ⟨0, 2, 0, true, 0⟩ } : Block).cf.busy = true ∧ up.inReset = false ∧
    up.cf.busy = false ∧ takes (at_ up) 0x20050 = true ∧ (2 : Word64).getLsbD 1 = true ∧ takes (at_ up) (0x28000 + 0x7FFC) = true ∧
    arrayBusy up = false ∧ arrayBusy { up with cf := ⟨0, 2, 0, true, 0⟩ } = true := by decide +kernel
theorem witness_CflashStaysCanonical : State.reset.nv.wf = true ∧ ({ NonVol.blank with arr := [(5, 7)] } : NonVol).wf = true ∧
    ({ NonVol.blank with arr := [(5, erasedWord)] } : NonVol).wf = false := by decide +kernel
theorem witness_OnlyCflashCommandsChangeCflash : ∃ t, exec (.cfCommandEnd true) (at_ { up with cf := ⟨0, 1, 0, true, 5⟩ }) = .next t ∧
    t.nv ≠ NonVol.blank := ⟨_, rfl, by decide +kernel⟩

theorem witness_MemoryProtection : up.inReset = false ∧ up.ticking = true ∧ 63 < up.build.lanes ∧ faulted up = false ∧
    up.planted.find? (fun x => decide (x.mem = 2 ∧ x.lane = 63 ∧ x.index = 0)) = none ∧ takes (at_ up) 0x828 = true ∧
    rbit (rset1 up 0x828 0) 0x828 0 = true ∧ rbit up 0x828 0 = false := by decide +kernel
/-- Lane 0 waits for a reload. -/
def reload0 : Block := rset1 (updLane up 0 (fun l => { l with loadPend := false })) (laneReg 0 0x304) 3
theorem witness_ControlStoresLoad : canLoad up = true ∧ (lane up 0).loadPend = true ∧ canLoad reload0 = true ∧
    rbit reload0 (laneReg 0 0x304) 3 = true ∧ laneHalted reload0 0 = false ∧ (lane reload0 0).seq = none ∧
    (lane reload0 0).loadPend = false ∧ (imageCheck NonVol.blank [] 0 up).1 = 2 := by decide +kernel
/-- Lane 0 loaded, with no dies, mode m and a rate. -/
def starting (m rate : Nat) (kinds : Nat) : Block :=
  rputF (rputF (updLane (rclr1 up (laneReg 0 0x200) 5) 0 (fun l => { l with loadPend := false, ent := (List.range kinds).map (fun k => (k, 0)) })) (laneReg 0 0x200) 3 0 m)
    (laneReg 0 0x200) 20 8 rate
theorem witness_LanesStart : ∀ x ∈ [(9, 1, 20, 1), (0, 6401, 20, 2), (0, 6400, 20, 0), (8, 1, 19, 0)],
    let b := starting x.1 x.2.1 x.2.2.1
    laneRuns b 0 = true ∧ (lane b 0).loadPend = false ∧ laneHold b 0 = false ∧ laneStarted b 0 = false ∧ startFailed b 0 = false ∧
    arrayBusy b = false ∧ cfgErr (reloadSets NonVol.blank [] 0 b) 0 = x.2.2.2 := by decide +kernel
theorem witness_LanesStart_kinds : (∀ k ∈ kindsNeeded (starting 0 6400 20) 0, entryWord (starting 0 6400 20) 0 k ≠ none) ∧
    (∃ k ∈ kindsNeeded (starting 0 6400 5) 0, entryWord (starting 0 6400 5) 0 k = none) ∧ fld (rget (starting 0 6400 20) (laneReg 0 0x200)) 20 8 = 6400 ∧
    takes (at_ up) (laneReg 63 0xA8) = true ∧ faulted up = false ∧ powerState up ≠ 2 ∧ laneHalted up 63 = false := by decide +kernel
theorem witness_EncodedCodewordsAreValid : (zeros 4128).length = 4128 := List.length_replicate
theorem witness_RandomiserSequence : 0 < ([0] : List Byte).length ∧ 7 < 8 ∧ lfsrSeed 0 = 0x7FFFFF := by decide +kernel

/-- Lane 0 traps with native microcode; the same lane in compatibility mode holds an event. -/
def compat0 : Block := updLane (rclr1 (entries0 native0) (laneReg 0 0x304) 1) 0 (fun l => { l with events := [(0, true)] })
theorem witness_SynchronousMicrowords_arbiter : holdsEvents (entries0 native0) 0 = false ∧ holdsEvents compat0 0 = true ∧
    AtWord (micro (mword 1 0 0 0 0) seqF compat0) 0 seqF 1 := by unfold AtWord; decide +kernel
theorem witness_FaultyMicrowordsHaltTheLane_region : (∀ x ∈ [(1, 24), (25, 0), (24, 0), (0, 24), (1, 23)],
    let q : Seq := { seq0 with tmask := x.1, tmaskAge := x.2 }
    (lane (micro 0 q).blk 0).seq = some q ∧ laneRuns (micro 0 q).blk 0 = true) ∧ 24 < 1 + 24 ∧ 24 < 25 + 0 ∧ 24 + 0 ≤ 24 ∧ 1 + 23 ≤ 24 := by
  decide +kernel
/-- A pass of codeword 6, whose frame it holds. -/
def pass0 (frames waits : List Nat) : Pass := ⟨0, 0, 1, 0, 1, 3, 0, 0, 0, frames, waits⟩
/-- Lane 0 with that pass, and a page of codeword 6 in staging. -/
def passing (frames waits : List Nat) : Block := updLane { lane0 with
    cws := [(6, { Cw.none with raw := [1, 2], e := 3 })] } 0 (fun l => { l with
  passes := [pass0 frames waits], pages := [⟨0, 0, 0, [6, 6, 6, 6], 0, true, false⟩], loadPend := false
  ent := (List.range 20).map (fun k => (k, 0)) })
/-- The routine of that pass. -/
def passR : Routine := { poll0 with kind := 3, mask := 1, purpose := .pass 3 0 0 0 1 }
theorem witness_CycleQueueEntriesExecute_data : dinBytes 0 passR 2 0 (passing [] [6]) = none ∧
    (dinBytes 0 passR 2 0 (passing [6] [])).isSome = true ∧ ([1, 2] : List Byte).length = 2 ∧
    framesFree lane0 0 < framesWanted { lane0 with cws := [(6, { Cw.none with stage := .array })] }
      { seq0 with routine := { poll0 with purpose := .readOut [6] } } ∧
    framesWanted lane0 seq0 ≤ framesFree lane0 0 := by decide +kernel
theorem witness_MicroRoutineStarts_pass : ∀ r ∈ [passR, { passR with spent := 5 }],
    let b := updLane (passing [] []) 0 (fun l => { l with frame := [r] })
    laneRuns b 0 = true ∧ (lane b 0).seq = none ∧ holdsEvents b 0 = false ∧ (lane b 0).ps1 = false ∧
    rbit b (laneReg 0 0x304) 3 = false ∧ b.planted = [] ∧ nextRoutine b 0 = some r ∧
    (entryWord b 0 r.entryOf.kind).isSome = true ∧ holdsEvents (placed poll0).blk 0 = false := by decide +kernel
theorem witness_PavilionEvents_burst : 15 < 16 ∧ 0 < 1 ∧ burstSlots 16 15 4 = 1 ∧ burstSlots 128 61 5 = 3 ∧ burstSlots 128 64 9 = 4 := by
  decide +kernel
theorem witness_EntriesAreChecked_off : fetchOff (withSq 5 ring0) 0 5 = false ∧ fetchOff (withSq 5 { ring0 with deleting := true }) 0 5 = true ∧
    fetchOff (withSq 5 ring0 up) 0 5 = true ∧ ({ ring0 with fetch := 3 } : Sq).fetch ≠ (fetched 5 nopEntry).slot := by decide +kernel
theorem witness_QueueCommands_vector : vectorTaken (withCq 7 compl0) 0 255 = false ∧
    vectorTaken (withCq 8 { compl0 with vector := 255, owner := 1 }) 0 255 = true := by decide +kernel
theorem witness_AbortAndIdentify_events : (lane (updLane pav0 0 (fun l => { l with aborts := [(0, 3)] })) 0).events = [] ∧
    (lane compat0 0).events ≠ [] := by decide +kernel
theorem witness_ReadsAndErasesStart_records : ∀ x ∈ [(readI 0, 0x01), (ins 0x11 3 [0, 1], 0x11), (ins 0x10 3 [1, 1], 0x10)],
    let b := pooled [released 0 x.1]
    readWaits (fetchRecords 0 3 0 b) 0 3 0 = false ∧ readWaits (fetchRecords 0 3 1 (behindFeat x.1)) 0 3 1 = true ∧
    (x.2 = 0x10 → relocMode (instr (fetchRecords 0 3 0 b) 3 0).bytes = 1) := by decide +kernel
theorem witness_ProgramsStart_opening : choosePage (openStripe [⟨0, 0, 0, 7, 7, false⟩] lane0) 0 2 1 = .inr (stStripeClosed, 1) ∧
    (stripe (openStripe [] lane0) 2).opening ≠ 1 ∧ featBarred (fetchRecords 0 3 0 (pooled [released 0 (ins 0x10 4 [0, 4])])) 0 3 0 = false ∧
    iOp (ins 0x10 4 [2, 4]) = opReloc ∧ iCount (ins 0x10 4 [2, 4]) = cppOf lane0 0 ∧ iCount (ins 0x10 4 [2, 3]) ≠ cppOf lane0 0 := by
  decide +kernel
theorem witness_ProgramsAreDecided_held : suspWaits (pooled [released 0 (progI 0)]) 0 3 0 0 = false ∧
    suspWaits (updDie (pooled [released 0 (progI 0)]) 0 0 (fun x => { x with susp := some (op0 .erase (.eraseIssue 3 0) false) })) 0 3 0 0 =
      true ∧
    (instr (pooled [{ released 0 (progI 0) with badUnits := [(0, 0)] }]) 3 0).badUnits = [(0, 0)] ∧
    (instr (pooled [released 0 (progI 0)]) 3 0).badUnits = [] := by decide +kernel
theorem witness_DieInstructionsStart_seek : trainable lane0 0 1 = false ∧ trainable lane0 0 0 = true := by decide +kernel
/-- Lane 0 whose die 0 runs an operation, its ready event held. -/
def readied0 (susp : Bool) : Block := updLane (updDie (running0 (op0 .erase (.eraseIssue 3 0) false)) 0 0 (fun x =>
    { x with suspending := susp })) 0 (fun l => { l with events := [(0, true)], loadPend := false })
theorem witness_DieEvents_ready : ∀ z ∈ [false, true], laneRuns (readied0 z) 0 = true ∧ (lane (readied0 z) 0).seq = none ∧
    (lane (readied0 z) 0).events.contains (0, true) = true ∧
    let ran := wakeLane (updLane (readied0 z) 0 (fun l => { l with events := l.events.erase (0, true) })) 0
    (die ran 0 0).op = some (op0 .erase (.eraseIssue 3 0) false) ∧ (die ran 0 0).suspending = z := by decide +kernel
theorem witness_TollgateEvents_period : let b := { up with toll := { up.toll with due := true, ended := some 100 } }
    b.toll.due = true ∧ running b = true ∧ up.lxReady = true ∧ powerState (rputF up 0x38004 1 0 2) ≠ 0 := by decide +kernel
theorem witness_FabricResponses_credits : 7 < up.build.juncs ∧ powerState up ≠ 3 ∧ powerState (rputF up 0x38004 1 0 3) = 3 ∧
    (∀ w ∈ [false, true], let b := { up with bursts := [burst3 w] }
      findBurst b 3 w 9 = some (0, burst3 w) ∧ (burst3 w).timeout = false) ∧
    ({ burst3 true with put := 1 } : Burst).put < (burst3 true).beats ∧ ({ burst3 true with timeout := true } : Burst).timeout = true ∧
    let q : Quar := ⟨3, true, 9, 16, 1⟩
    ({ up with quar := [q] } : Block).quar.find? (fun y => decide (y.port = 3 ∧ y.write = true ∧ y.id = 9)) = some q ∧ q.beats ≤ 1 := by
  decide +kernel
/-- Before lx_ready: the pages that answer without it. -/
theorem witness_PortTakes_early : ∀ a ∈ [0x110, 0x38000], PortTakes (at_ { up with lxReady := false }) a := by
  intro a h
  simp only [List.mem_cons, List.not_mem_nil, or_false] at h
  rcases h with rfl | rfl <;> exact ⟨by decide +kernel, .inr (by decide +kernel), by decide +kernel, by decide +kernel⟩
theorem witness_RegionWrites_masks : maskFits (0x300000 + 0x3FFC) 0xF0 = true ∧ maskFits (0x300000 + 0x3FF8) 0xFF = true ∧
    maskFits (0x300000 + 0x3FFC) 0xFF = false ∧ familyInUse lane0 (0x3FF / 0x400) = true ∧ familyInUse lane0 (0x400 / 0x400) = false := by
  decide +kernel
theorem witness_BoardRegisters_epoch : (epochNow (rset1 (rput up 0x110 0xFFFFFFFE) 0x114 0)).toNat = 0xFFFFFFFE ∧
    (epochNow (rset1 (rput up 0x110 0xFFFFFFFD) 0x114 0)).toNat < 0xFFFFFFFE ∧ ({ up with boardAt := some 0 } : Block).boardAt = some 0 ∧
    up.boardAt = none ∧ now { up with boardAt := some 0 } < 0 + rfld (rputF up 0x118 31 16 1) 0x118 31 16 * 1024 := by decide +kernel

/-- Where unit i of an entry starts, as its NUs give it. -/
def startOf (x : List Byte) (i : Nat) : Nat := (fun u => u + byteAt x (16 * u + 1))^[i] 1
/-- Unit i of an entry is well formed. -/
def fitsAt (x : List Byte) (i : Nat) : Bool :=
  decide (startOf x i ≠ 4 * hLen x) && decide (byteAt x (16 * startOf x i + 1) ≠ 0) &&
    decide (startOf x i + byteAt x (16 * startOf x i + 1) ≤ 4 * hLen x)
/-- Unit u of an entry's units is zero. -/
def zeroAt (x : List Byte) (u : Nat) : Bool := ((x.drop (16 * u)).take 16).all (· == 0)
/-- An entry of one slot passes the header checks of a ring of 16 slots. -/
def headed (x : List Byte) : Bool :=
  decide (hLen x = 1) && decide (fieldAt x 8 4 = crc32c (x.take 8 ++ zeros 4 ++ x.drop 12)) && decide (hFlags x < 4) &&
    decide (fieldAt x 12 4 = 0)
/-- A NOP of one unit. -/
def nopUnit : List Byte := leBytes 1 0x38 ++ leBytes 1 1 ++ zeros 14
theorem witness_ChecksRunInOrder_framing :
    (∀ x ∈ [entryOf 1 3 7 1 [0x38, 0], entryOf 1 3 7 1 [0x38, 4], entryOf 1 3 7 4 (nopUnit ++ nopUnit ++ nopUnit)],
      headed x = true ∧ byteAt x 7 ≠ 0 ∧ (List.range (byteAt x 7)).any (fun i => !fitsAt x i) = true) ∧
    (let x := entryOf 1 3 7 1 (nopUnit ++ [1])
     headed x = true ∧ fitsAt x 0 = true ∧ startOf x 1 = 2 ∧ zeroAt x 2 = false ∧ 2 < 4 * hLen x) ∧
    (let x := entryOf 1 3 7 2 (nopUnit ++ [0x02, 2])
     headed x = true ∧ fitsAt x 0 = true ∧ fitsAt x 1 = true ∧ startOf x 2 = 4 * hLen x ∧ opcodeBad 0x38 false true = false ∧
     opcodeBad 0x02 false true = true) ∧
    (let x := nopEntry
     headed x = true ∧ fitsAt x 0 = true ∧ startOf x 1 = 2 ∧ zeroAt x 2 = true ∧ zeroAt x 3 = true ∧ hFirst x = true ∧
     cidInUse { withSq 5 ring0 with cmds := [(4, ⟨5, 7, 0, none, true, [3], false, false⟩)] } 5 (hCid x) = true ∧
     cidInUse (withSq 5 ring0) 5 (hCid x) = false) := by decide +kernel
theorem witness_ChecksRunInOrder_chain :
    let chained (m : Nat) (x : List Byte) := entryChecks (withSq 5 { ring0 with chain := some ⟨0, 9, 0, 2, m, 0⟩ }) 5 x
    let e (flags cid : Nat) : List Byte := entryOf 1 flags cid 1 nopUnit
    chained 1 (e 1 7) = .inl (8, 9 + 2 * 65536) ∧ chained 63 (e 0 9) = .inl (0xA, 9 + 2 * 65536) ∧
    chained 63 (e 2 8) = .inl (0xB, 9 + 2 * 65536) ∧ chained 62 (e 0 8) = .inl (0xB, 9 + 2 * 65536) ∧
    chained 63 (e 2 9) = .inr [nopUnit] ∧ entryChecks (withSq 5 ring0) 5 (e 2 9) = .inl (9, 0) ∧
    (∀ k ∈ [0, 1, 2, 3], headed (e k 9) = true) ∧ fitsAt (e 0 9) 0 = true := by decide +kernel
theorem witness_ChecksRunInOrder_options :
    (∀ x ∈ [ins 0x01 4 [], ins 0x11 3 [0, 9], ins 0x01 4 [0, 1, 0, 0, 17], ins 0x10 3 [3, 1], ins 0x10 3 [5, 1], ins 0x10 2 [0, 0],
        ins 0x22 1 [1, 0, 0, 0], ins 0x31 2 []],
      notPermitted x true false = false ∧ iNu x = nuWanted x ∧ reservedAt x = none ∧ ctlPaZero x = true ∧ (formFail x).isSome = true) ∧
    (let x := ins 0x31 3 ([0, 1] ++ zeros 28 ++ [0xFF, 0xFF])
     iCount x = 1 ∧ rawRecordOk x 0 (rawStats x 0) = false ∧ formFail x = some (32, 6) ∧ ctlPaZero x = true) ∧
    (let x := ins 0x29 2 ([0, 0x10, 0, 0, 0, 0] ++ leBytes 8 1)
     notPermitted x true false = false ∧ iNu x = nuWanted x ∧ reservedAt x = none ∧ ctlPaZero x = false) := by decide +kernel

/-- A FAULT_DISCARD event of queue 5. -/
def discardN : Compl := { complN with event := true, status := 0x70 }
theorem witness_CompletionsAreAccepted_order :
    (let b := updLane (withCq 7 compl0) 0 (fun l => { l with holding := [(6, complN), (7, complN), (7, discardN)] })
     (lane b 0).holding = [(6, complN)] ++ (7, complN) :: [(7, discardN)] ∧ ∀ y ∈ [(6, complN)], y.1 ≠ 7) ∧
    (let b := withCq 7 { compl0 with wait := [{ complN with lane := some 3 }, complN, discardN] }
     (cq b 7).wait = [{ complN with lane := some 3 }] ++ complN :: [discardN] ∧ complN.lane = none ∧
     ∀ y ∈ [{ complN with lane := some 3 }], y.lane ≠ none) ∧
    (let b := withCq 7 { compl0 with wait := [{ complN with lane := some 3 }, discardN] }
     (cq b 7).wait = [{ complN with lane := some 3 }] ++ discardN :: [] ∧ discardN.event = true ∧ discardN.status = 0x70 ∧
     ∃ y ∈ [{ complN with lane := some 3 }], y.sq = discardN.sq) ∧
    (∀ y ∈ (cq (withCq 7 { compl0 with wait := [discardN] }) 7).wait, y.lane ≠ some 3) ∧
    powerState up = 0 ∧ faulted up = false ∧ up.inReset = false ∧ ({ compl0 with issue := 15 } : Cq).issue + 1 = 2 ^ compl0.k := by
  decide +kernel
theorem witness_KeyCommands_read : plantedKeys keyed 1 = [] ∧ (keySlot keyed 1).st = .live ∧ (readKey keyed 1).1 = true := by
  decide +kernel
theorem witness_ResetsAndStart_ps3 : let b : Block := { rputF { up with lanes := (List.range 64).map (fun n => (n, loaded)) } 0x38004 1 0 3
      with lxReady := false, restoring := true }
    b.inReset = false ∧ b.lxReady = false ∧ faulted b = false ∧ b.restoring = true ∧ powerState b = 3 ∧
    (∀ n < b.build.lanes, (lane b n).loadPend = false) ∧ 99 < 100 := by decide +kernel
theorem witness_TicksAdvanceTheMilepost_planted : up.planted = [] ∧ up.newPeriod = none ∧
    ({ up with newPeriod := some 2 } : Block).newPeriod = some 2 := by decide +kernel

/-- Tollgate with its loop closed, the period due, and the sample given. -/
def period (mode : Bool) (sample : Option (BitVec 16)) (miss : Nat := 0) (b : Block := up) : Block :=
  let b := rputF (rputF (rputB b 0x30000 0 mode) 0x30004 1 0 1) 0x30004 12 8 miss
  { b with toll := { b.toll with due := true, ended := sample } }
theorem witness_TollgateEvents_periods : (∀ m ∈ [true, false], (period m (some 100)).toll.due = true ∧ running (period m none) = true ∧
      loopClosed (period m (some 0xFFFF)) = true) ∧
    loopClosed (rputF (period true none) 0x30004 1 0 0) = false ∧ rbit (period true none) 0x30000 0 = true ∧
    rbit (period false none) 0x30000 0 = false ∧ (∀ m ∈ [1, 3], 1 ≤ m ∧ m ≤ 3) ∧ (∀ m ∈ [4, 15], 4 ≤ m ∧ m < 16) ∧ 16 ≤ 16 ∧
    (let f := period true none 4
     ¬ (0 < rfld f 0x30004 23 16 ∧ max 1 (rfld f 0x30044 23 16) ≤ rfld f 0x30004 23 16)) ∧
    (let f := rputF (rputF (period true none 4) 0x30004 23 16 254) 0x30044 23 16 255
     0 < min 255 (rfld f 0x30004 23 16 + 1) ∧ max 1 (rfld f 0x30044 23 16) ≤ min 255 (rfld f 0x30004 23 16 + 1)) := by decide +kernel
theorem witness_TollgateEvents_thermal : blockTemp up = none ∧ rfld (rputF up 0x30060 17 16 0) 0x30060 17 16 = 0 ∧
    blockTemp { up with sensors := [some 40, none, some 50, some (-40)] } = some 50 ∧
    rfld (rputF up 0x30060 17 16 2) 0x30060 17 16 = 2 ∧
    max 1 (rfld up 0x30060 15 8) ≤ 255 + 1 ∧ 0 + 1 < max 1 (rfld (rputF up 0x30060 15 8 2) 0x30060 15 8) ∧
    ({ up with toll := { up.toll with thermal := true } } : Block).toll.thermal = true := by decide +kernel
theorem witness_TollgateEvents_profile : let b := rput (rput (rput period38 0x30050 0x10000) 0x30054 0x8000) 0x30058 0x4000
    let b := rput b 0x30040 0xFFFF
    let high := { b with toll := { b.toll with thc := 4000 } }
    rbit (rclr1 b 0x30000 1) 0x30000 1 = false ∧ rbit (rset1 b 0x30000 1) 0x30000 1 = true ∧
    (profileStep high).toll.x ≠ 4000 * 65536 ∧ (profileStep { b with toll := { b.toll with thc := 3800 } }).toll.x = 3800 * 65536 ∧
    -140737488355328 ≤ (0x4000 : Int) * -50 ∧ (0x4000 : Int) * -50 < 140737488355328 ∧ (0 : Int) ≤ 2 ^ 48 - 1 := by decide +kernel
theorem witness_TollgateEvents_boundary : up.milepost.toNat % tollPeriod up = 0 ∧
    ({ up with milepost := 1 } : Block).milepost.toNat % tollPeriod { up with milepost := 1 } ≠ 0 ∧ 7 < up.build.juncs := by decide +kernel

theorem witness_PavilionRegisters_ranges : ∀ o ∈ [0xD010, 0xD014, 0xD018, 0xD01C, 0xD020], takes (at_ up) (pavReg 15 o) = true ∧
    takes (at_ up) (pavReg 0 o) = true ∧ (0x01000000 : Word) ≠ rget up (pavReg 0 o) := by decide +kernel
theorem witness_FabricResponses_quar : (∀ k ∈ [1, 2], let q : Quar := ⟨3, true, 9, 16, k⟩
      ({ up with quar := [q] } : Block).quar.find? (fun y => decide (y.port = 3 ∧ y.write = true ∧ y.id = 9)) = some q) ∧
    1 < 2 ∧ up.quar.find? (fun y => decide (y.port = 3 ∧ y.write = true ∧ y.id = 9)) = none ∧ powerState up ≠ 3 := by decide +kernel
/-- Page 0 is open to non-secure accesses. -/
def open0 : Block := rclr1 up 0x10100 0
theorem witness_RegisterAccesses_pages : pageSecure up 0x110 = true ∧ pageSecure open0 0x110 = false ∧ takes (at_ open0) 0x110 = true ∧
    takes (at_ up) 0x30C = true ∧ pageImplemented 0x1000 = false ∧ pageImplemented 0x70000 = false ∧ pageImplemented 0x31A000 = false ∧
    absent { up with build := .lanes16 } (laneReg 16 0) = true ∧ absent { up with build := .lanes16 } (laneReg 15 0) = false ∧
    portOpen up = true ∧ earlyPage 0x38000 = true ∧ earlyPage 0x39000 = false ∧ earlyPage 0x1000 = false ∧
    ({ up with lxReady := false } : Block).lxReady = false ∧ maskFits 0x1000 0xFF = true := by decide +kernel
/-- The page of an address is open to non-secure accesses. -/
def openPage (a : Nat) (b : Block) : Block := rclr1 b (0x10100 + 4 * (a / 0x1000 / 32)) (a / 0x1000 % 32)
theorem witness_RegisterAccesses_hostPages : ∀ a ∈ [sqDbAddr 0 none, cqDbAddr 0 none, pvErrAddr 0 true, tgtReg 31 0, tgtReg 31 4],
    pageSecure (openPage a up) a = false ∧ portOpen (openPage a up) = true := by decide +kernel
theorem witness_RegisterAccesses_words : (∀ a ∈ [0x0, 0x110, 0x120, 0x30008, 0x38010], (regDesc a).isSome = true) ∧ regDesc 0x1000 = none ∧
    regDesc 0xFFC = none := by decide +kernel
theorem witness_RegionWrites_gate : (∀ a ∈ [0x300, 0x430, 0x300000, 0x303FFC], takes (at_ up) a = true) ∧
    (slaveGate up 0x300 true false).1 = false ∧ (slaveGate open0 0x300 true false).1 = true ∧
    (slaveGate open0 0x430 true false).1 = true ∧ (slaveGate up 0x300000 true false).1 = false ∧
    (slaveGate (openPage 0x300000 up) 0x300000 true false).1 = true := by decide +kernel
theorem witness_ChannelCommands_locked : rbit (rset1 up (chanReg 7 23 4) 0) (chanReg 7 23 4) 0 = true ∧
    engineRuns (rputF up 0x38004 1 0 2) = false ∧ (chan (chan7 0 0) 7 7).run = 0 := by decide +kernel
theorem witness_CflashCommands_refusals : cfRefusal NonVol.blank { up with cf := ⟨4, 1, 0, false, 0⟩ } 1 0 erasedWord ≠ 9 ∧
    erasedWord = erasedWord ∧ arrWord NonVol.blank (rfld up 0x20028 6 0 * 4096 + 0 / 8) = erasedWord ∧ rbit up 0x20028 8 = false ∧
    ¬ ((1 : Nat) = 1 ∧ (5 : Word64) = erasedWord) ∧ cfRefusal NonVol.blank { up with cf := ⟨4, 7, 0, false, 0⟩ } 7 0 5 = 9 := by decide +kernel
theorem witness_MemoryProtection_scopes : poolCount up 0 = 0 ∧
    256 ≤ poolCount (updLane up 0 (fun l => { l with arrive := List.range 256 })) 0 ∧ (lane up 0).holding = [] ∧
    64 ≤ (lane (updLane up 0 (fun l => { l with holding := List.replicate 64 (0, complN) })) 0).holding.length ∧
    0 < (lane (micro 0 seq0).blk 0).words ∧ (lane up 0).words ≤ 0 ∧ contextPav (withSq 5 ring0) 5 = some 0 ∧ contextPav up 5 = none ∧
    (keySlot keyed 1).st ≠ .empty ∧ (keySlot keyed 2).st = .empty ∧ (∀ r ∈ [1, 2, 3], (chan (chan7 r 0) 7 7).run ∉ [0, 4, 5]) ∧
    (chan (chan7 5 0) 7 7).run ∈ [0, 4, 5] := by decide +kernel
theorem witness_MemoryProtection_laps : scrubPos up 64 = ⟨4, 0, 0⟩ ∧ scrubPos up 63 = ⟨1, 0, 0⟩ ∧ scrubLast 64 = 8 ∧ scrubLast 63 = 3 ∧
    ¬ ((6 = (scrubPos up 64).mem ∧ 0 = (scrubPos up 64).index) ∨ (6 = (scrubPos up 64).mem + 1 ∧ 0 = 0 ∧ (scrubPos up 64).index ≠ 0)) ∧
    (scrubPos { up with scrub := [(64, ⟨8, 7, 0⟩)] } 64).mem = 8 := by decide +kernel
theorem witness_LanesStart_clock : clockBad up 63 = false ∧ clockBad (rset1 up 0x120 13) 63 = true ∧ up.planted = [] ∧
    ({ up with cf := ⟨0, 2, 0, true, 0⟩, famDirty := [0], maps := [(0, 0x1000)] } : Block).famDirty = [0] ∧
    arrayBusy { up with cf := ⟨0, 2, 0, true, 0⟩ } = true ∧ 0 ∈ laneFamilies lane0 0 ∧
    (∀ x ∈ ({ up with planted := [⟨5, 0, 0, 0, 0⟩] } : Block).planted, x.mem ≠ 6) := by decide +kernel

end Sys2Proof.Tests
end

/-! The register slave port (R6, R14, R19, R27, R44, R389, R390, R393, R462): what Gatehouse and the page answer an access,
what the two general accesses do in each case, which part of the window a written word reaches, and the access codes. -/

namespace Sys2Proof.Laws

open Sys2Proof Sys2Proof.Machine

/-! What becomes of an access (R6, R19, R389, R393, R462). -/

section Admission

variable {s : State} {b : Block} {a : Nat} {sec : Bool}

/-- The page answers now: lx_ready is high, or the page is SYS or PM (R19). -/
theorem not_waiting_of_ready (h : b.lxReady = true ∨ earlyPage a = true) : (!b.lxReady && !earlyPage a) = false := by
  rcases h with h | h <;> simp [h]

/-- An access of either world to a non-secure page, and a secure one to any page, is admitted. -/
theorem admitted_of_world (h : PortTakes s a) (hw : sec = true ∨ pageSecure s.blk a = false) (write : Bool) :
    admitted s.blk a write sec = (true, s.blk) := by
  obtain ⟨-, hready, himpl, habsent⟩ := h
  have hgate : slaveGate s.blk a write sec = (true, s.blk) := by
    rcases hw with hw | hw <;> simp [slaveGate, hw]
  simp [admitted, not_waiting_of_ready hready, hgate, himpl, habsent]

/-- A non-secure access to a secure page is denied and is a violation. -/
theorem admitted_of_securePage (h : PortTakes s a) (hp : pageSecure s.blk a = true) (write : Bool) :
    admitted s.blk a write false =
      (false, logViolation s.blk ⟨write, false, 0, 63, false, a, tick32 s.blk, 1⟩) := by
  obtain ⟨-, hready, himpl, habsent⟩ := h
  simp [admitted, not_waiting_of_ready hready, slaveGate, hp, himpl, habsent]

/-- An access to a page that the window or the build has not is not admitted, and is no violation. -/
theorem admitted_of_missingPage (hready : b.lxReady = true ∨ earlyPage a = true)
    (hp : pageImplemented a = false ∨ absent b a = true) (write sec : Bool) : admitted b a write sec = (false, b) := by
  have hgate : (slaveGate b a write sec).2 = b := by
    simp only [slaveGate]
    split
    · rfl
    · rw [if_pos (by simpa using hp.symm)]
  rcases hp with hp | hp <;> simp [admitted, not_waiting_of_ready hready, hgate, hp]

/-- Before lx_ready no page but SYS and PM admits an access. -/
theorem admitted_of_waiting (hl : b.lxReady = false) (he : earlyPage a = false) (write sec : Bool) :
    admitted b a write sec = (false, b) := by simp [admitted, hl, he]

/-- The worlds do not differ at a non-secure page. -/
theorem admitted_world_irrel (hp : pageSecure b a = false) (write sec : Bool) :
    admitted b a write sec = admitted b a write true := by simp [admitted, slaveGate, hp]

theorem portWrite_world_irrel (hp : pageSecure s.blk a = false) (mask : BitVec 8) (sec : Bool) (f : State → State) :
    portWrite s a mask sec f = portWrite s a mask true f := by simp [portWrite, admitted_world_irrel hp]

theorem portRead_world_irrel (hp : pageSecure s.blk a = false) (size8 sec : Bool) (f : State → Word64 × State) :
    portRead s a size8 sec f = portRead s a size8 true f := by simp [portRead, portReadA, admitted_world_irrel hp]

end Admission

/-! The two general accesses, REGISTER_WRITE and RC_REGISTER_READ, by what becomes of them (R27). -/

section Access

variable {s : State} {a : Nat} {bmask : BitVec 8} {sec size8 : Bool}

/-- Where an access is answered without a look at its size: before lx_ready, outside SYS and PM. -/
def SizeUnchecked (b : Block) (a : Nat) : Prop := b.lxReady = false ∧ earlyPage a = false

theorem answersNow_eq_false (h : SizeUnchecked s.blk a) : (s.blk.lxReady || earlyPage a) = false := by
  simp [h.1, h.2]

theorem exec_registerWrite (s : State) (a : Nat) (bmask : BitVec 8) (v : Word64) (sec : Bool) :
    exec (.registerWrite a bmask v sec) s = (portWrite s a bmask sec (registerWrite a bmask v sec)).settled := rfl

theorem exec_rcRegisterRead (s : State) (a : Nat) (size8 sec : Bool) :
    exec (.rcRegisterRead a size8 sec) s = (portReadA s a size8 sec (registerRead a size8)).settled := rfl

theorem exec_registerWrite_admitted (ho : portOpen s.blk = true) (hm : maskFits a bmask = true)
    (h : admitted s.blk a true sec = (true, s.blk)) (v : Word64) :
    exec (.registerWrite a bmask v sec) s = .next (after (registerWrite a bmask v sec s)
      (answer (registerWrite a bmask v sec s).blk ⟨false, 0, stDone, none⟩)) := by
  rw [exec_registerWrite, settled_eq]
  simp [portWrite, ho, hm, h, after]

theorem exec_registerWrite_denied {b' : Block} (ho : portOpen s.blk = true)
    (hm : maskFits a bmask = true ∨ SizeUnchecked s.blk a) (h : admitted s.blk a true sec = (false, b')) (v : Word64) :
    exec (.registerWrite a bmask v sec) s = .next (after s (answer b' ⟨false, 0, stDone, none⟩)) := by
  rw [exec_registerWrite, settled_eq]
  rcases hm with hm | hm
  · simp [portWrite, ho, hm, h, after]
  · simp [portWrite, ho, answersNow_eq_false hm, h, after]

theorem exec_registerWrite_refused (ho : portOpen s.blk = true) (hready : s.blk.lxReady = true ∨ earlyPage a = true)
    (hm : maskFits a bmask = false) (v : Word64) (sec : Bool) :
    exec (.registerWrite a bmask v sec) s = .next (after s (answer s.blk ⟨false, 0, stRefused, none⟩)) := by
  rw [exec_registerWrite, settled_eq]
  simp [portWrite, ho, hready, hm, after]

theorem exec_registerWrite_closed (ho : portOpen s.blk = false) (v : Word64) :
    exec (.registerWrite a bmask v sec) s = .next (after s s.blk) := by
  rw [exec_registerWrite, settled_eq, portWrite_closed ho]

theorem exec_rcRegisterRead_admitted (ho : portOpen s.blk = true) (hz : size8 = true → a % 8 = 0)
    (h : admitted s.blk a false sec = (true, s.blk)) :
    exec (.rcRegisterRead a size8 sec) s = .next (after (registerRead a size8 s).2
      (answer (registerRead a size8 s).2.blk (registerRead a size8 s).1)) := by
  rw [exec_rcRegisterRead, settled_eq]
  cases size8
  · simp [portReadA, ho, h, after]
  · simp [portReadA, ho, hz rfl, h, after]

theorem exec_rcRegisterRead_denied {b' : Block} (ho : portOpen s.blk = true)
    (hz : (size8 = true → a % 8 = 0) ∨ SizeUnchecked s.blk a) (h : admitted s.blk a false sec = (false, b')) :
    exec (.rcRegisterRead a size8 sec) s = .next (after s (answer b' ⟨true, 0, stDone, none⟩)) := by
  rw [exec_rcRegisterRead, settled_eq]
  rcases hz with hz | hz
  · have hfit : (size8 && !decide (a % 8 = 0)) = false := by simpa using hz
    simp [portReadA, ho, Bool.and_assoc, hfit, h, after]
  · simp [portReadA, ho, answersNow_eq_false hz, h, after]

theorem exec_rcRegisterRead_refused (ho : portOpen s.blk = true) (hready : s.blk.lxReady = true ∨ earlyPage a = true)
    (hz : a % 8 ≠ 0) (sec : Bool) :
    exec (.rcRegisterRead a true sec) s = .next (after s (answer s.blk ⟨true, 0, stRefused, none⟩)) := by
  rw [exec_rcRegisterRead, settled_eq]
  simp [portReadA, ho, hready, hz, after]

theorem exec_rcRegisterRead_closed (ho : portOpen s.blk = false) :
    exec (.rcRegisterRead a size8 sec) s = .next (after s s.blk) := by
  rw [exec_rcRegisterRead, settled_eq]
  simp [portReadA, ho]

end Access

/-! What an admitted access reaches: the words of the access, and the part of the window (R27, R44, R462). -/

section Window

variable {a : Nat}

theorem registerRead_word (ha : a < 0x28000 ∨ 0x30000 ≤ a) (s : State) :
    registerRead a false s = (⟨true, laneOfWord a (readWord a s).1, stDone, none⟩, (readWord a s).2) := by
  have hwin : ¬ (0x28000 ≤ a ∧ a < 0x30000) := by omega
  simp [registerRead, hwin]

theorem registerRead_twoWords (ha : a < 0x28000 ∨ 0x30000 ≤ a) (hm : a ≠ 0x208) (s : State) :
    registerRead a true s = (⟨true, (readWord (a + 4) (readWord a s).2).1 ++ (readWord a s).1, stDone, none⟩,
      (readWord (a + 4) (readWord a s).2).2) := by
  have hwin : ¬ (0x28000 ≤ a ∧ a < 0x30000) := by omega
  simp [registerRead, hwin, hm]

theorem registerRead_milepost (s : State) :
    registerRead 0x208 true s = (⟨true, s.blk.milepost, stDone, none⟩, s) := by simp [registerRead]

/-- A word of SYS of no reading of its own reads as it is stored, and is cleared by its codes. -/
theorem readWord_sys (ha : a < 0x1000) (hv : a ∉ [0x0, 0x208, 0x20C, 0x818, 0x820]) (s : State) :
    readWord a s = (rget s.blk a, { s with blk := rcClear s.blk a }) := by
  simp only [List.mem_cons, List.not_mem_nil, or_false, not_or] at hv
  obtain ⟨h0, hlo, hhi, hblock, hlane⟩ := hv
  have hclaim : ¬ (0x50000 ≤ a ∧ a < 0x70000 ∧ a % 0x1000 = 0) := by omega
  have hrng : a ≠ 0x10508 := by omega
  have hpav : ¬ (0x200000 ≤ a ∧ a < 0x300000 ∧ (a % 0x10000 = 0xC104 ∨ a % 0x10000 = 0xC108)) := by omega
  have hview : viewWord s.nv s.blk a = (rget s.blk a, s.blk) := by
    simp [viewWord, sysView, show a < 0x10000 by omega, h0, hlo, hhi, hblock, hlane]
  have hpeak (b : Block) : repeak a b = b := by
    have hsoft : ¬ (0x80000 ≤ a ∧ a < 0xC0000 ∧ (a - 0x80000) % 0x8000 = 0x208) := by omega
    have hlanes : ¬ (0x100000 ≤ a ∧ a < 0x140000) := by omega
    simp only [repeak, if_neg hsoft, if_neg hlanes]
  simp only [readWord, if_neg hclaim, if_neg hrng, if_neg hlo, if_neg hpav, hview, hpeak]

/-- Every register but the CFLASH sequence, and SYS_STAGE and SYS_UREC in 8 B, is written word by word. -/
theorem registerWrite_words {bmask : BitVec 8} (ha : a < 0x20000 ∨ 0x20018 ≤ a)
    (hm : bmask ≠ 0xFF ∨ (a ≠ 0x300 ∧ a ≠ 0x430)) (v : Word64) (sec : Bool) (s : State) :
    let lo := v.extractLsb' 0 32
    let hi := v.extractLsb' 32 32
    let b1 := if bmask = 0xFF then writeWord (a + 4) hi sec (writeWord a lo sec s.blk)
      else writeWord a (if a % 8 = 0 then lo else hi) sec s.blk
    registerWrite a bmask v sec s = { s with blk := b1 } := by
  have hcf : ¬ (0x20000 ≤ a ∧ a < 0x20018) := by omega
  have hstage : ¬ (bmask = 0xFF ∧ a = 0x300) := by tauto
  have hurec : ¬ (bmask = 0xFF ∧ a = 0x430) := by tauto
  simp only [registerWrite, if_neg hcf, if_neg hstage, if_neg hurec]
  by_cases hb : bmask = 0xFF
  · simp only [maskWords, if_pos hb, each, List.foldl_cons, List.foldl_nil]
  · simp only [maskWords, if_neg hb, each, List.foldl_cons, List.foldl_nil, wordOf]

variable (v : Word) (sec : Bool) (b : Block)

theorem writeWord_sys (h : a < 0x1000) : writeWord a v sec b = sysWrite a v sec b := by
  simp only [writeWord, if_pos h]

theorem writeWord_gatehouse (h1 : 0x10000 ≤ a) (h2 : a < 0x20000) : writeWord a v sec b = ghWrite a v b := by
  simp (disch := omega) only [writeWord, if_neg, if_pos]

theorem writeWord_cflash (h1 : 0x20000 ≤ a) (h2 : a < 0x28000) : writeWord a v sec b = cfRegWrite a v sec b := by
  simp (disch := omega) only [writeWord, if_neg, if_pos]

theorem writeWord_tollgate (h1 : 0x30000 ≤ a) (h2 : a < 0x38000) :
    writeWord a v sec b = if sec then tollWrite b a v else b := by
  simp (disch := omega) only [writeWord, if_neg, if_pos]

theorem writeWord_power (h1 : 0x38000 ≤ a) (h2 : a < 0x40000) : writeWord a v sec b = pmWrite a v sec b := by
  simp (disch := omega) only [writeWord, if_neg, if_pos]

theorem writeWord_interrupts (h1 : 0x40000 ≤ a) (h2 : a < 0x50000) : writeWord a v sec b = secureWrite a v sec b := by
  simp (disch := omega) only [writeWord, if_neg, if_pos]

theorem writeWord_lane (h1 : 0x100000 ≤ a) (h2 : a < 0x140000) : writeWord a v sec b = laneWrite a v sec b := by
  simp (disch := omega) only [writeWord, if_neg, if_pos]

/-- No register lies between the parts of the window (R462). -/
theorem writeWord_unimplemented (h : (0x1000 ≤ a ∧ a < 0x10000) ∨ (0x70000 ≤ a ∧ a < 0x80000) ∨ (0xC0000 ≤ a ∧ a < 0x100000) ∨
    (0x140000 ≤ a ∧ a < 0x200000)) : writeWord a v sec b = b := by
  rcases h with ⟨h1, h2⟩ | ⟨h1, h2⟩ | ⟨h1, h2⟩ | ⟨h1, h2⟩ <;> simp (disch := omega) only [writeWord, if_neg, if_pos]

/-- The words of SYS that any world writes and that have no behaviour of their own. -/
theorem writeWord_sys_plain (h : a < 0x1000) (hv : a ∉ [0x110, 0x118, 0x200, 0x300, 0x304, 0x430, 0x434, 0x828])
    (hs : a < 0x400 ∨ (0x42C ≤ a ∧ a < 0x800) ∨ 0x840 ≤ a) : writeWord a v sec b = plainWrite b a 0xFFFFFFFF v := by
  simp only [List.mem_cons, List.not_mem_nil, or_false, not_or] at hv
  rw [writeWord_sys v sec b h]
  simp (disch := omega) only [sysWrite, if_neg]

/-- The temperature bands and the memory protection's words take secure writes only. -/
theorem writeWord_sys_secure (h : (0x400 ≤ a ∧ a < 0x42C) ∨ (0x800 ≤ a ∧ a < 0x840 ∧ a ≠ 0x828)) :
    writeWord a v sec b = secureWrite a v sec b := by
  rw [writeWord_sys v sec b (by omega)]
  simp (disch := omega) only [sysWrite, if_neg, if_pos]

theorem writeWord_gatehouse_plain (h1 : 0x10000 ≤ a) (h2 : a < 0x20000)
    (hv : a ∉ [0x10100, 0x10314, 0x10400, 0x10414, 0x10500, 0x10600]) (hk : a < 0x10420 ∨ 0x10440 ≤ a) :
    writeWord a v sec b = plainWrite b a 0xFFFFFFFF v := by
  simp only [List.mem_cons, List.not_mem_nil, or_false, not_or] at hv
  rw [writeWord_gatehouse v sec b h1 h2]
  simp (disch := omega) only [ghWrite, if_neg]

theorem writeWord_cflash_secure (h1 : 0x20018 ≤ a) (h2 : a < 0x28000) (hv : a ≠ 0x20050) :
    writeWord a v sec b = secureWrite a v sec b := by
  rw [writeWord_cflash v sec b (by omega) h2, cfRegWrite, if_neg hv]

theorem writeWord_power_secure (h1 : 0x38000 ≤ a) (h2 : a < 0x40000)
    (hv : a ∉ [0x38000, 0x38008, 0x38040, 0x38044, 0x38048]) : writeWord a v sec b = secureWrite a v sec b := by
  simp only [List.mem_cons, List.not_mem_nil, or_false, not_or] at hv
  rw [writeWord_power v sec b h1 h2]
  simp (disch := omega) only [pmWrite, if_neg]

theorem writeWord_lane_plain (h1 : 0x100000 ≤ a) (h2 : a < 0x140000) (hv : a % 0x1000 ∉ [0xA0, 0xA8, 0xE4, 0x300]) :
    writeWord a v sec b = plainWrite b a 0xFFFFFFFF v := by
  simp only [List.mem_cons, List.not_mem_nil, or_false, not_or] at hv
  rw [writeWord_lane v sec b h1 h2]
  simp (disch := omega) only [laneWrite, if_neg]

theorem writeWord_lane_secure (h1 : 0x100000 ≤ a) (h2 : a < 0x140000) (hv : a % 0x1000 ∈ [0xA0, 0x300]) :
    writeWord a v sec b = secureWrite a v sec b := by
  simp only [List.mem_cons, List.not_mem_nil, or_false] at hv
  rw [writeWord_lane v sec b h1 h2]
  simp (disch := omega) only [laneWrite, if_neg, if_pos]

/-- The words that take secure writes only and have no behaviour of their own, but those of the lanes. -/
theorem writeWord_secure (h : (0x400 ≤ a ∧ a < 0x42C) ∨ (0x800 ≤ a ∧ a < 0x840 ∧ a ≠ 0x828) ∨
    (0x20018 ≤ a ∧ a < 0x28000 ∧ a ≠ 0x20050) ∨
    (0x38000 ≤ a ∧ a < 0x40000 ∧ a ∉ [0x38000, 0x38008, 0x38040, 0x38044, 0x38048]) ∨ (0x40000 ≤ a ∧ a < 0x50000)) :
    writeWord a v sec b = secureWrite a v sec b := by
  rcases h with h | h | ⟨h1, h2, hv⟩ | ⟨h1, h2, hv⟩ | ⟨h1, h2⟩
  · exact writeWord_sys_secure v sec b (.inl h)
  · exact writeWord_sys_secure v sec b (.inr h)
  · exact writeWord_cflash_secure v sec b h1 h2 hv
  · exact writeWord_power_secure v sec b h1 h2 hv
  · exact writeWord_interrupts v sec b h1 h2

end Window

/-! The access codes (R14): what the write and the read of a word with no behaviour of its own do to its bits. -/

section AccessCodes

variable {a : Nat} {r : RegDesc}

theorem plainWrite_of_none (h : regDesc a = none) (b : Block) (m v : Word) : plainWrite b a m v = b := by
  simp only [plainWrite, h]

theorem rcClear_of_none (h : regDesc a = none) (b : Block) : rcClear b a = b := by simp only [rcClear, h]

theorem plainWrite_of_some (h : regDesc a = some r) (b : Block) (m v : Word) :
    plainWrite b a m v = rput b a (writeBits r m (rget b a) v) := by simp only [plainWrite, h]

theorem rcClear_of_some (h : regDesc a = some r) (b : Block) :
    rcClear b a = rput b a ((rget b a &&& ~~~r.rc) ||| (r.rst &&& r.rc)) := by simp only [rcClear, h]

/-- Bit by bit, a whole word written: an RW bit takes the value, a W1C bit goes with a 1, every other bit stays. -/
theorem writeBits_getLsbD (r : RegDesc) (old v : Word) {i : Nat} (hi : i < 32) :
    (writeBits r 0xFFFFFFFF old v).getLsbD i =
      ((if r.rw.getLsbD i then v.getLsbD i else old.getLsbD i) && !(r.w1c.getLsbD i && v.getLsbD i)) := by
  have hmask (w : Word) : w &&& 0xFFFFFFFF = w := BitVec.and_allOnes
  simp only [writeBits, hmask, BitVec.getLsbD_and, BitVec.getLsbD_or, BitVec.getLsbD_not, hi, decide_true, Bool.true_and]
  cases r.rw.getLsbD i <;> simp

/-- Bit by bit, a word that a read has cleared: an RC bit has its reset value (log entry 7, DEDUCED), every other bit stays. -/
theorem getLsbD_rcCleared (rc rst old : Word) {i : Nat} (hi : i < 32) :
    ((old &&& ~~~rc) ||| (rst &&& rc)).getLsbD i = if rc.getLsbD i then rst.getLsbD i else old.getLsbD i := by
  simp only [BitVec.getLsbD_and, BitVec.getLsbD_or, BitVec.getLsbD_not, hi, decide_true, Bool.true_and]
  cases rc.getLsbD i <;> simp

theorem rget_plainWrite_other {c : Nat} (h : c ≠ a) (b : Block) (m v : Word) : rget (plainWrite b a m v) c = rget b c := by
  cases hd : regDesc a with
  | none => rw [plainWrite_of_none hd]
  | some r => rw [plainWrite_of_some hd, rget_rput_other b a c _ h]

theorem rget_rcClear_other {c : Nat} (h : c ≠ a) (b : Block) : rget (rcClear b a) c = rget b c := by
  cases hd : regDesc a with
  | none => rw [rcClear_of_none hd]
  | some r => rw [rcClear_of_some hd, rget_rput_other b a c _ h]

end AccessCodes

/-- Settles O44: an access by what becomes of it, a written word by its part of the window, a plain word by its access codes. -/
theorem registerAccesses : Obligations.RegisterAccesses := by
  unfold Obligations.RegisterAccesses
  refine ⟨fun s a bmask v sec => ⟨?admitted, ?badMask, ?badSize, ?denied, ?missing, ?waiting, ?closed, ?worlds,
      fun ha hm => registerWrite_words ha hm v sec s⟩,
    fun b a v sec => ⟨writeWord_sys_plain v sec b, writeWord_secure v sec b, writeWord_lane_plain v sec b,
      writeWord_lane_secure v sec b, writeWord_gatehouse_plain v sec b, writeWord_tollgate v sec b,
      writeWord_unimplemented v sec b, fun h => ⟨plainWrite_of_none h b _ v, rcClear_of_none h b⟩, ?codes⟩,
    fun s a ha hv => readWord_sys ha hv s⟩
  case admitted =>
    intro h hw
    refine ⟨fun hm => exec_registerWrite_admitted h.1 hm (admitted_of_world h hw true) v, fun _ ha => ?_, fun hz ha hm => ?_, ?_⟩
    · rw [exec_rcRegisterRead_admitted h.1 (by simp) (admitted_of_world h hw false), registerRead_word ha]
    · rw [exec_rcRegisterRead_admitted h.1 (fun _ => hz) (admitted_of_world h hw false), registerRead_twoWords ha hm]
    · rintro rfl
      rw [exec_rcRegisterRead_admitted h.1 (by simp) (admitted_of_world h hw false), registerRead_milepost]
  case badMask => exact fun h hm => exec_registerWrite_refused h.1 h.2.1 hm v sec
  case badSize => exact fun h hz => exec_rcRegisterRead_refused h.1 h.2.1 hz sec
  case denied =>
    intro h hp
    have hgate := admitted_of_securePage h hp
    exact ⟨fun hm => exec_registerWrite_denied h.1 (.inl hm) (hgate true) v,
      exec_rcRegisterRead_denied h.1 (.inl (by simp)) (hgate false),
      fun hz => exec_rcRegisterRead_denied h.1 (.inl fun _ => hz) (hgate false)⟩
  case missing =>
    intro ho hready hp
    have hgate (write : Bool) := admitted_of_missingPage hready hp write sec
    exact ⟨fun hm => exec_registerWrite_denied ho (.inl hm) (hgate true) v,
      exec_rcRegisterRead_denied ho (.inl (by simp)) (hgate false),
      fun hz => exec_rcRegisterRead_denied ho (.inl fun _ => hz) (hgate false)⟩
  case waiting =>
    intro ho hl he
    have hgate (write : Bool) := admitted_of_waiting hl he write sec
    exact ⟨exec_registerWrite_denied ho (.inr ⟨hl, he⟩) (hgate true) v,
      fun _ => exec_rcRegisterRead_denied ho (.inr ⟨hl, he⟩) (hgate false)⟩
  case closed => exact fun ho => ⟨exec_registerWrite_closed ho v, fun _ => exec_rcRegisterRead_closed ho⟩
  case worlds =>
    intro hp p t q w count _
    refine ⟨?_, ?_, ?_, ?_, ?_⟩ <;> rintro rfl
    · exact congrArg State.settled (portWrite_world_irrel hp _ false _)
    · exact congrArg State.settled (portWrite_world_irrel hp _ false _)
    · exact congrArg State.settled (portRead_world_irrel hp _ false _)
    · exact congrArg State.settled (portRead_world_irrel hp _ false _)
    · exact congrArg State.settled (portWrite_world_irrel hp _ false _)
  case codes =>
    intro r hr
    refine ⟨fun i hi => ?_, fun i hi => ?_, fun c hc => ⟨rget_plainWrite_other hc b _ v, rget_rcClear_other hc b⟩⟩
    · rw [plainWrite_of_some hr, rget_rput_same, writeBits_getLsbD r _ v hi]
    · rw [rcClear_of_some hr, rget_rput_same, getLsbD_rcCleared r.rc r.rst _ hi]

end Sys2Proof.Laws

/-! The boundary of the block: its resets, its fabric ports and its pins, the registers of the board, and the events that a command
brings to a pavilion or to a die. Each function of the model has an equation for each of its cases, and the statements are put
together from those. -/

namespace Sys2Proof.Laws

open Sys2Proof Sys2Proof.Machine

/-! What an effect on the block, or a run of effects, comes to. -/

theorem act_of_eq {s : State} {f : Block → Block} {b : Block} (h : f s.blk = b) : s.act f = .next (after s b) := by
  rw [act_eq, h]

/-- What each of a run of effects keeps, the run keeps. -/
theorem each_keeps {α β : Type} (g : Block → β) (f : Block → α → Block) (h : ∀ b x, g (f b x) = g b) :
    ∀ (l : List α) (b : Block), g (each l f b) = g b
  | [], _ => rfl
  | x :: l, b => (each_keeps g f h l (f b x)).trans (h b x)

/-- A run of effects that each change nothing changes nothing. -/
theorem each_id {α : Type} {f : Block → α → Block} (h : ∀ b x, f b x = b) : ∀ (l : List α) (b : Block), each l f b = b
  | [], _ => rfl
  | x :: l, b => by rw [each, List.foldl_cons, h]; exact each_id h l b

/-! Reset pulses (R18). -/

theorem resetPulse_ignored {ns : Nat} (h : ns < 20) (s t : State) : resetPulse ns s t = .next s := if_pos h

theorem resetPulse_undefined {ns : Nat} (h : 20 ≤ ns) (h' : ns < 100) (s t : State) :
    resetPulse ns s t = .fault .resetPulseUndefined := by
  rw [resetPulse, if_neg (by omega), if_pos h']

theorem resetPulse_taken {ns : Nat} (h : 100 ≤ ns) (s t : State) : resetPulse ns s t = .next t := by
  rw [resetPulse, if_neg (by omega), if_neg (by omega)]

/-- A reset pulse answers a next state just where R18 defines its outcome. -/
theorem resetPulse_next_iff (ns : Nat) (s t : State) : (∃ u, resetPulse ns s t = .next u) ↔ ¬ (20 ≤ ns ∧ ns < 100) := by
  constructor
  · rintro ⟨u, hu⟩ ⟨h, h'⟩
    rw [resetPulse_undefined h h'] at hu
    cases hu
  · intro h
    by_cases hs : ns < 20
    · exact ⟨s, resetPulse_ignored hs s t⟩
    · exact ⟨t, resetPulse_taken (by omega) s t⟩

theorem exec_powerOnReset (ns : Nat) (s : State) : exec (.powerOnReset ns) s = resetPulse ns s (powerOn s) := rfl
theorem exec_blockReset (ns : Nat) (s : State) : exec (.blockReset ns) s = resetPulse ns s (resetBlock s) := rfl

/-- A command that is neither reset pulse is an effect on the block, an access of the slave port or a brown-out, and each of them
answers a next state. -/
theorem exec_next_of_no_pulse {c : Instr} (h : ∀ ns, c ≠ .powerOnReset ns ∧ c ≠ .blockReset ns) (s : State) :
    ∃ t, exec c s = .next t := by
  cases c
  case powerOnReset ns => exact absurd rfl (h ns).1
  case blockReset ns => exact absurd rfl (h ns).2
  all_goals exact ⟨_, rfl⟩

/-- Settles O3: a reset pulse by its length, and every other command by what answers it. -/
theorem onlyAnUndefinedPulseStops : Obligations.OnlyAnUndefinedPulseStops := by
  intro c s
  refine ⟨?_, fun ns h h' => ⟨resetPulse_undefined h h' s _, resetPulse_undefined h h' s _⟩⟩
  by_cases hc : ∃ ns, c = .powerOnReset ns ∨ c = .blockReset ns
  · obtain ⟨ns, rfl | rfl⟩ := hc
    · rw [exec_powerOnReset, resetPulse_next_iff]; simp
    · rw [exec_blockReset, resetPulse_next_iff]; simp
  · have hc' (ns : Nat) : c ≠ .powerOnReset ns ∧ c ≠ .blockReset ns := not_or.mp (not_exists.mp hc ns)
    exact iff_of_true (exec_next_of_no_pulse hc' s) (fun ⟨ns, _, _, h⟩ => hc ⟨ns, h⟩)

/-! Resets and the start of the block (R18, R19, R431, R449). -/

theorem brownOut_ignored {ns : Nat} {s : State} (h : ns < 100 ∨ powerState s.blk = 3) : brownOut ns s = s := if_pos h

theorem brownOut_taken {ns : Nat} {s : State} (h : 100 ≤ ns) (h3 : powerState s.blk ≠ 3) :
    brownOut ns s = { cfAbandon s with blk :=
      { rset1 (rset1 (coldBlock (holdAll (cfAbandon s).blk)) 0x38030 2) 0x38024 12 with brownHold := true } } :=
  if_neg (by omega)

section Start

variable {b : Block} (nv : NonVol) (errs : List ReadErr) (rowBad : Bool)

theorem resetDeassert_starts (hp : b.rstPin = true) (hh : b.brownHold = false) :
    resetDeassert nv errs rowBad b = startBlock nv errs rowBad { b with rstPin := false, porPin := false } := by
  simp [resetDeassert, hp, hh]

theorem resetDeassert_held (hp : b.rstPin = true) (hh : b.brownHold = true) :
    resetDeassert nv errs rowBad b = { b with rstPin := false, porPin := false } := by
  simp [resetDeassert, hp, hh]

theorem vddRestored_ends_brownOut (hh : b.brownHold = true) (hp : b.rstPin = false) :
    vddRestored nv errs rowBad b = startBlock nv errs rowBad { b with brownHold := false } := by
  simp [vddRestored, hh, hp]

theorem vddRestored_ends_ps3 (hh : b.brownHold = false) (h3 : powerState b = 3) (hw : rbit b 0x38008 0 = true)
    (hr : b.restoring = false) (hi : b.inReset = false) :
    vddRestored nv errs rowBad b =
      { startBlock nv errs rowBad (rclr1 (restoreImage b) 0x38008 0) with restoring := true } := by
  simp [vddRestored, hh, h3, hw, hr, hi]

theorem loadsDone_iff (b : Block) : loadsDone b = true ↔ ∀ n < b.build.lanes, (lane b n).loadPend = false := by
  simp [loadsDone, laneNums]

theorem emptyBuckets_restoring (b : Block) : (emptyBuckets b).restoring = b.restoring :=
  each_keeps Block.restoring (fun b j => updJunc b j (fun x => { x with bucket := 0 })) (fun _ _ => rfl) (juncNums b) b

theorem loopStart_restoring (b : Block) : (loopStart b).restoring = b.restoring := by
  rw [← emptyBuckets_restoring b]
  unfold loopStart
  dsimp only
  split <;> rfl

/-- lx_ready rises once every load has ended, in PS0 or at the exit from PS3 (R19, R449). -/
theorem lxReady_rises (hi : b.inReset = false) (hl : b.lxReady = false) (hf : faulted b = false)
    (hd : ∀ n < b.build.lanes, (lane b n).loadPend = false) (hp : powerState b = 0 ∨ b.restoring = true) :
    lxReady b =
      let c := loopStart (rset1 { b with lxReady := true } 0x4 0)
      if b.restoring then rset1 (rputF { c with restoring := false, ticking := true } 0x38004 1 0 0) 0x38010 2 else c := by
  have hstart : (loopStart (rset1 { b with lxReady := true } 0x4 0)).restoring = b.restoring := loopStart_restoring _
  have hload : loadsDone b = true := (loadsDone_iff b).mpr hd
  have hpower : (decide (powerState b = 0) || b.restoring) = true := by simpa using hp
  rw [lxReady, if_neg (by simp [hi, hl, hf, hload, hpower])]
  dsimp only
  rw [hstart]
  by_cases hr : b.restoring = true
  · rw [if_neg (by simp [hr]), if_pos hr]
  · rw [if_pos (by simp [hr]), if_neg hr]

end Start

/-- Settles O33: each reset by the length of its pulse, and the rise of lx_ready in PS0 and at the exit from PS3. -/
theorem resetsAndStart : Obligations.ResetsAndStart := by
  refine ⟨fun s ns => ⟨fun h => ⟨resetPulse_ignored h s _, resetPulse_ignored h s _⟩, fun h => resetPulse_taken h s _,
      fun h => resetPulse_taken h s _, fun h h3 => congrArg Host.Outcome.next (brownOut_taken h h3),
      fun h => congrArg Host.Outcome.next (brownOut_ignored h)⟩,
    fun s errs rowBad => ⟨fun hp hh => act_of_eq (resetDeassert_starts s.nv errs rowBad hp hh),
      fun hp hh => act_of_eq (resetDeassert_held s.nv errs rowBad hp hh),
      fun hh hp => act_of_eq (vddRestored_ends_brownOut s.nv errs rowBad hh hp),
      fun hh h3 hw hr hi => act_of_eq (vddRestored_ends_ps3 s.nv errs rowBad hh h3 hw hr hi),
      fun hi hl hf hp hr hd => act_of_eq ((lxReady_rises hi hl hf hd (.inl hp)).trans ?_),
      fun hi hl hf hr hd => act_of_eq ((lxReady_rises hi hl hf hd (.inr hr)).trans ?_)⟩⟩
  · exact if_neg (by simp [hr])
  · exact if_pos hr

/-- Settles O55: the fields of the one state, CFLASH by its canonical form. -/
theorem stateAfterReset : Obligations.StateAfterReset := by
  refine ⟨rfl, rfl, rfl, ?_, ?_, ?_, ?_, rfl, rfl, rfl, rfl, fun _ => rfl, fun _ => ⟨rfl, rfl⟩, rfl, reset_nv_wf, rfl, rfl⟩
  all_goals decide

/-! The ids of the fabric ports (R24, R26). -/

theorem idBusy_eq_false_iff (b : Block) (port : Nat) (write : Bool) (id : Nat) :
    idBusy b port write id = false ↔
      (∀ y ∈ b.bursts, y.port = port → y.write = write → y.id ≠ some id) ∧
      (∀ q ∈ b.quar, q.port = port → q.write = write → q.id ≠ id) := by
  simp [idBusy]

/-- An id given to a burst is not busy: the one drawn where it is free, else the first free one. -/
theorem pickId_not_busy {b : Block} {port n : Nat} {write : Bool} (h : (pickId b port write).1 = some n) :
    idBusy b port write n = false := by
  have hfree (i : Nat) : idBusy (freeOf 8 b).2 port write i = idBusy b port write i := rfl
  simp only [pickId, hfree] at h
  split at h
  case isTrue hv =>
    obtain rfl := Option.some.inj h
    simpa using hv
  case isFalse => simpa using List.find?_some h

/-- Settles O43: an id that is given is not busy, and a busy id is one outstanding or quarantined. -/
theorem idsAreNotReused : Obligations.IdsAreNotReused := by
  intro b port n write h
  exact (idBusy_eq_false_iff b port write n).mp (pickId_not_busy h)

/-! The fabric's responses (R20 to R26, R39). -/

section Responses

variable {b : Block} {port id i : Nat} {x : Burst}

/-- A burst with one more beat of its read return. -/
def Burst.withBeat (x : Burst) (data : Beat) (st : BitVec 3) : Burst :=
  { x with got := x.got + 1, data := x.data ++ [data], bad := x.bad || decide (st ≠ stDone) }

theorem readReturn_more (hi : b.inReset = false) (hf : findBurst b port false id = some (i, x)) (data : Beat) (st : BitVec 3)
    (hm : x.got + 1 < x.beats) :
    readReturn port id x.got data st b = { b with bursts := b.bursts.set i (Burst.withBeat x data st) } := by
  simp [readReturn, hi, hf, hm, Burst.withBeat]

theorem readReturn_last (hi : b.inReset = false) (hf : findBurst b port false id = some (i, x)) (data : Beat) (st : BitVec 3)
    (hm : x.beats ≤ x.got + 1) :
    readReturn port id x.got data st b =
      burstOver i (Burst.withBeat x data st) { b with bursts := b.bursts.set i (Burst.withBeat x data st) } := by
  have hm' : ¬ x.got + 1 < x.beats := by omega
  simp [readReturn, hi, hf, hm', Burst.withBeat]

theorem readReturn_late (hi : b.inReset = false) (hf : findBurst b port false id = none) (k : Nat) (data : Beat) (st : BitVec 3) :
    readReturn port id k data st b = portGoesOn port (lateResponse b port false id) := by
  simp [readReturn, hi, hf]

theorem writeAck_early (hi : b.inReset = false) (hf : findBurst b port true id = some (i, x)) (hp : x.put < x.beats)
    (st : BitVec 3) : writeAck port id st b = b := by
  simp [writeAck, hi, hf, hp]

theorem writeAck_ends (hi : b.inReset = false) (hf : findBurst b port true id = some (i, x)) (hp : x.beats ≤ x.put)
    (ht : x.timeout = false) (st : BitVec 3) :
    writeAck port id st b = burstOver i { x with bad := decide (st ≠ stDone) } b := by
  have hp' : ¬ x.put < x.beats := by omega
  simp [writeAck, hi, hf, hp', ht]

theorem writeAck_timedOut (hi : b.inReset = false) (hf : findBurst b port true id = some (i, x)) (hp : x.beats ≤ x.put)
    (ht : x.timeout = true) (st : BitVec 3) :
    writeAck port id st b = portGoesOn port (rinc { b with bursts := b.bursts.eraseIdx i } 0x108 23 16 1) := by
  have hp' : ¬ x.put < x.beats := by omega
  simp [writeAck, hi, hf, hp', ht, dropBurst]

theorem writeAck_late (hi : b.inReset = false) (hf : findBurst b port true id = none) (st : BitVec 3) :
    writeAck port id st b = portGoesOn port (lateResponse b port true id) := by
  simp [writeAck, hi, hf]

/-- A burst whose time is up, before the count of its port and direction is looked at (R26). -/
def timedOut (i : Nat) (x : Burst) (port : Nat) (write : Bool) (b : Block) : Block :=
  let b1 := rinc (quarantine i x b) 0x108 15 8 1
  burstOver i { x with bad := true, timeout := true, data := [] } (rmax b1 0x108 31 24 (min 255 (quarantined b1 port write)))

theorem responseTimeout_found {write : Bool} (hi : b.inReset = false) (hf : findBurst b port write id = some (i, x))
    (ht : x.timeout = false) :
    responseTimeout port write id b =
      if 128 ≤ quarantined (timedOut i x port write b) port write then blockFault 1 (timedOut i x port write b)
      else timedOut i x port write b := by
  have hgo : (b.inReset || x.timeout) = false := by simp [hi, ht]
  simp only [responseTimeout, hf, hgo]
  rfl

theorem addCredit_master (hi : b.inReset = false) (hj : port < b.build.juncs) {c : Nat} (hc : c = 0 ∨ c = 2)
    (h3 : powerState b ≠ 3) :
    addCredit (some port) c b = portGoesOn port
      { b with credits := tset 0 b.credits (creditKey (some port) c) (min 255 (credit b (creditKey (some port) c) + 1)) } := by
  simp [addCredit, hi, hj, hc, h3]

theorem addCredit_ps3 (h3 : powerState b = 3) (port c : Nat) : addCredit (some port) c b = b := by
  simp [addCredit, h3]

theorem addCredit_slave (hi : b.inReset = false) {c : Nat} (hc : c = 1 ∨ c = 3) :
    addCredit none c b = putAnswers b.answers.length
      { b with credits := tset 0 b.credits (creditKey none c) (min 255 (credit b (creditKey none c) + 1)) } := by
  simp [addCredit, hi, hc]

end Responses

section Quarantine

variable {b : Block} {port id i : Nat} {write : Bool} {x : Burst} {q : Quar}

theorem quarantine_whole (h : write = true → x.beats ≤ x.put) :
    quarantine i { x with write := write } b = { b with quar := b.quar ++
      [⟨x.port, write, x.id.getD 0, x.ini, if write then 1 else x.beats - (b.bursts.getD i x).got⟩] } := by
  have hput : (write && decide (x.put < x.beats)) = false := by
    cases write
    · rfl
    · simpa using h rfl
  have hgot : (b.bursts.getD i { x with write := write }).got = (b.bursts.getD i x).got := by
    simp only [List.getD_eq_getElem?_getD]
    cases b.bursts[i]? <;> rfl
  simp only [quarantine, hput, hgot]
  rfl

theorem quarantine_midway (hw : x.write = true) (hp : x.put < x.beats) :
    quarantine i x b = { b with bursts := b.bursts ++ [{ x with timeout := true, dropped := true }] } := by
  simp [quarantine, hw, hp]

theorem lateResponse_more (h : b.quar.find? (fun y => decide (y.port = port ∧ y.write = write ∧ y.id = id)) = some q)
    (hb : 1 < q.beats) :
    lateResponse b port write id = { b with quar := b.quar.map (fun y =>
      if y.port = port ∧ y.write = write ∧ y.id = id then { y with beats := y.beats - 1 } else y) } := by
  simp only [lateResponse, h, if_pos hb, decide_eq_true_eq]

theorem lateResponse_last (h : b.quar.find? (fun y => decide (y.port = port ∧ y.write = write ∧ y.id = id)) = some q)
    (hb : q.beats ≤ 1) :
    lateResponse b port write id =
      rinc { b with quar := b.quar.filter (fun y => !decide (y.port = port ∧ y.write = write ∧ y.id = id)) } 0x108 23 16 1 := by
  simp only [lateResponse, h, if_neg (Nat.not_lt.mpr hb)]

theorem lateResponse_unknown (h : b.quar.find? (fun y => decide (y.port = port ∧ y.write = write ∧ y.id = id)) = none) :
    lateResponse b port write id = b := by
  simp only [lateResponse, h]

end Quarantine

/-- Settles O42: a beat, an acknowledge, a timeout and a credit by their cases. -/
theorem fabricResponses : Obligations.FabricResponses := by
  refine ⟨fun s port id i x data st hi => ⟨?more, ?last, ?lateRead, ?early, ?ends, ?timedOut, ?lateWrite, ?timeout, ?master, ?ps3, ?slave⟩,
    fun b port id i write x q => ⟨quarantine_whole, ?midway, lateResponse_more,
      lateResponse_last, lateResponse_unknown⟩⟩
  case more => exact fun hf hm => act_of_eq (readReturn_more hi hf data st hm)
  case last => exact fun hf hm => act_of_eq (readReturn_last hi hf data st hm)
  case lateRead => exact fun k hf => act_of_eq (readReturn_late hi hf k data st)
  case early => exact fun hf hp => act_of_eq (writeAck_early hi hf hp st)
  case ends => exact fun hf hp ht => act_of_eq (writeAck_ends hi hf hp ht st)
  case timedOut => exact fun hf hp ht => act_of_eq (writeAck_timedOut hi hf hp ht st)
  case lateWrite => exact fun hf => act_of_eq (writeAck_late hi hf st)
  case timeout =>
    exact fun write hf ht =>
      ⟨fun hq => act_of_eq ((responseTimeout_found hi hf ht).trans (if_neg (Nat.not_le.mpr hq))),
        fun hq => act_of_eq ((responseTimeout_found hi hf ht).trans (if_pos hq))⟩
  case master => exact fun c hj hc h3 => act_of_eq (addCredit_master hi hj hc h3)
  case ps3 => exact fun c h3 => act_of_eq (addCredit_ps3 h3 port c)
  case slave => exact fun c hc => act_of_eq (addCredit_slave hi hc)
  case midway =>
    intro hw hp
    subst hw
    exact quarantine_midway (x := { x with write := true }) rfl hp

/-! Accesses of one 4 B register at the slave port (R27, R389). -/

section Port

variable {s : State} {a : Nat}

theorem regWrite4_of_eq (h : PortTakes s a) (ha : a % 4 = 0) {f g : Block → Block} (hfg : f s.blk = g s.blk) :
    (regWrite4 s a true f).settled = .next (afterWrite s g) := by
  rw [regWrite4_settled h ha]
  simp only [afterWrite, hfg]

/-- A non-secure write without an effect of its own leaves the answer DONE, and a violation where Gatehouse denies it. -/
theorem portWrite_ignored (h : PortTakes s a) {mask : BitVec 8} (hm : maskFits a mask = true) {f : State → State}
    (hf : ∀ s, f s = s) : (portWrite s a mask false f).settled = .next (afterIgnored s a) := by
  obtain ⟨hopen, hready, himpl, habsent⟩ := h
  have hadm : (admitted s.blk a true false).2 = (slaveGate s.blk a true false).2 := by
    simp [admitted, not_waiting_of_ready hready]
  rw [settled_eq]
  simp [portWrite, hopen, hm, hf, hadm, afterIgnored, after]

theorem regWrite4_ignored (h : PortTakes s a) (ha : a % 4 = 0) {f : Block → Block} (hf : ∀ b, f b = b) :
    (regWrite4 s a false f).settled = .next (afterIgnored s a) :=
  portWrite_ignored h (maskFits_word ha) (fun s => by rw [hf])

theorem portRead_settled (h : PortTakes s a) (f : State → Word64 × State) :
    (portRead s a false true f).settled =
      .next (after (f s).2 (answer (f s).2.blk ⟨true, (f s).1, stDone, none⟩)) := by
  rw [portRead, portReadA_of_takes h]; rfl

end Port

section Board

variable {b : Block} {v : Word}

theorem epochAdvance_advances (hv : epochValid b = true) (hl : (epochNow b).toNat < 0xFFFFFFFE) :
    epochAdvance b = refreshCheck (rput b 0x110 (epochNow b + 1)) := by
  simp [epochAdvance, hv, lastEpoch, hl]

theorem epochAdvance_stays (h : epochValid b = false ∨ 0xFFFFFFFE ≤ (epochNow b).toNat) : epochAdvance b = b := by
  rcases h with h | h
  · simp [epochAdvance, h]
  · simp [epochAdvance, lastEpoch, Nat.not_lt.mpr h]

theorem epochWrite_nonSecure (v : Word) (b : Block) : epochWrite v false b = b := rfl

/-- The one word above the last hour that SYS_EPOCH counts to (R468). -/
theorem lastEpoch_lt_iff : lastEpoch < v.toNat ↔ v = 0xFFFFFFFF := by
  have hmax : (0xFFFFFFFF : Word).toNat = 0xFFFFFFFF := rfl
  have hlt := v.isLt
  rw [BitVec.toNat_eq, hmax, lastEpoch]
  omega

theorem epochWrite_unknown (b : Block) : epochWrite 0xFFFFFFFF true b = b := by simp [epochWrite, lastEpoch]

theorem epochWrite_backwards (hv : epochValid b = true) (hu : v ≠ 0xFFFFFFFF) (hb : v.toNat < (epochNow b).toNat) :
    epochWrite v true b = rset1 b 0x120 4 := by
  simp [epochWrite, mt lastEpoch_lt_iff.mp hu, hv, hb]

theorem epochWrite_forwards (hv : epochValid b = true) (hu : v ≠ 0xFFFFFFFF) (hb : (epochNow b).toNat ≤ v.toNat) :
    epochWrite v true b = refreshCheck (rput b 0x110 v) := by
  simp [epochWrite, mt lastEpoch_lt_iff.mp hu, hv, Nat.not_lt.mpr hb]

theorem epochWrite_first (hv : epochValid b = false) (hu : v ≠ 0xFFFFFFFF) :
    epochWrite v true b = refreshCheck (rput (rset1 (rput b 0x110 v) 0x114 0) 0x450 v) := by
  simp [epochWrite, mt lastEpoch_lt_iff.mp hu, hv]

theorem boardTempWrite_inRange (hl : -40 ≤ sbyte (fld v 7 0)) (hh : sbyte (fld v 7 0) ≤ 125) :
    boardTempWrite v b = rclr1 { rputF (rputF b 0x118 31 16 (fld v 31 16)) 0x118 7 0 (fld v 7 0) with
      boardAt := some (now b) } 0x120 3 := if_pos ⟨hl, hh⟩

theorem boardTempWrite_outOfRange (h : sbyte (fld v 7 0) < -40 ∨ 125 < sbyte (fld v 7 0)) :
    boardTempWrite v b = rset1 (rputF b 0x118 31 16 (fld v 31 16)) 0x120 2 := if_neg (by omega)

theorem boardFresh_iff {t : Nat} (h : b.boardAt = some t) :
    boardFresh b = true ↔ now b < t + rfld b 0x118 31 16 * 1024 := by
  simp [boardFresh, h]

theorem boardTempStale_due {t : Nat} (h : b.boardAt = some t) (hd : t + rfld b 0x118 31 16 * 1024 ≤ now b)
    (h3 : powerState b ≠ 3) : boardTempStale b = rset1 { b with boardAt := none } 0x120 3 := by
  simp only [boardTempStale, h]
  exact if_pos ⟨hd, h3⟩

theorem boardTempStale_early {t : Nat} (h : b.boardAt = some t)
    (hd : now b < t + rfld b 0x118 31 16 * 1024 ∨ powerState b = 3) : boardTempStale b = b := by
  simp only [boardTempStale, h]
  exact if_neg (by omega)

theorem boardTempStale_none (h : b.boardAt = none) : boardTempStale b = b := by
  simp only [boardTempStale, h]

theorem tickCtrlWrite_nonSecure (v : Word) (b : Block) : tickCtrlWrite v false b = b := rfl

theorem tickCtrlWrite_badPeriod (h : fld v 5 0 < 2 ∨ 32 < fld v 5 0) : tickCtrlWrite v true b = rset1 b 0x200 9 :=
  if_pos h

theorem tickCtrlWrite_period (hl : 2 ≤ fld v 5 0) (hh : fld v 5 0 ≤ 32) :
    tickCtrlWrite v true b =
      let c := rputF b 0x200 23 16 (fld v 23 16)
      rset1 { (if v.getLsbD 9 then rclr1 c 0x200 9 else c) with newPeriod := some (BitVec.ofNat 6 (fld v 5 0)) } 0x200 8 := by
  have hp : ¬ (fld v 5 0 < 2 ∨ 32 < fld v 5 0) := by omega
  simp only [tickCtrlWrite, Bool.not_true, Bool.false_eq_true, if_false, if_neg hp]

end Board

/-- Settles O39: each event and write of the board's registers by its cases, at the port where it is a write or a read. -/
theorem boardRegisters : Obligations.BoardRegisters := by
  refine fun s v => ⟨fun hv hl => act_of_eq (epochAdvance_advances hv hl), fun h => act_of_eq (epochAdvance_stays h),
    ?unknown, ?backwards, ?forwards, ?first, ?inRange, ?outOfRange, ?reported, ?unreported, ?badPeriod, ?period,
    fun h => regWrite4_ignored h (by decide) (epochWrite_nonSecure v),
    fun h => regWrite4_ignored h (by decide) (tickCtrlWrite_nonSecure v), fun h => portRead_settled h _⟩
  case unknown => rintro h rfl; exact regWrite4_of_eq h (by decide) (epochWrite_unknown _)
  case backwards => exact fun h hv hu hb => regWrite4_of_eq h (by decide) (epochWrite_backwards hv hu hb)
  case forwards => exact fun h hv hu hb => regWrite4_of_eq h (by decide) (epochWrite_forwards hv hu hb)
  case first => exact fun h hv hu => regWrite4_of_eq h (by decide) (epochWrite_first hv hu)
  case inRange => exact fun h hl hh => regWrite4_of_eq h (by decide) (boardTempWrite_inRange hl hh)
  case outOfRange => exact fun h hr => regWrite4_of_eq h (by decide) (boardTempWrite_outOfRange hr)
  case reported =>
    exact fun t ht => ⟨boardFresh_iff ht, fun hd h3 => act_of_eq (boardTempStale_due ht hd h3),
      fun hd => act_of_eq (boardTempStale_early ht hd)⟩
  case unreported => exact fun hn => ⟨by simp only [boardFresh, hn], act_of_eq (boardTempStale_none hn)⟩
  case badPeriod => exact fun h hp => regWrite4_of_eq h (by decide) (tickCtrlWrite_badPeriod hp)
  case period => exact fun h hl hh => regWrite4_of_eq h (by decide) (tickCtrlWrite_period hl hh)

/-! The interrupt router's commands (R31, R32, R378 to R387). -/

section Interrupts

variable {b : Block} {t n : Nat}

theorem claim_none (h : pendingFor b b.srcs t = []) : claim b t = (b, 0) := by simp only [claim, h]

theorem claim_lowest {rest : List Nat} (h : pendingFor b b.srcs t = n :: rest) :
    claim b t =
      let c := { b with srcs := tset Src.init b.srcs n { src b n with st := .active, owner := t, since := 0 } }
      (if rest = [] then { c with wake := c.wake &&& ~~~(BitVec.ofNat 32 (2 ^ t)) } else c, n) := by
  simp only [claim, h, List.isEmpty_iff]

/-- A read of IC_CLAIM answers the source that the claim gives. -/
theorem exec_icClaim {s : State} (h : PortTakes s (tgtReg t 0)) :
    exec (.icClaim t true) s = .next (after s (answer (claim s.blk t).1
      ⟨true, laneOfWord (tgtReg t 0) (BitVec.ofNat 32 (claim s.blk t).2), stDone, none⟩)) :=
  portRead_settled h (claimRead t)

theorem laneOfWord_zero (a : Nat) : laneOfWord a (BitVec.ofNat 32 0) = 0 := by
  unfold laneOfWord
  split <;> rfl

theorem complete_owned (hs : (src b n).st = .active) (ho : (src b n).owner = t) :
    complete b t n = { b with srcs := tset Src.init b.srcs n (
      if !(srcLevel b n && srcEnabled b n) then { src b n with level := false, st := .idle, count := 0, since := 0 }
      else if srcMcount b n ≤ (src b n).since ∨ srcMcount b n = 1 ∨ targetIdle b (srcTarget b n) then
        { src b n with level := true, st := .pending, count := (src b n).since, since := 0 }
      else { src b n with
        level := true, st := .accum, count := (src b n).since, limit := srcMcount b n, due := now b + srcMtime b n, since := 0 }) } :=
  if_pos ⟨hs, ho⟩

theorem complete_bad (h : (src b n).st ≠ .active ∨ (src b n).owner ≠ t) : complete b t n = rset1 b (tgtReg t 8) 4 :=
  if_neg (by tauto)

theorem moderate_due (hs : (src b n).st = .accum) (hd : (src b n).due ≤ now b) :
    moderate b n = { b with srcs := tset Src.init b.srcs n { src b n with st := .pending } } := if_pos ⟨hs, hd⟩

theorem moderate_early (h : (src b n).st ≠ .accum ∨ now b < (src b n).due) : moderate b n = b :=
  if_neg (by rcases h with h | h; exacts [fun hc => h hc.1, fun hc => by omega])

theorem exec_moderationTimeout (n : Nat) (s : State) : exec (.moderationTimeout n) s =
    .next (after s (if s.blk.inReset then s.blk else moderate s.blk n)) := rfl

theorem tgtReg_aligned (t : Nat) {o : Nat} (ho : o % 4 = 0) : tgtReg t o % 4 = 0 := by
  unfold tgtReg; omega

theorem srcCfgWrite_nonSecure (a : Nat) (v : Word) (b : Block) : srcCfgWrite a v false b = b := rfl

end Interrupts

/-- Settles O47: a claim, a complete, a moderation timer and a write of IC_SRC_CFG by their cases. -/
theorem interruptCommands : Obligations.InterruptCommands := by
  intro s t k v w m idle sleep
  refine ⟨?noClaim, ?claims, ?completes, ?bad, ?due, ?early, ?config, rfl⟩
  case noClaim =>
    intro h hp
    rw [exec_icClaim h, claim_none hp]
    dsimp only
    rw [laneOfWord_zero]
  case claims =>
    intro h n rest hp
    rw [exec_icClaim h, claim_lowest hp]
  case completes =>
    intro h hs ho
    refine ⟨fun hl => ?_, fun hl ha => ?_, fun hl ha => ?_⟩ <;>
      refine regWrite4_of_eq h (tgtReg_aligned t (by decide)) ((complete_owned hs ho).trans ?_)
    · rw [if_pos (by rw [hl]; rfl)]
    · rw [if_neg (by rw [hl]; decide), if_pos ha]
    · rw [if_neg (by rw [hl]; decide), if_neg ha]
  case bad => exact fun h hx => regWrite4_of_eq h (tgtReg_aligned t (by decide)) (complete_bad hx)
  case due =>
    intro hi hs hd
    rw [exec_moderationTimeout, if_neg (by simp [hi]), moderate_due hs hd]
  case early =>
    intro hx
    rw [exec_moderationTimeout, moderate_early hx, ite_self]
  case config =>
    exact fun h hm => ⟨congrArg State.settled (portWrite_of_takes h hm _),
      portWrite_ignored h hm fun s => congrArg (fun b => ({ s with blk := b } : State))
        (each_id (fun b x => srcCfgWrite_nonSecure x.1 x.2.2 b) _ s.blk)⟩

/-! Fetches, chain timeouts and pooling (R63 to R68, R78, R172, R203). -/

section Pavilions

variable {b : Block} {p key n e : Nat}

/-- A pavilion's fetch of the next entry of queue `key` begins: the fetch is its own from now on, and both round robins have moved on (R68). -/
def beginFetch (p key : Nat) (b : Block) : Block :=
  let b := updPav b p (fun v => { v with
    fetch := some ⟨key, (sq b key).fetch, 0, [], 0, false⟩, last := if isAdmin key then v.last else key, adminTurn := !isAdmin key })
  let b := updSq b key (fun q => { q with full := none, short := 0 })
  { b with lastPav := p }

theorem pavilionFetch_begins (hr : running b = true) (hp : nextPav b = some p) (hq : nextQueue b p = some key) :
    pavilionFetch b = fetchLen (fetchPart p (beginFetch p key b)
      ((sq b key).fetch, 0, burstSlots (2 ^ (sq b key).k) (sq b key).fetch (sq b key).unfetched)) p := by
  simp only [pavilionFetch, hr, hp, hq]
  rfl

/-- A burst's slots lie within those posted, four beats, the ring and one 4 KiB page (R21, R63, R65). -/
theorem burstSlots_bounds {size slot left : Nat} (hs : slot < size) (hl : 0 < left) :
    let m := burstSlots size slot left
    1 ≤ m ∧ m ≤ left ∧ m ≤ 4 ∧ slot + m ≤ size ∧ (slot + m - 1) / 64 = slot / 64 := by
  simp only [burstSlots]
  omega

theorem chainTimeout_due {q : Option Nat} {ch : Chain} (hc : (sq b (sqKey p q)).chain = some ch)
    (ho : (sq b (sqKey p q)).owner = p) (hd : ch.due ≤ now b) (hi : b.inReset = false) :
    chainTimeout p q b = malformed b (sqKey p q) (sq b (sqKey p q)).fetch (headSeen b p (sqKey p q) % 256)
      (headSeen b p (sqKey p q) / 256) ch.cid 0xC (ch.cid + ch.slot * 65536) := by
  simp only [chainTimeout, hc]
  exact if_pos ⟨ho, hd, by simp [hi]⟩

theorem poolEntry_takes (hl : laneRuns b n = true) (he : nextArrival b n = some e) :
    poolEntry n b = afterFinish
      (updEntry (updLane b n (fun l => { l with arrive := l.arrive.filter (· != e), pool := l.pool ++ [e] })) e
        (fun x => { x with pooled := true })) e := by
  simp only [poolEntry, hl, he]
  rfl

end Pavilions

/-- Settles O13: the fetch that begins, its burst's slots, the timeout, the read at the port, and the pooled entry. -/
theorem pavilionEvents : Obligations.PavilionEvents := by
  refine ⟨fun s p key hr hp hq => ?_, fun size slot left => burstSlots_bounds,
    fun s p q ch hc ho hd hi => act_of_eq (chainTimeout_due hc ho hd hi), fun s p count h => portRead_settled h _,
    fun s n e hl he => act_of_eq (poolEntry_takes hl he)⟩
  exact act_of_eq (pavilionFetch_begins hr hp hq)

/-! What brings a die's operation on (R189, R212 to R220, R239 to R249). -/

section Dies

variable {b : Block} {n d : Nat}

theorem eventsWait_of_idle (h : (lane b n).seq = none) : eventsWait b n = false := by simp only [eventsWait, h]

/-- Between micro-routines there is nothing for a micro-trap to save (R323). -/
theorem takeTrap_of_idle (h : (lane b n).seq = none) : takeTrap n b = b := by simp [takeTrap, h]

theorem statusPoll_places (h : lanePlaces b n = true) : statusPoll n d b = placePoll n d b := if_pos h

theorem rbChange_rise {ce : Nat} (hi : b.inReset = false) (hs : laneStarted b n = true)
    (hd : (validDies b n).filter (fun d => decide (dieCe b n d = ce)) = [d]) :
    rbChange n ce true b =
      if lunsPerCe b (dieFamily b n d) ≤ 1 ∧ famOption b (dieFamily b n d) 4 = true then
        updLane b n (fun l => { l with events := l.events ++ [(d, true)] })
      else statusPoll n d b := by
  simp [rbChange, hi, hs, hd, each, rbEvents]

theorem rbChange_fall (n ce : Nat) (b : Block) : rbChange n ce false b = b := rfl

/-- The lane's arbiter has taken the ready event of die d, which wakes the lane (R212). -/
def eventTaken (n d : Nat) (b : Block) : Block :=
  wakeLane (updLane b n (fun l => { l with events := l.events.erase (d, true) })) n

theorem dieReady_taken (hr : laneRuns b n = true) (hs : (lane b n).seq = none)
    (he : (lane b n).events.contains (d, true) = true) :
    dieReady n d b = topUp n (dieEvent n d (eventTaken n d b)) := by
  have hidle : (lane (updLane b n (fun l => { l with events := l.events.erase (d, true) })) n).seq = none := by
    rw [lane_updLane_same]; exact hs
  simp only [dieReady, hr, eventsWait_of_idle hs, he, takeTrap_of_idle hidle]
  rfl

theorem dieEvent_ends {o : DieOp} (ho : (die b n d).op = some o) (hr : o.ready = false)
    (hs : (die b n d).suspending = false) : dieEvent n d b = opReady n d o b := by
  simp [dieEvent, ho, hr, hs]

theorem dieEvent_suspends {o : DieOp} (ho : (die b n d).op = some o) (hr : o.ready = false)
    (hs : (die b n d).suspending = true) :
    dieEvent n d b = resumeCheck n d (updDie b n d (fun y =>
      { y with op := none, susp := some o, suspending := false, suspAt := now b, consec := 0 })) := by
  simp [dieEvent, ho, hr, hs]

theorem dieTempPoll_reads (hl : lanePlaces b n = true) (hp : (lane b n).ps1 = false) (hd : dieInService b n d = true)
    (hoff : dieOffline b n d = false) (ho : (die b n d).op = none) (hs : (die b n d).suspending = false)
    (hr : (die b n d).raw = false) (ht : (die b n d).training = false) (hf : fam8 b (dieFamily b n d) 0x220 ≠ 0) (t : Int) :
    dieTempPoll n d t b =
      let a := featForm b n d (fam8 b (dieFamily b n d) 0x220)
      let b1 := noteSteps n [{ enteredAt b n d 9 a with result := (BitVec.ofInt 8 t).zeroExtend 64 }] (clearSteps n d b)
      evalBand n d (updDie b1 n d (fun x => { x with temp := if -40 ≤ t ∧ t ≤ 125 then some t else none, tempAt := now b })) := by
  simp only [dieTempPoll, hl, hp, hd, hoff, ho, hs, hr, ht, hf, ← Bool.decide_and, decide_eq_true_eq]
  rfl

theorem retrainExpiry_due {t : Nat} (hr : (die b n d).retrain = some t)
    (ht : t + rfld b (laneReg n 0x220) 15 8 ≤ now b) (hl : lanePlaces b n = true) :
    retrainExpiry n d b = updDie b n d (fun x => { x with training := true }) := by
  simp only [retrainExpiry, hr]
  exact if_neg (by simp [hl, ht])

/-- A training that can run holds its die, and confirms the TRAIN that it is for (R189, R194). -/
theorem beginTrain_runs (h : trainRuns b n d = true) :
    beginTrain n b d =
      let held := updDie b n d (fun x => { x with training := true })
      match trainInstr held n d with
      | some (e, i) => updInstr held e i (fun r => { r with confirmed := true })
      | none => held := by
  simp only [beginTrain, h]
  rfl

theorem dieTrain_runs (h : trainRuns b n d = true) (windows : List (Nat × Nat)) :
    dieTrain n d windows b =
      let begun := beginTrain n b d
      trainNext n d (windowsGood begun (dieFamily begun n d) windows) windows
        (takeTraining n d (trainZq begun n d) windows (clearSteps n d (updDie begun n d (fun y => { y with consec := 0 })))) := by
  simp only [dieTrain, h]
  rfl

/-- The die's operation has ended at its limit, and a LUN reset has ended what was suspended on the die (R241, R242). -/
def limitReset (n d : Nat) (b : Block) : Block :=
  needLunReset (endSuspended n d (updDie b n d (fun y => { y with op := none }))) n d

theorem timeLimit_training (hr : laneRuns b n = true) (h : trainRuns b n d = true) :
    timeLimit n d .training b = countExpiry n d .training (trainNext n d false []
      (needLunReset (trainFailed n d (updDie (beginTrain n b d) n d (fun y => { y with retrain := none, training := false }))) n d)) := by
  simp [timeLimit, hr, h]

theorem timeLimit_erase (hr : laneRuns b n = true) {o : DieOp} (ho : (die b n d).op = some o) (hready : o.ready = false)
    (hs : (die b n d).suspending = false) {e i : Nat} (hk : o.kind = .erase) (hp : o.purpose = .eraseIssue e i) :
    timeLimit n d .erase b = countExpiry n d .erase (eraseEnded (limitReset n d b) n e i stEraseFailed 1 0) := by
  simp [timeLimit, hr, ho, hready, hs, hk, hp, limitReset]

theorem timeLimit_pass (hr : laneRuns b n = true) {o : DieOp} (ho : (die b n d).op = some o) (hready : o.ready = false)
    (hs : (die b n d).suspending = false) {k : Nat} {p : Pass} (hk : o.kind = .pass k)
    (hp : passOf (limitReset n d b) n d o.purpose = some p) :
    timeLimit n d .pass b = countExpiry n d .pass (passExpired (limitReset n d b) n p) := by
  unfold limitReset at hp
  simp [timeLimit, hr, ho, hready, hs, hk, hp, limitReset, opPrograms]

theorem timeLimit_suspend (hr : laneRuns b n = true) (hs : (die b n d).suspending = true) :
    timeLimit n d .suspend b =
      countExpiry n d .suspend (updDie b n d (fun y => { y with suspending := false, noSusp := true })) := by
  simp [timeLimit, hr, hs]

end Dies

/-- Settles O31: each event of a die by its cases, and each limit by the operation it is of. -/
theorem dieEvents : Obligations.DieEvents := by
  refine ⟨fun s n d => ⟨fun h => act_of_eq (statusPoll_places h), fun hi hs ce hd => act_of_eq (rbChange_rise hi hs hd),
      fun ce => act_of_eq (rbChange_fall n ce s.blk), ?ready,
      fun hl hp hd hoff ho hs hr ht hf t => act_of_eq (dieTempPoll_reads hl hp hd hoff ho hs hr ht hf t),
      fun t hr ht hl => act_of_eq (retrainExpiry_due hr ht hl)⟩,
    fun s n d windows => ⟨fun h => ⟨?unnamed, ?named, act_of_eq (dieTrain_runs h windows),
        fun hr => act_of_eq (timeLimit_training hr h)⟩,
      fun hr o ho hready hs => ⟨fun e i hk hp => act_of_eq (timeLimit_erase hr ho hready hs hk hp),
        fun k p hk hp => act_of_eq (timeLimit_pass hr ho hready hs hk hp)⟩,
      fun hr hs => act_of_eq (timeLimit_suspend hr hs)⟩⟩
  case ready =>
    intro hr hs he o ho hready
    exact ⟨fun hn => act_of_eq ((dieReady_taken hr hs he).trans (congrArg _ (dieEvent_ends ho hready hn))),
      fun hy => act_of_eq ((dieReady_taken hr hs he).trans (congrArg _ (dieEvent_suspends ho hready hy)))⟩
  case unnamed =>
    intro hn
    rw [beginTrain_runs h]
    simp only [hn]
  case named =>
    intro e i hn
    rw [beginTrain_runs h]
    simp only [hn]

end Sys2Proof.Laws

/-! Tollgate (R34, R358 to R373): its registers' fields, what a control period leaves alone, and its computations, each by its cases. -/

namespace Sys2Proof.Laws

open Sys2Proof Sys2Proof.Machine

/-! A register's fields and single bits, after a write of the same register. -/

theorem fldMask_getLsbD {hi lo i : Nat} (hi' : hi < 32) : (fldMask hi lo).getLsbD i = decide (lo ≤ i ∧ i ≤ hi) := by
  rw [fldMask, BitVec.getLsbD_ofNat, Nat.testBit_mul_two_pow, Nat.testBit_two_pow_sub_one]
  simp only [← Bool.decide_and, decide_eq_decide]
  omega

/-- Bit by bit, a field replaced. -/
theorem setFld_getLsbD (w : Word) {hi lo : Nat} (v : Nat) {i : Nat} (hh : hi < 32) :
    (setFld w hi lo v).getLsbD i = if lo ≤ i ∧ i ≤ hi then v.testBit (i - lo) else w.getLsbD i := by
  rw [setFld, BitVec.getLsbD_or, BitVec.getLsbD_and, BitVec.getLsbD_and, BitVec.getLsbD_not, fldMask_getLsbD hh,
    BitVec.getLsbD_ofNat, Nat.testBit_mul_two_pow]
  by_cases hin : lo ≤ i ∧ i ≤ hi
  · have h32 : i < 32 := by omega
    simp [hin, h32]
  · by_cases h32 : i < 32
    · simp [hin, h32]
    · simp [hin, BitVec.getLsbD_of_ge w i (by omega)]

theorem fld_testBit (w : Word) (hi lo i : Nat) :
    (fld w hi lo).testBit i = (decide (i < hi + 1 - lo) && w.getLsbD (i + lo)) := by
  rw [fld, bitsOf, Nat.testBit_mod_two_pow, Nat.testBit_div_two_pow, BitVec.testBit_toNat]

theorem fld_setFld_same (w : Word) {hi lo v : Nat} (hh : hi < 32) (hv : v < 2 ^ (hi + 1 - lo)) :
    fld (setFld w hi lo v) hi lo = v := by
  refine Nat.eq_of_testBit_eq fun i => ?_
  rw [fld_testBit, setFld_getLsbD w v hh]
  by_cases hi' : i < hi + 1 - lo
  · rw [if_pos (by omega)]; simp [hi']
  · have hlt : v.testBit i = false :=
      Nat.testBit_lt_two_pow (hv.trans_le (Nat.pow_le_pow_right (by decide) (by omega)))
    simp [hi', hlt]

theorem fld_setFld_other (w : Word) {hi lo hi' lo' : Nat} (v : Nat) (hh : hi' < 32) (hd : hi < lo' ∨ hi' < lo) :
    fld (setFld w hi' lo' v) hi lo = fld w hi lo := by
  refine Nat.eq_of_testBit_eq fun i => ?_
  rw [fld_testBit, fld_testBit, setFld_getLsbD w v hh]
  by_cases hi' : i < hi + 1 - lo
  · rw [if_neg (by omega)]
  · simp [hi']

section Registers

variable (b : Block) (a : Nat)

theorem rfld_rputF_same {hi lo v : Nat} (hh : hi < 32) (hv : v < 2 ^ (hi + 1 - lo)) :
    rfld (rputF b a hi lo v) a hi lo = v := by
  rw [rfld, rputF_eq, rget_rput_same, fld_setFld_same _ hh hv]

theorem rfld_rputF_field {hi lo hi' lo' : Nat} (v : Nat) (hh : hi' < 32) (hd : hi < lo' ∨ hi' < lo) :
    rfld (rputF b a hi' lo' v) a hi lo = rfld b a hi lo := by
  rw [rfld, rputF_eq, rget_rput_same, fld_setFld_other _ v hh hd, rfld]

theorem rbit_rset1_same {i : Nat} (h : i < 32) : rbit (rset1 b a i) a i = true := by
  rw [rbit, rset1_eq, rget_rput_same, BitVec.getLsbD_or, BitVec.getLsbD_ofNat]
  simp [h]

theorem rbit_rclr1_same (i : Nat) : rbit (rclr1 b a i) a i = false := by
  rw [rbit, rclr1_eq, rget_rput_same, BitVec.getLsbD_and, BitVec.getLsbD_not, BitVec.getLsbD_ofNat]
  by_cases h : i < 32 <;> simp [h]

theorem getLsbD_ofNat_two_pow (i j : Nat) : (BitVec.ofNat 32 (2 ^ i)).getLsbD j = decide (j < 32 ∧ i = j) := by
  rw [BitVec.getLsbD_ofNat, Nat.testBit_two_pow, Bool.decide_and]

/-- Clearing a bit leaves a field beside it. -/
theorem rfld_rclr1_field {hi lo i : Nat} (hd : i < lo ∨ hi < i) : rfld (rclr1 b a i) a hi lo = rfld b a hi lo := by
  rw [rfld, rclr1_eq, rget_rput_same, rfld]
  refine Nat.eq_of_testBit_eq fun j => ?_
  rw [fld_testBit, fld_testBit, BitVec.getLsbD_and, BitVec.getLsbD_not, getLsbD_ofNat_two_pow]
  by_cases hj : j < hi + 1 - lo
  · have hne : i ≠ j + lo := by omega
    by_cases h32 : j + lo < 32
    · simp [hne, h32]
    · simp [BitVec.getLsbD_of_ge (rget b a) (j + lo) (by omega)]
  · simp [hj]

theorem rbit_rputB_same {i : Nat} (v : Bool) (h : i < 32) : rbit (rputB b a i v) a i = v := by
  cases v
  · exact rbit_rclr1_same b a i
  · exact rbit_rset1_same b a h

theorem rbit_rset1_other {i j : Nat} (h : i ≠ j) : rbit (rset1 b a i) a j = rbit b a j := by
  rw [rbit, rset1_eq, rget_rput_same, BitVec.getLsbD_or, getLsbD_ofNat_two_pow, rbit]
  simp [h]

theorem rbit_rclr1_other {i j : Nat} (h : i ≠ j) (hj : j < 32) : rbit (rclr1 b a i) a j = rbit b a j := by
  rw [rbit, rclr1_eq, rget_rput_same, BitVec.getLsbD_and, BitVec.getLsbD_not, getLsbD_ofNat_two_pow, rbit]
  simp [h, hj]

theorem rbit_rputB_other {i j : Nat} (v : Bool) (h : i ≠ j) (hj : j < 32) : rbit (rputB b a i v) a j = rbit b a j := by
  cases v
  · exact rbit_rclr1_other b a h hj
  · exact rbit_rset1_other b a h

end Registers

/-! The arithmetic of the loop (R364). -/

theorem sat32_eq (x : Int) : sat32 x = if x < -2147483648 then -2147483648 else if 2147483647 < x then 2147483647 else x := by
  unfold sat32
  split
  · omega
  · split <;> omega

theorem loopTerm_of_fits {k e : Int} (hl : -140737488355328 ≤ k * e) (hh : k * e < 140737488355328) (sh : Nat) :
    loopTerm k e sh = sat32 (k * e / 2 ^ sh) := by
  simp only [loopTerm, prod48, if_pos (And.intro hl hh), Nat.cast_pow, Nat.cast_ofNat]

/-- The square root from bit k down closes in on the root from below, within 2^k. -/
theorem isqrtFrom_bounds (n : Nat) : ∀ k r : Nat, r * r ≤ n → n < (r + 2 ^ k) * (r + 2 ^ k) →
    isqrtFrom k n r * isqrtFrom k n r ≤ n ∧ n < (isqrtFrom k n r + 1) * (isqrtFrom k n r + 1)
  | 0, r, hl, hh => ⟨hl, hh⟩
  | k + 1, r, hl, hh => by
    rw [isqrtFrom]
    split
    case isTrue hs =>
      refine isqrtFrom_bounds n k _ hs ?_
      rwa [Nat.add_assoc, ← Nat.two_mul, ← Nat.pow_succ']
    case isFalse hs => exact isqrtFrom_bounds n k r hl (Nat.lt_of_not_le hs)

theorem isqrt16_bounds {q : Int} (h0 : 0 ≤ q) (h48 : q < 2 ^ 48) :
    isqrt16 q * isqrt16 q ≤ q * 65536 ∧ q * 65536 < (isqrt16 q + 1) * (isqrt16 q + 1) := by
  lift q to Nat using h0
  obtain ⟨hl, hh⟩ := isqrtFrom_bounds (q * 65536) 32 0 (Nat.zero_le _) (by omega)
  simp only [isqrt16, Int.toNat_natCast]
  exact ⟨by exact_mod_cast hl, by exact_mod_cast hh⟩

/-! What the parts of a control period leave of the block. -/

/-- The block with another state of the loop. -/
def setToll (b : Block) (t : Toll) : Block := { b with toll := t }

/-- The block without what a period of the loop reaches: the registers, and of the loop all but its samples and whether a period is due. -/
def offLoop (b : Block) : Block :=
  { b with regs := [], toll := { Toll.reset with sample := b.toll.sample, ended := b.toll.ended, due := b.toll.due } }

section Frame

variable (b : Block)

theorem rput_offLoop (a : Nat) (w : Word) : offLoop (rput b a w) = offLoop b := rfl
theorem rputF_offLoop (a hi lo v : Nat) : offLoop (rputF b a hi lo v) = offLoop b := rfl
theorem rset1_offLoop (a i : Nat) : offLoop (rset1 b a i) = offLoop b := rfl
theorem rclr1_offLoop (a i : Nat) : offLoop (rclr1 b a i) = offLoop b := rfl
theorem rinc_offLoop (a hi lo k : Nat) : offLoop (rinc b a hi lo k) = offLoop b := rfl

theorem rputB_offLoop (a i : Nat) (v : Bool) : offLoop (rputB b a i v) = offLoop b := by cases v <;> rfl

theorem setToll_offLoop {t : Toll} (hs : t.sample = b.toll.sample) (he : t.ended = b.toll.ended) (hd : t.due = b.toll.due) :
    offLoop (setToll b t) = offLoop b := by
  simp only [offLoop, setToll, hs, he, hd]

/-- The registers of a loop that a fault of this cause opens, but for the event and its count (R371). -/
def faultRegs (cause : Nat) : Block :=
  let c := rputF (rputF b 0x30004 1 0 3) 0x30004 7 5 cause
  rput (rclr1 c 0x30000 0) 0x30030 (rget c 0x3002C)

theorem faultRegs_offLoop (cause : Nat) : offLoop (faultRegs b cause) = offLoop b := by
  rw [faultRegs, rput_offLoop, rclr1_offLoop, rputF_offLoop, rputF_offLoop]

theorem openLoop_eq (cause : Nat) : openLoop b cause =
    rinc (rset1 (setToll (faultRegs b cause)
      { b.toll with uNext := some (max 0 (sword (rget (faultRegs b cause) 0x3002C))) }) 0x30008 cause) 0x30090 23 16 1 := rfl

theorem openLoop_offLoop (cause : Nat) : offLoop (openLoop b cause) = offLoop b := by
  rw [openLoop_eq, rinc_offLoop, rset1_offLoop]
  exact (setToll_offLoop _ rfl rfl rfl).trans (faultRegs_offLoop b cause)

theorem openManual_offLoop : offLoop (openManual b) = offLoop b :=
  (setToll_offLoop (rputF b 0x30004 1 0 0) rfl rfl rfl).trans (rputF_offLoop b _ _ _ _)

/-- The loop's state behind the bumpless change to automatic mode (R367). -/
def closedToll : Toll :=
  { b.toll with
    integ := clampI (sword (rget b 0x30030)) (sword (rget b 0x30020)) (sword (rget b 0x30024))
    x := b.toll.meas * 65536, measPrev := b.toll.meas, v := 0, a := 0
    tacc := ((rfld b 0x30040 15 0 : Nat) : Int) * 65536, thc := ((rfld b 0x30040 15 0 : Nat) : Int), div := 0 }

theorem closeLoop_eq : closeLoop b = rputF (rputF (setToll b (closedToll b)) 0x30004 1 0 1) 0x30004 23 16 0 := rfl

theorem closeLoop_offLoop : offLoop (closeLoop b) = offLoop b := by
  rw [closeLoop_eq, rputF_offLoop, rputF_offLoop]
  exact setToll_offLoop b rfl rfl rfl

theorem profileStep_offLoop : offLoop (profileStep b) = offLoop b := by
  unfold profileStep
  dsimp only
  split
  · rfl
  · split <;> rfl

theorem computeOutput_offLoop : offLoop (computeOutput b) = offLoop b := by
  unfold computeOutput
  dsimp only
  rw [rput_offLoop, rputB_offLoop, rputB_offLoop]
  rfl

theorem finishPeriod_offLoop : offLoop (finishPeriod b) = offLoop b := by
  rw [finishPeriod, computeOutput_offLoop, profileStep_offLoop]
  rfl

theorem afterChecks_offLoop : offLoop (afterChecks b) = offLoop b := by
  unfold afterChecks
  dsimp only
  split
  · rfl
  · exact finishPeriod_offLoop _

end Frame

/-! The following-error check and the period in its two modes (R367 to R373). -/

section Loop

variable {b : Block}

theorem rfld_congr {b c : Block} {a : Nat} (h : rget b a = rget c a) (hi lo : Nat) : rfld b a hi lo = rfld c a hi lo := by
  rw [rfld, rfld, h]

theorem rbit_congr {b c : Block} {a : Nat} (h : rget b a = rget c a) (i : Nat) : rbit b a i = rbit c a i := by
  rw [rbit, rbit, h]

/-- The error count that the following-error check leaves (R370). -/
def followCount (b : Block) : Nat :=
  if ((rfld b 0x30044 15 0 : Nat) : Int) < b.toll.meas - b.toll.x / 65536 then min 255 (rfld b 0x30004 23 16 + 1) else 0

/-- The following error opens the loop: its count has come to the limit (R370). -/
def Opens (b : Block) : Prop := 0 < followCount b ∧ max 1 (rfld b 0x30044 23 16) ≤ followCount b

theorem followLimit_kept (b : Block) (n : Nat) : rfld (rputF b 0x30004 23 16 n) 0x30044 23 16 = rfld b 0x30044 23 16 :=
  rfld_congr (rget_rput_other _ _ _ _ (by decide)) 23 16

theorem followCheck_opens (h : Opens b) :
    followCheck b = (true, openLoop (rputF b 0x30004 23 16 (followCount b)) 2) := by
  obtain ⟨hpos, hmax⟩ := h
  have hfe : ((rfld b 0x30044 15 0 : Nat) : Int) < b.toll.meas - b.toll.x / 65536 := by
    by_contra hfe
    simp [followCount, hfe] at hpos
  have hn : followCount b = min 255 (rfld b 0x30004 23 16 + 1) := if_pos hfe
  simp only [followCheck, if_pos hfe, ← hn, followLimit_kept, if_pos hmax]

theorem followCheck_passes (h : ¬ Opens b) :
    followCheck b = (false, rputF b 0x30004 23 16 (followCount b)) := by
  by_cases hfe : ((rfld b 0x30044 15 0 : Nat) : Int) < b.toll.meas - b.toll.x / 65536
  · have hn : followCount b = min 255 (rfld b 0x30004 23 16 + 1) := if_pos hfe
    have hmax : ¬ max 1 (rfld b 0x30044 23 16) ≤ followCount b := fun hm => h (And.intro (by omega) hm)
    simp only [followCheck, if_pos hfe, ← hn, followLimit_kept, if_neg hmax]
  · have hn : followCount b = 0 := if_neg hfe
    simp only [followCheck, if_neg hfe, hn]

theorem followCheck_offLoop (b : Block) : offLoop (followCheck b).2 = offLoop b := by
  by_cases h : Opens b
  · rw [followCheck_opens h, openLoop_offLoop, rputF_offLoop]
  · rw [followCheck_passes h, rputF_offLoop]

/-- The block that a period in automatic mode checks (R369, R373): a measured one is in AUTO, a held one in AUTO_EST on the estimate. -/
def autoBlock (b : Block) (miss : Nat) : Block :=
  if miss = 0 then rputF b 0x30004 1 0 1 else
    let b1 := if tollLoop b = 2 then b else rset1 (rputF b 0x30004 1 0 2) 0x30008 0
    { b1 with toll := { b1.toll with meas := currentEstimate b1 } }

theorem autoPeriod_fault {miss : Nat} (h : 16 ≤ miss) : autoPeriod b miss = openLoop b 1 := if_pos h

theorem autoPeriod_held {miss : Nat} (h1 : 1 ≤ miss) (h3 : miss ≤ 3) (ha : rbit b 0x30000 0 = true) : autoPeriod b miss = b := by
  rw [autoPeriod, if_neg (by omega), if_pos ⟨h1, h3⟩, if_pos ha]

theorem autoPeriod_checks {miss : Nat} (h : miss = 0 ∨ (4 ≤ miss ∧ miss < 16)) :
    autoPeriod b miss =
      if (followCheck (autoBlock b miss)).1 then (followCheck (autoBlock b miss)).2
      else if !rbit (followCheck (autoBlock b miss)).2 0x30000 0 then openManual (followCheck (autoBlock b miss)).2
      else afterChecks (followCheck (autoBlock b miss)).2 := by
  rw [autoPeriod, if_neg (by omega), if_neg (by omega)]
  rcases h with rfl | ⟨h4, -⟩
  · rfl
  · have h0 : ¬ miss = 0 := by omega
    simp only [autoBlock, if_neg h0, if_pos h4]

theorem autoBlock_offLoop (b : Block) (miss : Nat) : offLoop (autoBlock b miss) = offLoop b := by
  unfold autoBlock
  split
  · rfl
  · dsimp only
    split <;> rfl

theorem autoPeriod_offLoop (b : Block) (miss : Nat) : offLoop (autoPeriod b miss) = offLoop b := by
  by_cases h16 : 16 ≤ miss
  · rw [autoPeriod_fault h16, openLoop_offLoop]
  by_cases h13 : 1 ≤ miss ∧ miss ≤ 3
  · rw [autoPeriod, if_neg h16, if_pos h13]
    split
    · rfl
    · exact openManual_offLoop b
  · have hf : offLoop (followCheck (autoBlock b miss)).2 = offLoop b :=
      (followCheck_offLoop _).trans (autoBlock_offLoop b miss)
    rw [autoPeriod_checks (by omega)]
    split
    · exact hf
    · split
      · exact (openManual_offLoop _).trans hf
      · exact (afterChecks_offLoop _).trans hf

theorem manualPeriod_offLoop (b : Block) (miss : Nat) : offLoop (manualPeriod b miss) = offLoop b := by
  unfold manualPeriod
  split
  · exact setToll_offLoop b rfl rfl rfl
  · split
    · exact closeLoop_offLoop b
    · split
      · dsimp only
        rw [afterChecks_offLoop, rset1_offLoop, rputF_offLoop, closeLoop_offLoop]
        exact setToll_offLoop b rfl rfl rfl
      · rw [afterChecks_offLoop, closeLoop_offLoop]

end Loop

/-! What a computation of the output, and a fault, leave in the registers (R361, R365, R371). -/

section Output

/-- What a computation of the output stores: the loop's state, the two marks of the integral's limits, and TG_MAN_OUT (R361, R365). -/
def storeOutput (b : Block) (t : Toll) (top bottom : Bool) (w : Word) : Block :=
  rput (rputB (rputB (setToll b t) 0x30004 3 top) 0x30004 4 bottom) 0x30030 w

variable (b : Block) (t : Toll) (top bottom : Bool) (w : Word)

theorem rputB_toll (a i : Nat) (v : Bool) : (rputB b a i v).toll = b.toll := by cases v <;> rfl

theorem storeOutput_toll : (storeOutput b t top bottom w).toll = t := by
  rw [storeOutput, rput_toll, rputB_toll, rputB_toll, setToll]

theorem storeOutput_manOut : rget (storeOutput b t top bottom w) 0x30030 = w := rget_rput_same _ _ _

theorem storeOutput_status : rget (storeOutput b t top bottom w) 0x30004 =
    rget (rputB (rputB (setToll b t) 0x30004 3 top) 0x30004 4 bottom) 0x30004 := rget_rput_other _ _ _ _ (by decide)

theorem storeOutput_top : rbit (storeOutput b t top bottom w) 0x30004 3 = top := by
  rw [rbit_congr (storeOutput_status b t top bottom w), rbit_rputB_other _ _ _ (by decide) (by decide),
    rbit_rputB_same _ _ _ (by decide)]

theorem storeOutput_bottom : rbit (storeOutput b t top bottom w) 0x30004 4 = bottom := by
  rw [rbit_congr (storeOutput_status b t top bottom w), rbit_rputB_same _ _ _ (by decide)]

end Output

section Fault

variable (b : Block) (cause : Nat)

/-- Only the event and its count differ from the registers of the fault. -/
theorem openLoop_rget {a : Nat} (h : a ≠ 0x30008 ∧ a ≠ 0x30090) : rget (openLoop b cause) a = rget (faultRegs b cause) a := by
  rw [openLoop_eq]
  exact (rget_rput_other _ _ _ _ h.2).trans (rget_rput_other _ _ _ _ h.1)

/-- TG_STATUS and the registers that a fault leaves alone. -/
theorem faultRegs_rget {a : Nat} (h : a ≠ 0x30000 ∧ a ≠ 0x30030) :
    rget (faultRegs b cause) a = rget (rputF (rputF b 0x30004 1 0 3) 0x30004 7 5 cause) a := by
  rw [faultRegs]
  exact (rget_rput_other _ _ _ _ h.2).trans (rget_rput_other _ _ _ _ h.1)

theorem rget_fault_other {a : Nat} (h : a ≠ 0x30004) :
    rget (rputF (rputF b 0x30004 1 0 3) 0x30004 7 5 cause) a = rget b a :=
  (rget_rput_other _ _ _ _ h).trans (rget_rput_other _ _ _ _ h)

theorem faultRegs_safe : rget (faultRegs b cause) 0x3002C = rget b 0x3002C := by
  rw [faultRegs_rget b cause (by decide), rget_fault_other b cause (by decide)]

theorem openLoop_status : rget (openLoop b cause) 0x30004 = rget (rputF (rputF b 0x30004 1 0 3) 0x30004 7 5 cause) 0x30004 := by
  rw [openLoop_rget b cause (by decide), faultRegs_rget b cause (by decide)]

theorem openLoop_loop : tollLoop (openLoop b cause) = 3 := by
  rw [tollLoop, rfld_congr (openLoop_status b cause), rfld_rputF_field _ _ _ (by decide) (by decide),
    rfld_rputF_same _ _ (by decide) (by decide)]

theorem openLoop_cause (h : cause < 8) : rfld (openLoop b cause) 0x30004 7 5 = cause := by
  rw [rfld_congr (openLoop_status b cause), rfld_rputF_same _ _ (by decide) h]

theorem openLoop_manual : rbit (openLoop b cause) 0x30000 0 = false := by
  rw [rbit_congr (openLoop_rget b cause (by decide)), faultRegs,
    rbit_congr (rget_rput_other _ _ _ _ (by decide)), rbit_rclr1_same]

theorem openLoop_manOut : rget (openLoop b cause) 0x30030 = rget b 0x3002C := by
  rw [openLoop_rget b cause (by decide), faultRegs, rget_rput_same, rget_fault_other b cause (by decide)]

theorem openLoop_toll : (openLoop b cause).toll = { b.toll with uNext := some (max 0 (sword (rget b 0x3002C))) } := by
  rw [openLoop_eq, faultRegs_safe]
  rfl

theorem openLoop_event (h : cause < 32) : rbit (openLoop b cause) 0x30008 cause = true := by
  rw [openLoop_eq]
  exact (rbit_congr (rget_rput_other _ _ _ _ (by decide)) cause).trans (rbit_rset1_same _ _ h)

end Fault

/-! The loop's own commands (R34, R360, R362, R369, R373). -/

section Events

variable {b : Block}

theorem telemetrySample_taken (hi : b.inReset = false) (hl : b.lxReady = true) (hp : powerState b = 0) (v : BitVec 16) :
    telemetrySample v b =
      let b1 := if 1 ≤ b.toll.samples then rset1 b 0x120 0 else b
      let b2 := if v = 0xFFFF then rset1 b1 0x120 1 else b1
      { b2 with toll := { b.toll with sample := some v, samples := b.toll.samples + 1 } } :=
  if_neg (by simp [hi, hl, hp])

theorem telemetrySample_ignored (h : b.inReset = true ∨ b.lxReady = false ∨ powerState b ≠ 0) (v : BitVec 16) :
    telemetrySample v b = b := if_pos (by simpa [or_assoc] using h)

theorem tollgatePeriod_idle (h : b.toll.due = false ∨ running b = false) : tollgatePeriod b = b := if_pos (by simpa using h)

theorem thermalLoop_runs (ht : b.toll.thermal = true) (hr : running b = true) :
    thermalLoop b = finishPeriod (thermalStep b) := if_pos (by simp [ht, hr])

theorem thermalLoop_idle (h : b.toll.thermal = false ∨ running b = false) : thermalLoop b = b :=
  if_neg (by simpa [or_iff_not_imp_left] using h)

/-- The sample of the period that has ended is a measurement (R360, R369). -/
def measured (b : Block) : Bool := b.toll.ended.isSome && decide (b.toll.ended ≠ some 0xFFFF)

theorem measured_eq (b : Block) : (match b.toll.ended with
    | some v => decide (v ≠ 0xFFFF)
    | none => false) = measured b := by
  unfold measured
  cases b.toll.ended <;> simp

/-- A due period that is no longer due, its safe output taken, and its limit by the sensors' loss cleared where they are back (R372). -/
def lowCleared (b : Block) : Block :=
  let c := setToll b { b.toll with due := false, safe := sword (rget b 0x3002C) }
  if sensorLow c then c else rclr1 c 0x30004 2

/-- The registers of a due period whose overrun count is `miss`: an overrun is counted (R360). -/
def counted (b : Block) (ok : Bool) (miss : Nat) : Block :=
  let c := rputF (lowCleared b) 0x30004 12 8 miss
  if ok then c else rinc c 0x30090 15 0 1

/-- A due period with its sample taken (R360, R373 step 1). -/
def sampled (b : Block) (ok : Bool) (miss : Nat) : Block :=
  setToll (counted b ok miss) { (counted b ok miss).toll with
    meas := if ok then ((b.toll.ended.getD 0).toNat : Int) else b.toll.meas, ended := none }

/-- A due period behind its sample: the steps of its mode, and a new charge (R373). -/
def periodEnded (b : Block) (ok : Bool) (miss : Nat) : Block :=
  let c := if loopClosed (sampled b ok miss) then autoPeriod (sampled b ok miss) miss else manualPeriod (sampled b ok miss) miss
  setToll c { c.toll with charged := 0 :: c.toll.charged.take 255 }

/-- The consecutive overruns behind the period that has ended, at most 31 (R369). -/
def overruns (b : Block) (ok : Bool) : Nat := if ok then 0 else min 31 (rfld b 0x30004 12 8 + 1)

theorem overruns_lowCleared (b : Block) (ok : Bool) : overruns (lowCleared b) ok = overruns b ok := by
  have h : rfld (lowCleared b) 0x30004 12 8 = rfld b 0x30004 12 8 := by
    rw [lowCleared]
    dsimp only
    split
    · rfl
    · exact rfld_rclr1_field _ _ (by decide)
  rw [overruns, overruns, h]

theorem tollgatePeriod_due (hd : b.toll.due = true) (hr : running b = true) :
    tollgatePeriod b = periodEnded b (measured b) (overruns b (measured b)) := by
  rw [← overruns_lowCleared, ← measured_eq]
  exact if_neg (by simp [hd, hr])

theorem offLoop_setToll (b : Block) (t : Toll) : offLoop (setToll b t) =
    { offLoop b with toll := { Toll.reset with sample := t.sample, ended := t.ended, due := t.due } } := rfl

end Events

theorem offLoop_ite {p : Prop} [Decidable p] {x y z : Block} (hx : offLoop x = z) (hy : offLoop y = z) :
    offLoop (if p then x else y) = z := by
  split
  · exact hx
  · exact hy

theorem offLoop_sample (b : Block) : (offLoop b).toll.sample = b.toll.sample := rfl
theorem offLoop_ended (b : Block) : (offLoop b).toll.ended = b.toll.ended := rfl
theorem offLoop_due (b : Block) : (offLoop b).toll.due = b.toll.due := rfl
theorem offLoop_milepost (b : Block) : (offLoop b).milepost = b.milepost := rfl
theorem offLoop_lanes (b : Block) : (offLoop b).lanes = b.lanes := rfl
theorem offLoop_sqs (b : Block) : (offLoop b).sqs = b.sqs := rfl
theorem offLoop_keys (b : Block) : (offLoop b).keys = b.keys := rfl

section Period

variable (b : Block) (ok : Bool) (miss : Nat)

theorem lowCleared_offLoop : offLoop (lowCleared b) = { offLoop b with
    toll := { Toll.reset with sample := b.toll.sample, ended := b.toll.ended, due := false } } :=
  offLoop_ite (offLoop_setToll _ _) ((rclr1_offLoop _ _ _).trans (offLoop_setToll _ _))

theorem counted_offLoop : offLoop (counted b ok miss) = offLoop (lowCleared b) :=
  offLoop_ite (rputF_offLoop _ _ _ _ _) ((rinc_offLoop _ _ _ _ _).trans (rputF_offLoop _ _ _ _ _))

theorem counted_sample : (counted b ok miss).toll.sample = b.toll.sample := by
  rw [← offLoop_sample, counted_offLoop, lowCleared_offLoop]

theorem counted_due : (counted b ok miss).toll.due = false := by
  rw [← offLoop_due, counted_offLoop, lowCleared_offLoop]

/-- A period reaches none of the block but the registers and the loop; its sample is used up, and none is due. -/
theorem periodEnded_offLoop : offLoop (periodEnded b ok miss) = { offLoop b with
    toll := { Toll.reset with sample := b.toll.sample, ended := none, due := false } } := by
  have hcounted := (counted_offLoop b ok miss).trans (lowCleared_offLoop b)
  have hsample := counted_sample b ok miss
  have hdue := counted_due b ok miss
  have hsampled : offLoop (sampled b ok miss) = { offLoop b with
      toll := { Toll.reset with sample := b.toll.sample, ended := none, due := false } } := by
    rw [sampled, offLoop_setToll, hcounted]
    simp only [hsample, hdue]
  rw [periodEnded]
  exact (setToll_offLoop _ rfl rfl rfl).trans (offLoop_ite ((autoPeriod_offLoop _ _).trans hsampled)
    ((manualPeriod_offLoop _ _).trans hsampled))

theorem periodEnded_due : (periodEnded b ok miss).toll.due = false := by
  rw [← offLoop_due, periodEnded_offLoop]

theorem periodEnded_ended : (periodEnded b ok miss).toll.ended = none := by
  rw [← offLoop_ended, periodEnded_offLoop]

theorem periodEnded_sample : (periodEnded b ok miss).toll.sample = b.toll.sample := by
  rw [← offLoop_sample, periodEnded_offLoop]

theorem periodEnded_milepost : (periodEnded b ok miss).milepost = b.milepost := by
  rw [← offLoop_milepost, periodEnded_offLoop]
  rfl

theorem periodEnded_lanes : (periodEnded b ok miss).lanes = b.lanes := by
  rw [← offLoop_lanes, periodEnded_offLoop]
  rfl

theorem periodEnded_sqs : (periodEnded b ok miss).sqs = b.sqs := by
  rw [← offLoop_sqs, periodEnded_offLoop]
  rfl

theorem periodEnded_keys : (periodEnded b ok miss).keys = b.keys := by
  rw [← offLoop_keys, periodEnded_offLoop]
  rfl

end Period

/-! The computations of the loop (R361 to R371). -/

section Steps

variable {b : Block}

theorem computeOutput_eq (b : Block) :
    let t := b.toll
    let e := sat32 (t.x / 65536 - t.meas)
    let integ := if sensorLow b then t.integ else
      clampI (sat32 (t.integ + loopTerm (rfld b 0x30010 31 16 : Nat) e (rfld b 0x30018 12 8)))
        (sword (rget b 0x30020)) (sword (rget b 0x30024))
    let u1 := clampI (sat32 (loopTerm (rfld b 0x30010 15 0 : Nat) e (rfld b 0x30018 4 0) + integ +
      loopTerm (rfld b 0x30014 15 0 : Nat) (t.measPrev - t.meas) (rfld b 0x30018 20 16))) 0 (sword (rget b 0x30028))
    let u := if sensorLow b then max 0 (min u1 t.safe) else u1
    computeOutput b = storeOutput b { t with integ := integ, measPrev := t.meas, uNext := some u }
      (decide (integ = sword (rget b 0x30024))) (decide (integ = sword (rget b 0x30020))) (BitVec.ofInt 32 u) := rfl

theorem closeLoop_toll (b : Block) : (closeLoop b).toll = closedToll b := rfl

theorem closeLoop_loop (b : Block) : tollLoop (closeLoop b) = 1 := by
  rw [closeLoop_eq, tollLoop, rfld_rputF_field _ _ _ (by decide) (by decide), rfld_rputF_same _ _ (by decide) (by decide)]

theorem closeLoop_count (b : Block) : rfld (closeLoop b) 0x30004 23 16 = 0 := by
  rw [closeLoop_eq, rfld_rputF_same _ _ (by decide) (by decide)]

theorem thermalStep_none (h : thermalInput b = none) : (thermalStep b).toll = b.toll := by
  simp only [thermalStep, h]
  rfl

/-- The loop's state behind the outer loop at temperature h (R363). -/
def thermalToll (b : Block) (h : Int) : Toll :=
  let iceil : Int := (rfld b 0x30040 15 0 : Nat)
  let eT := sbyte (rfld b 0x30060 7 0) - h
  let tacc := clampI (sat32 (b.toll.tacc + loopTerm (rfld b 0x30064 31 16 : Nat) eT (rfld b 0x30068 12 8))) 0 (iceil * 65536)
  { b.toll with
    tacc := tacc, thc := clampI (sat32 (tacc / 65536 + loopTerm (rfld b 0x30064 15 0 : Nat) eT (rfld b 0x30068 4 0))) 0 iceil }

/-- What the outer loop marks (R363): its event where it comes off the ceiling, and the temperature it took. -/
def thermalMarks (b : Block) (h : Int) : Block :=
  let iceil : Int := (rfld b 0x30040 15 0 : Nat)
  rputF (if b.toll.thc = iceil ∧ (thermalToll b h).thc < iceil then rset1 b 0x30008 3 else b) 0x3008C 23 16 (BitVec.ofInt 8 h).toNat

theorem thermalMarks_toll (b : Block) (h : Int) : (thermalMarks b h).toll = b.toll := by
  unfold thermalMarks
  dsimp only
  split <;> rfl

theorem thermalStep_some {h : Int} (hi : thermalInput b = some h) : thermalStep b =
    setToll (thermalMarks b h) { (thermalMarks b h).toll with tacc := (thermalToll b h).tacc, thc := (thermalToll b h).thc } := by
  simp only [thermalStep, hi]
  rfl

theorem thermalStep_toll {h : Int} (hi : thermalInput b = some h) : (thermalStep b).toll = thermalToll b h := by
  rw [thermalStep_some hi, thermalMarks_toll]
  rfl

theorem thermalStep_event {h : Int} (hi : thermalInput b = some h) (h1 : b.toll.thc = (rfld b 0x30040 15 0 : Nat))
    (h2 : (thermalToll b h).thc < (rfld b 0x30040 15 0 : Nat)) : rbit (thermalStep b) 0x30008 3 = true := by
  have hm : thermalMarks b h = rputF (rset1 b 0x30008 3) 0x3008C 23 16 (BitVec.ofInt 8 h).toNat := by
    simp only [thermalMarks, if_pos (And.intro h1 h2)]
  rw [thermalStep_some hi, hm]
  exact (rbit_congr (rget_rput_other _ _ _ _ (by decide)) 3).trans (rbit_rset1_same _ _ (by decide))

theorem currentEstimate_eq (b : Block) : currentEstimate b = (rfld b 0x30048 15 0 : Nat) +
    ((64 * (b.toll.charged.take (max 1 (rfld b 0x30048 23 16))).sum /
      (10 * 65536 * max 1 (rfld b 0x30048 23 16) * tollPeriod b * max 1 (rfld b 0x200 5 0)) : Nat) : Int) := by
  simp only [currentEstimate, List.sum_eq_foldl, Nat.cast_add]

theorem afterChecks_thermal (h : max 1 (rfld b 0x30060 15 8) ≤ b.toll.div + 1) :
    afterChecks b = { b with toll := { b.toll with div := 0, thermal := true } } := if_pos h

theorem afterChecks_finish (h : b.toll.div + 1 < max 1 (rfld b 0x30060 15 8)) :
    afterChecks b = computeOutput (profileStep { b with toll := { b.toll with div := b.toll.div + 1, thermal := false } }) :=
  if_neg (Nat.not_le.mpr h)

section Auto

variable {miss : Nat} (hm : miss = 0 ∨ (4 ≤ miss ∧ miss < 16))
include hm

theorem autoPeriod_opens (h : Opens (autoBlock b miss)) :
    autoPeriod b miss = openLoop (rputF (autoBlock b miss) 0x30004 23 16 (followCount (autoBlock b miss))) 2 := by
  rw [autoPeriod_checks hm, followCheck_opens h]
  rfl

theorem autoPeriod_manual (h : ¬ Opens (autoBlock b miss))
    (ha : rbit (rputF (autoBlock b miss) 0x30004 23 16 (followCount (autoBlock b miss))) 0x30000 0 = false) :
    autoPeriod b miss = openManual (rputF (autoBlock b miss) 0x30004 23 16 (followCount (autoBlock b miss))) := by
  rw [autoPeriod_checks hm, followCheck_passes h, if_neg Bool.false_ne_true, if_pos (by simp [ha])]

theorem autoPeriod_goesOn (h : ¬ Opens (autoBlock b miss))
    (ha : rbit (rputF (autoBlock b miss) 0x30004 23 16 (followCount (autoBlock b miss))) 0x30000 0 = true) :
    autoPeriod b miss = afterChecks (rputF (autoBlock b miss) 0x30004 23 16 (followCount (autoBlock b miss))) := by
  rw [autoPeriod_checks hm, followCheck_passes h, if_neg Bool.false_ne_true, if_neg (by simp [ha])]

end Auto

end Steps

/-! The tick boundary (R34, R358, R372). -/

section Boundary

theorem junc_updJunc_other (b : Block) {i j : Nat} (f : Junction → Junction) (h : j ≠ i) : junc (updJunc b i f) j = junc b j :=
  tget_tupd_other _ _ _ _ _ h

theorem junc_updJunc_same (b : Block) (i : Nat) (f : Junction → Junction) : junc (updJunc b i f) i = f (junc b i) :=
  tget_tupd_same _ _ _ _

/-- One junction's bucket takes its share, up to the capacity (R358). -/
def refillOne (share : Nat) (b : Block) (j : Nat) : Block :=
  updJunc b j (fun x => { x with bucket := min (x.bucket + share) (b.toll.bcap * 65536) })

theorem refill_eq (b : Block) : refill b = each (juncNums b) (refillOne (b.toll.u / b.build.juncs).toNat) b := rfl

/-- A bucket of a junction not in the list is not refilled. -/
theorem refillOnes_skip (share j : Nat) : ∀ (l : List Nat) (b : Block), j ∉ l → junc (each l (refillOne share) b) j = junc b j
  | [], _, _ => rfl
  | x :: l, b, h => by
    obtain ⟨hx, hl⟩ := not_or.mp (List.mem_cons.not.mp h)
    exact (refillOnes_skip share j l _ hl).trans (junc_updJunc_other b _ hx)

theorem refillOne_toll (share : Nat) (b : Block) (j : Nat) : (refillOne share b j).toll = b.toll := rfl

theorem each_cons {α : Type} (x : α) (l : List α) (f : Block → α → Block) (b : Block) : each (x :: l) f b = each l f (f b x) := rfl

theorem refillOnes_bucket (share j : Nat) (l : List Nat) (b : Block) (hn : l.Nodup) (hj : j ∈ l) :
    (junc (each l (refillOne share) b) j).bucket = min ((junc b j).bucket + share) (b.toll.bcap * 65536) := by
  induction l generalizing b with
  | nil => exact absurd hj List.not_mem_nil
  | cons x l ih =>
    obtain ⟨hx, hl⟩ := List.nodup_cons.mp hn
    rw [each_cons]
    by_cases hjx : j = x
    · subst hjx
      rw [refillOnes_skip share j l _ hx, refillOne, junc_updJunc_same]
    · rw [ih _ hl ((List.mem_cons.mp hj).resolve_left hjx), refillOne_toll, refillOne, junc_updJunc_other b _ hjx]

theorem refill_bucket (b : Block) {j : Nat} (hj : j < b.build.juncs) : (junc (refill b) j).bucket =
    min ((junc b j).bucket + (b.toll.u / b.build.juncs).toNat) (b.toll.bcap * 65536) := by
  rw [refill_eq]
  exact refillOnes_bucket _ j _ b List.nodup_range (List.mem_range.mpr hj)

theorem refill_toll (b : Block) : (refill b).toll = b.toll :=
  each_keeps Block.toll (refillOne (b.toll.u / b.build.juncs).toNat) (fun _ _ => rfl) (juncNums b) b

/-- The loop's state behind a tick boundary (R34, R358, R360, R372). -/
def tickToll (b : Block) : Toll :=
  let u1 := b.toll.uNext.getD b.toll.u
  let due := decide (b.milepost.toNat % tollPeriod b = 0)
  let t := if due then { b.toll with ended := b.toll.sample, sample := none, samples := 0 } else b.toll
  { t with
    u := if tripped b then 0 else if sensorLow b then max 0 (min u1 b.toll.safe) else u1, uNext := none
    bcap := rfld b 0x30070 23 0, bfloor := rfld b 0x30074 23 0, due := due && running b, thermal := false }

theorem tickToll_due (b : Block) : (tickToll b).due = true ↔ b.milepost.toNat % tollPeriod b = 0 ∧ running b = true := by
  simp only [tickToll, Bool.and_eq_true, decide_eq_true_eq]

theorem tickToll_ends {b : Block} (h : b.milepost.toNat % tollPeriod b = 0) :
    (tickToll b).ended = b.toll.sample ∧ (tickToll b).sample = none := by
  simp [tickToll, h]

theorem tickToll_runs {b : Block} (h : ¬ b.milepost.toNat % tollPeriod b = 0) :
    (tickToll b).ended = b.toll.ended ∧ (tickToll b).sample = b.toll.sample := by
  simp [tickToll, h]

/-- The block of a tick boundary before its buckets are refilled (R372). -/
def beforeRefill (b : Block) : Block :=
  if sensorLow (setToll b (tickToll b)) then rset1 (setToll b (tickToll b)) 0x30004 2 else setToll b (tickToll b)

theorem tollTick_eq (b : Block) : tollTick b = refill (beforeRefill b) := rfl

theorem beforeRefill_toll (b : Block) : (beforeRefill b).toll = tickToll b := by
  unfold beforeRefill
  split <;> rfl

theorem beforeRefill_build (b : Block) : (beforeRefill b).build = b.build := by
  unfold beforeRefill
  split <;> rfl

theorem beforeRefill_junc (b : Block) (j : Nat) : junc (beforeRefill b) j = junc b j := by
  unfold beforeRefill
  split <;> rfl

theorem tollTick_toll (b : Block) : (tollTick b).toll = tickToll b := by
  rw [tollTick_eq, refill_toll, beforeRefill_toll]

theorem tollTick_bucket (b : Block) {j : Nat} (hj : j < b.build.juncs) : (junc (tollTick b) j).bucket =
    min ((junc b j).bucket + ((tickToll b).u / b.build.juncs).toNat) ((tickToll b).bcap * 65536) := by
  rw [tollTick_eq, refill_bucket _ (by rwa [beforeRefill_build]), beforeRefill_junc, beforeRefill_toll, beforeRefill_build]

end Boundary

/-- Settles O40: the loop's commands by their cases, and each computation by its own equation. -/
theorem tollgateEvents : Obligations.TollgateEvents := by
  refine ⟨fun s v => ⟨fun hi hl hp => act_of_eq (telemetrySample_taken hi hl hp v),
      fun h => act_of_eq (telemetrySample_ignored h v), fun hd hr => ?period,
      fun h => act_of_eq (tollgatePeriod_idle h), fun ht hr => act_of_eq (thermalLoop_runs ht hr),
      fun h => act_of_eq (thermalLoop_idle h)⟩,
    sat32_eq, fun k e sh hl hh => loopTerm_of_fits hl hh sh, fun q h0 h48 => isqrt16_bounds h0 h48,
    fun b => ⟨?output, ?profile, ?input, thermalStep_none, ?thermal, ?close, currentEstimate_eq b, ?fault, ?auto,
      ⟨afterChecks_thermal, afterChecks_finish⟩, ?boundary⟩⟩
  case period =>
    exact ⟨act_of_eq (tollgatePeriod_due hd hr), periodEnded_due .., periodEnded_ended .., periodEnded_sample ..,
      periodEnded_milepost .., periodEnded_lanes .., periodEnded_sqs .., periodEnded_keys ..⟩
  case output =>
    intro e integ p dterm u1 u
    have h : computeOutput b = storeOutput b { b.toll with integ := integ, measPrev := b.toll.meas, uNext := some u }
      (decide (integ = sword (rget b 0x30024))) (decide (integ = sword (rget b 0x30020))) (BitVec.ofInt 32 u) := computeOutput_eq b
    rw [h]
    exact ⟨storeOutput_toll _ _ _ _ _, storeOutput_manOut _ _ _ _ _, storeOutput_top _ _ _ _ _, storeOutput_bottom _ _ _ _ _⟩
  case profile => exact ⟨fun h => (ite_or ..).symm.trans (if_pos h), fun h1 h2 => (if_neg h1).trans (if_neg (Int.not_le.mpr h2))⟩
  case input =>
    unfold thermalInput
    rfl
  case thermal => exact fun h hi => ⟨thermalStep_toll hi, fun h1 h2 => thermalStep_event hi h1 h2⟩
  case close => exact ⟨closeLoop_toll b, closeLoop_loop b, closeLoop_count b⟩
  case fault =>
    intro cause hc
    have hlt : cause < 8 := by
      simp only [List.mem_cons, List.not_mem_nil, or_false] at hc
      omega
    exact ⟨openLoop_loop b cause, openLoop_cause b cause hlt, openLoop_manual b cause, openLoop_manOut b cause,
      openLoop_toll b cause, openLoop_event b cause (by omega)⟩
  case auto =>
    exact fun miss => ⟨autoPeriod_fault, autoPeriod_held, fun hm =>
      ⟨autoPeriod_opens hm, autoPeriod_manual hm, autoPeriod_goesOn hm⟩⟩
  case boundary =>
    intro c u1 u ends
    have hc : c.toll = tickToll b := tollTick_toll b
    rw [hc]
    exact ⟨rfl, tickToll_due b, tickToll_ends, tickToll_runs, fun j hj => tollTick_bucket b hj⟩

end Sys2Proof.Laws

/-! The tick (R41 to R43, R35, R211), and an ABORT that finds a discarded command (R118, R441). -/

namespace Sys2Proof.Laws

open Sys2Proof Sys2Proof.Machine

/-! What a tick does, and what it leaves alone (R41, R42, R52). -/

section Tick

variable {b : Block} {t0 t1 t2 t3 : Int}

theorem tick_stopped (h : b.inReset = true ∨ b.ticking = false) : tick t0 t1 t2 t3 b = b :=
  if_pos (by simpa using h)

/-- The block at a tick once the milepost, the period, the sensors and Tollgate have had their turn (R41, R43, R35, R358). -/
def boundaryBlock (t0 t1 t2 t3 : Int) (b : Block) : Block :=
  let b1 := readSensors t0 t1 t2 t3 (takePeriod { b with milepost := b.milepost + 1 })
  if b1.lxReady && !faulted b1 then tollTick b1 else b1

/-- The block once every lane has met its boundary and worked out the bands of its dies (R52, R211, R290). -/
def lanesTicked (b : Block) : Block :=
  let b3 := each (tickLanes b) (fun b n => laneTick n b) (tickReads b)
  each (laneNums b3) (fun b n => laneBands n b) b3

theorem tick_runs (hr : b.inReset = false) (ht : b.ticking = true) :
    tick t0 t1 t2 t3 b = lanesTicked (boundaryBlock t0 t1 t2 t3 b) := if_neg (by simp [hr, ht])

end Tick

/-! A written period and the sensors (R43, R35). -/

theorem takePeriod_none {b : Block} (h : b.newPeriod = none) : takePeriod b = b := by simp only [takePeriod, h]

theorem takePeriod_some {b : Block} {p : BitVec 6} (h : b.newPeriod = some p) :
    takePeriod b = rclr1 (rputF { b with newPeriod := none } 0x200 5 0 p.toNat) 0x200 8 := by simp only [takePeriod, h]

theorem takePeriod_field {b : Block} {p : BitVec 6} (h : b.newPeriod = some p) : rfld (takePeriod b) 0x200 5 0 = p.toNat := by
  rw [takePeriod_some h, rfld_rclr1_field _ _ (by decide), rfld_rputF_same _ _ (by decide) p.isLt]

theorem takePeriod_pending {b : Block} {p : BitVec 6} (h : b.newPeriod = some p) : rbit (takePeriod b) 0x200 8 = false := by
  rw [takePeriod_some h, rbit_rclr1_same]

/-- The peak is noted in TG_THERM alone. -/
theorem rget_notePeak {a : Nat} (h : a ≠ 0x300C0) (b : Block) : rget (notePeak b) a = rget b a := by
  unfold notePeak
  split
  · split
    · exact rget_rput_other _ _ _ _ h
    · rfl
  · rfl

theorem rget_rputB_other {a c : Nat} (h : c ≠ a) (b : Block) (i : Nat) (v : Bool) : rget (rputB b a i v) c = rget b c := by
  cases v
  · exact rget_rput_other _ _ _ _ h
  · exact rget_rput_other _ _ _ _ h

theorem rget_noteCooling {a : Nat} (h : a ≠ 0x300C0) (b : Block) : rget (noteCooling b) a = rget b a :=
  rget_rputB_other h b 1 _

theorem sensorReading_isSome (t : Int) : (sensorReading t).isSome = decide (-40 ≤ t ∧ t ≤ 150) := by
  unfold sensorReading
  split <;> simp [*]

/-- As many readings are valid as temperatures lie in the sensors' range. -/
theorem validReadings_length (l : List Int) : ((l.map sensorReading).filter (fun x => x.isSome)).length =
    (l.filter (fun t => decide (-40 ≤ t ∧ t ≤ 150))).length := by
  rw [List.filter_map, List.length_map]
  exact congrArg (fun p => (l.filter p).length) (funext sensorReading_isSome)

/-- SENSOR_LOW says whether fewer than two sensors are in range (R35). -/
theorem readSensors_sensorLow (t0 t1 t2 t3 : Int) (b : Block) : rbit (readSensors t0 t1 t2 t3 b) 0x120 5 =
    decide (([t0, t1, t2, t3].filter (fun t => decide (-40 ≤ t ∧ t ≤ 150))).length < 2) := by
  unfold readSensors
  dsimp only
  rw [rbit_congr ((rget_noteCooling (by decide) _).trans (rget_notePeak (by decide) _)), rbit_rputB_same _ _ _ (by decide),
    validReadings_length]

/-- The lanes that a tick serves are those of the build's junctions (R211). -/
theorem mem_tickLanes (b : Block) (n : Nat) : n ∈ tickLanes b ↔ n < 8 * b.build.juncs := by
  simp only [tickLanes, juncNums, List.mem_flatMap, List.mem_map, List.mem_range]
  constructor
  · rintro ⟨j, hj, k, -, rfl⟩
    omega
  · intro h
    -- The turn of lane n within its junction is the k below 8 with now + k ≡ n modulo 8.
    exact ⟨n / 8, by omega, (n + 7 * now b) % 8, by omega, by omega⟩

/-- Settles O38: the tick by its two cases, what it leaves alone by what the lanes can reach, and its registers field by field. -/
theorem ticksAdvanceTheMilepost : Obligations.TicksAdvanceTheMilepost := by
  refine ⟨fun s t0 t1 t2 t3 => ⟨fun h => act_of_eq (tick_stopped h), fun hr ht => ?runs⟩,
    fun b t0 t1 t2 t3 => ⟨fun p hp => ⟨takePeriod_field hp, takePeriod_pending hp⟩, takePeriod_none,
      readSensors_sensorLow t0 t1 t2 t3 b⟩,
    mem_tickLanes⟩
  case runs =>
    intro b1 b2 b3 b4
    have htick : tick t0 t1 t2 t3 s.blk = b4 := tick_runs hr ht
    refine ⟨act_of_eq htick, fun hp => ?_⟩
    have haway := tick_away t0 t1 t2 t3 s.blk hr ht hp
    rw [htick] at haway
    exact ⟨congrArg Block.milepost haway, congrArg Block.newPeriod haway, congrArg Block.sensors haway,
      (congrArg Block.keys haway :), (congrArg Block.sqs haway :), (congrArg Block.answers haway :), (congrArg Block.rstPin haway :)⟩

/-! ABORT of a discarded command (R118, R121, R441). -/

/-- An ABORT that finds a discarded command, whose FAULT_DISCARD has not been accepted yet, counts all its members as aborted (R441). -/
theorem exec_abort_discarded {s : State} {p : Nat} {x : List Byte} {y : Nat × Cmd} (h : AdminAt s p 0x88 x)
    (hnew : (pav s.blk p).exec.bind (·.abort) = none) (hq : sqFail s.blk p (aId x) = none)
    (hfound : s.blk.cmds.find? (fun y => decide (y.2.sq = aId x ∧ y.2.cid = fieldAt x 4 2)) = some y)
    (hd : y.2.discarded = true) :
    exec (.abort p) s = .next (after s (abortEnd (updExec (adminWait s.blk p) p (fun z => { z with
      abort := some ⟨y.1, [], y.2.entries.length, 0⟩ })) p)) := by
  refine act_of_eq ((adminRun_of h _).trans ?_)
  simp only [hnew, hq, hfound, hd]
  rfl

/-- ABORT of CID 7 of queue 5 (R118). -/
def abortOfCid7 : List Byte := [0x88, 2, 5, 0, 7] ++ zeros 27

/-- Command 4 is CID 7 of queue 5, discarded, of one member; command 9, of pavilion 0's admin queue, aborts it. -/
def discardedCommand : State := ⟨NonVol.blank, { State.reset.blk with
  lxReady := true
  sqs := [(5, { Sq.none with live := true })]
  cqs := [(2048, { Cq.none with live := true })]
  cmds := [(4, ⟨5, 7, 0, none, true, [3], true, false⟩), (9, ⟨4096, 1, 0, none, true, [], false, false⟩)]
  pavs := [(0, { Pav.init with exec := some (Exec.start 9 [abortOfCid7]) })] }, []⟩

theorem discardedCommand_adminAt : AdminAt discardedCommand 0 0x88 abortOfCid7 :=
  ⟨by decide +kernel, by decide, by decide, by decide +kernel, Exec.start 9 [abortOfCid7], rfl, rfl, rfl⟩

/-- The statuses of the completions that wait for pavilion 0's admin completion queue. -/
def adminStatuses (s : State) : List Nat := (cq s.blk 2048).wait.map (·.status)

/-- Refutes O21: the statement has ABORT complete ABORT_NOT_FOUND for a command that is discarded, and the model completes it OK, with
the command's members counted as aborted, as long as the command's FAULT_DISCARD is not accepted. -/
theorem not_abortAndIdentify : ¬ Obligations.AbortAndIdentify := by
  intro h
  obtain ⟨hnotFound, -⟩ := h.1 discardedCommand 0 abortOfCid7
  have hstatement := hnotFound discardedCommand_adminAt rfl (by decide +kernel) (by decide +kernel)
  have hmodel := exec_abort_discarded discardedCommand_adminAt rfl (by decide +kernel) rfl rfl
  have hnext := Host.Outcome.next.inj (hmodel.symm.trans hstatement)
  exact absurd (congrArg adminStatuses hnext) (by decide +kernel)

end Sys2Proof.Laws

/-! Submission and completion rings: the doorbells and the indices they move (R64, R71, R72, R87, R447), the bytes of a completion
(R81), what becomes of a fetched entry (R89, R91, R201), the arbiter that accepts completions (R61, R84 to R90, R437), and the checks of an
entry and of its instructions' operands (R92, R128, R170, R473). -/

namespace Sys2Proof.Laws

open Sys2Proof Sys2Proof.Machine

/-! Doorbells (R71, R72, R87, R447). -/

section Doorbells

variable {s : State} {b : Block} {p : Nat} {q : Option Nat} {v : Word}

theorem sqDbAddr_aligned (p : Nat) (q : Option Nat) : sqDbAddr p q % 4 = 0 := by
  cases q <;> simp only [sqDbAddr, pavReg] <;> omega

theorem cqDbAddr_aligned (p : Nat) (q : Option Nat) : cqDbAddr p q % 4 = 0 := by
  cases q <;> simp only [cqDbAddr, pavReg] <;> omega

theorem sqDoorbell_accepted (h : sqDoorbellCause b p q v = none) :
    sqDoorbell p q v b = wakePs2 (updSq b (sqKey p q) (fun x => { x with tail := v.toNat % 65536 })) := by
  simp only [sqDoorbell, h]

theorem sqDoorbell_ignored {c : Nat} (h : sqDoorbellCause b p q v = some c) :
    sqDoorbell p q v b = doorbellErr b p q false v c := by
  simp only [sqDoorbell, h]

theorem cqDoorbell_accepted (h : cqDoorbellCause b p q v = none) :
    cqDoorbell p q v b = wakePs2 (updCq b (cqKey p q) (fun x => { x with head := v.toNat % 65536 })) := by
  simp only [cqDoorbell, h]

theorem cqDoorbell_ignored {c : Nat} (h : cqDoorbellCause b p q v = some c) :
    cqDoorbell p q v b = doorbellErr b p q true v c := by
  simp only [cqDoorbell, h]

theorem exec_sqDoorbell (h : PortTakes s (sqDbAddr p q)) {g : Block → Block} (hg : sqDoorbell p q v s.blk = g s.blk) :
    exec (.sqDoorbell p q v true) s = .next (afterWrite s g) :=
  regWrite4_of_eq h (sqDbAddr_aligned p q) hg

theorem exec_cqDoorbell (h : PortTakes s (cqDbAddr p q)) {g : Block → Block} (hg : cqDoorbell p q v s.blk = g s.blk) :
    exec (.cqDoorbell p q v true) s = .next (afterWrite s g) :=
  regWrite4_of_eq h (cqDbAddr_aligned p q) hg

theorem wakePs2_sqs (b : Block) : (wakePs2 b).sqs = b.sqs := by
  unfold wakePs2
  split <;> rfl

/-- Only registers and the pavilion's error mark tell of a doorbell that is ignored. -/
theorem doorbellErr_rings (b : Block) (p : Nat) (q : Option Nat) (isCq : Bool) (v : Word) (c : Nat) :
    (doorbellErr b p q isCq v c).sqs = b.sqs ∧ (doorbellErr b p q isCq v c).cqs = b.cqs ∧
      (pav (doorbellErr b p q isCq v c) p).errRaised = true := by
  unfold doorbellErr
  exact ⟨by rw [updPav_sqs, rinc_eq, rputF_eq, rput_sqs, rput_sqs], by rw [updPav_cqs, rinc_eq, rputF_eq, rput_cqs, rput_cqs],
    congrArg Pav.errRaised (pav_updPav_same _ _ _)⟩

end Doorbells

/-- Settles O11: each doorbell by its check, which passes or names a cause. -/
theorem doorbells : Obligations.Doorbells := by
  refine ⟨fun s p q v h => ⟨fun hpass => ?sqPasses, fun c hfail => ?sqFails⟩,
    fun s p q v h => ⟨fun hpass => ?cqPasses, fun c hfail => ?cqFails⟩⟩
  case sqPasses => exact exec_sqDoorbell h (sqDoorbell_accepted hpass)
  case sqFails => exact ⟨exec_sqDoorbell h (sqDoorbell_ignored hfail), doorbellErr_rings s.blk p q false v c⟩
  case cqPasses => exact exec_cqDoorbell h (cqDoorbell_accepted hpass)
  case cqFails => exact exec_cqDoorbell h (cqDoorbell_ignored hfail)

/-! A submission ring's indices (R64). -/

section Indices

variable {b : Block} {x : Sq} {p n i j : Nat} {q : Option Nat} {v : Word}

/-- The number of slots from index j on to index i of a ring of n slots. -/
theorem ringDistance (hi : i < n) (hj : j < n) : (i + n - j) % n = if j ≤ i then i - j else i + n - j := by
  split
  case isTrue h => rw [show i + n - j = i - j + n by omega, Nat.add_mod_right, Nat.mod_eq_of_lt (by omega)]
  case isFalse h => exact Nat.mod_eq_of_lt (by omega)

/-- The distance between two indices of a ring, less one: one slot stays empty. -/
theorem ringDistance_sub_one (hi : i < n) (hj : j < n) :
    (i + n - j - 1) % n = if j < i then i - j - 1 else i + n - j - 1 := by
  split
  case isTrue h => rw [show i + n - j - 1 = i - j - 1 + n by omega, Nat.add_mod_right, Nat.mod_eq_of_lt (by omega)]
  case isFalse h => exact Nat.mod_eq_of_lt (by omega)

theorem posted_eq_ite (hh : x.head < 2 ^ x.k) (ht : x.tail < 2 ^ x.k) :
    x.posted = if x.head ≤ x.tail then x.tail - x.head else x.tail + 2 ^ x.k - x.head := ringDistance ht hh

theorem posted_le (x : Sq) : x.posted ≤ 2 ^ x.k - 1 :=
  Nat.le_sub_one_of_lt (Nat.mod_lt _ (Nat.two_pow_pos _))

theorem posted_eq_zero_iff (hh : x.head < 2 ^ x.k) (ht : x.tail < 2 ^ x.k) : x.posted = 0 ↔ x.tail = x.head := by
  rw [posted_eq_ite hh ht]
  split <;> omega

/-- A ring is full just where its tail is one slot behind its head (R64). -/
theorem posted_full_iff (hh : x.head < 2 ^ x.k) (ht : x.tail < 2 ^ x.k) :
    x.posted = 2 ^ x.k - 1 ↔ (x.tail + 1) % 2 ^ x.k = x.head := by
  rw [posted_eq_ite hh ht]
  rcases Nat.lt_or_ge (x.tail + 1) (2 ^ x.k) with hlast | hlast
  · rw [Nat.mod_eq_of_lt hlast]
    split <;> omega
  · rw [show x.tail + 1 = 2 ^ x.k by omega, Nat.mod_self]
    split <;> omega

/-- A tail that moves on by no more than the free slots loses no posted slot. -/
theorem posted_le_of_room {t : Nat} (hh : x.head < 2 ^ x.k) (ht : x.tail < 2 ^ x.k) (hslot : t < 2 ^ x.k)
    (hroom : (t + 2 ^ x.k - x.tail) % 2 ^ x.k ≤ (x.head + 2 ^ x.k - x.tail - 1) % 2 ^ x.k) :
    x.posted ≤ { x with tail := t }.posted := by
  rw [ringDistance hslot ht, ringDistance_sub_one hh ht] at hroom
  rw [posted_eq_ite hh ht, posted_eq_ite (x := { x with tail := t }) hh hslot]
  dsimp only
  split_ifs at hroom ⊢ <;> omega

/-- A doorbell that passes its check names a slot of the ring, no further on than the free slots reach (R71). -/
theorem sqDoorbellCause_none (h : sqDoorbellCause b p q v = none) :
    v.toNat % 65536 = v.toNat ∧ v.toNat < 2 ^ (sq b (sqKey p q)).k ∧
      (v.toNat + 2 ^ (sq b (sqKey p q)).k - (sq b (sqKey p q)).tail) % 2 ^ (sq b (sqKey p q)).k ≤
        ((sq b (sqKey p q)).head + 2 ^ (sq b (sqKey p q)).k - (sq b (sqKey p q)).tail - 1) % 2 ^ (sq b (sqKey p q)).k := by
  dsimp only [sqDoorbellCause] at h
  split_ifs at h with _ hslot hroom
  obtain ⟨hword, hring⟩ := not_or.mp hslot
  have hv : v.toNat % 65536 = v.toNat := Nat.mod_eq_of_lt (not_le.mp hword)
  rw [hv] at hring hroom
  exact ⟨hv, not_le.mp hring, not_lt.mp hroom⟩

/-- What an accepted doorbell leaves in its ring: the tail at the slot it names, and all else as it was. -/
theorem sq_sqDoorbell (h : sqDoorbellCause b p q v = none) :
    sq (sqDoorbell p q v b) (sqKey p q) = { sq b (sqKey p q) with tail := v.toNat } := by
  rw [sqDoorbell_accepted h, (sqDoorbellCause_none h).1]
  exact (congrArg (tget Sq.none · _) (wakePs2_sqs _)).trans (sq_updSq_same _ _ _)

end Indices

/-- Settles O12: the tail goes on from where it stood by no more than the ring has free. -/
theorem doorbellsPostNoSlotTwice : Obligations.DoorbellsPostNoSlotTwice := by
  intro b p q v x hhead htail hpass y
  obtain ⟨-, hslot, hroom⟩ := sqDoorbellCause_none hpass
  have hy : y = { x with tail := v.toNat } := sq_sqDoorbell hpass
  rw [hy]
  exact ⟨rfl, rfl, rfl, hslot, posted_le_of_room hhead htail hslot hroom, posted_le _,
    posted_eq_zero_iff (x := { x with tail := v.toNat }) hhead hslot,
    posted_full_iff (x := { x with tail := v.toNat }) hhead hslot⟩
/-! The bytes of a completion (R81). -/

section Fields

variable {l r : List Byte} {lo n : Nat}

theorem byteAt_eq_fieldAt (l : List Byte) (i : Nat) : byteAt l i = fieldAt l i 1 := by
  rw [byteAt, fieldAt, List.getD_eq_getElem?_getD]
  rcases Nat.lt_or_ge i l.length with h | h
  · rw [List.drop_eq_getElem_cons h, List.getElem?_eq_getElem h]
    rfl
  · rw [List.drop_eq_nil_of_le h, List.getElem?_eq_none h]
    rfl

@[simp] theorem fieldAt_append_left (h : lo + n ≤ l.length) : fieldAt (l ++ r) lo n = fieldAt l lo n := by
  rw [fieldAt, fieldAt, List.drop_append_of_le_length (by omega), List.take_append_of_le_length (by simp; omega)]

@[simp] theorem fieldAt_append_right (h : l.length ≤ lo) : fieldAt (l ++ r) lo n = fieldAt r (lo - l.length) n := by
  rw [fieldAt, fieldAt, List.drop_append, List.drop_eq_nil_of_le h, List.nil_append]

@[simp] theorem fieldAt_leBytes (n x : Nat) : fieldAt (leBytes n x) 0 n = x % 256 ^ n := by
  rw [fieldAt, List.drop_zero, List.take_of_length_le (leBytes_length n x).le, leNat_leBytes]

end Fields

/-- PHASE, LATE and EVENT in byte 6 of a completion. -/
theorem flagBits (phase late event : Bool) :
    let flags := ofBool phase + 2 * ofBool late + 4 * ofBool event
    flags < 8 ∧ flags.testBit 0 = phase ∧ flags.testBit 1 = late ∧ flags.testBit 2 = event := by
  revert phase late event
  decide

/-- Byte 6 of a completion holds nothing but its flags. -/
theorem complBytes_flags (b : Block) (x : Compl) (phase : Bool) :
    byteAt (complBytes b x phase) 6 = ofBool phase + 2 * ofBool (complLate b x).isSome + 4 * ofBool x.event := by
  obtain ⟨hflags, -⟩ := flagBits phase (complLate b x).isSome x.event
  simp [complBytes, byteAt_eq_fieldAt]
  omega

/-- Settles O17: the flags by their byte, and each other field by the bytes before and behind it. -/
theorem completionLayout : Obligations.CompletionLayout := by
  intro b x phase l
  obtain ⟨hflags, hphase, hlate, hevent⟩ := flagBits phase (complLate b x).isSome x.event
  rw [complBytes_flags b x phase, hphase, hlate, hevent]
  simp only [hflags, byteAt_eq_fieldAt, true_and]
  simp only [l, complBytes]
  refine ⟨by simp, by simp, ?tenantSq, ?adminSq, by simp, by simp, ?others⟩
  case tenantSq =>
    intro hsq
    have hsmall : x.sq < 65536 := hsq.trans (by decide)
    simp [hsq, Nat.mod_eq_of_lt hsmall]
  case adminSq =>
    intro hsq
    simp [Nat.not_lt.mpr hsq]
  case others =>
    have hretry : min 255 x.retry < 256 := by omega
    simp [Nat.mod_eq_of_lt hretry]
    exact ⟨x.result.isLt, x.aux.isLt⟩

/-! A fetched entry (R89, R91, R92, R99, R110, R201, R374). -/

/-- All the slots of the entry that pavilion p fetches have landed, and the block runs. -/
def Landed (b : Block) (p : Nat) (f : Fetch) : Prop :=
  running b = true ∧ (pav b p).fetch = some f ∧ f.waiting = 0 ∧ f.len ≠ 0

/-- The block whose pavilion p fetches nothing. -/
def fetchTaken (b : Block) (p : Nat) : Block := updPav b p (fun v => { v with fetch := none })

section Entries

variable {b : Block} {p n : Nat} {f : Fetch} {z : Nat × Nat} {l : List (List Byte)}

/-- Nothing is made of an entry whose queue is fetched from no more, or goes on at another slot. -/
theorem entryCheck_dropped (hf : Landed b p f) (h : fetchOff (fetchTaken b p) p f.sq = true ∨ (sq b f.sq).fetch ≠ f.slot) :
    entryCheck p b = fetchTaken b p := by
  obtain ⟨hrun, hfetch, hwait, hlen⟩ := hf
  unfold fetchTaken at *
  simp [entryCheck, hfetch, hrun, hwait, hlen, h]

section Fetched

variable (hf : Landed b p f) (hslot : (sq b f.sq).fetch = f.slot) (hon : fetchOff (fetchTaken b p) p f.sq = false)
include hf hslot hon

theorem entryCheck_malformed (h : entryChecks (fetchTaken b p) f.sq (fetchBytes f) = .inl z) :
    entryCheck p b = malformed (fetchTaken b p) f.sq f.slot (hLen (fetchBytes f)) (hFlags (fetchBytes f)) (hCid (fetchBytes f))
      z.1 z.2 := by
  obtain ⟨hrun, hfetch, hwait, hlen⟩ := hf
  unfold fetchTaken at *
  simp [entryCheck, hfetch, hrun, hwait, hlen, hon, hslot, h]

theorem entryCheck_admin (h : entryChecks (fetchTaken b p) f.sq (fetchBytes f) = .inr l) (ha : isAdmin f.sq = true) :
    entryCheck p b = admitEntry (fetchTaken b p) f.sq f.slot (fetchBytes f) ⟨none, [], []⟩ (mkInstrs ⟨none, [], []⟩ l) := by
  obtain ⟨hrun, hfetch, hwait, hlen⟩ := hf
  unfold fetchTaken at *
  simp [entryCheck, hfetch, hrun, hwait, hlen, hon, hslot, h, ha]

/-- A good tenant or service entry goes on to the lane that routing gives it: it is left where the lane's pool is full (R201) or the lane
takes none for the queue's ring (R89), and is admitted otherwise. -/
theorem entryCheck_routed (h : entryChecks (fetchTaken b p) f.sq (fetchBytes f) = .inr l) (ha : isAdmin f.sq = false)
    (hn : (routeEntry (fetchTaken b p) f.sq l).lane = some n) :
    entryCheck p b =
      if poolRoom (fetchTaken b p) n (sq b f.sq).service = false then
        rinc (updSq (fetchTaken b p) f.sq (fun y => { y with full := some n, seen := headBytes f })) (laneReg n 0x154) 31 16 1
      else if takesFor (fetchTaken b p) n (sq b f.sq).cq = false then
        updSq (fetchTaken b p) f.sq (fun y => { y with full := some n, seen := headBytes f })
      else admitEntry (fetchTaken b p) f.sq f.slot (fetchBytes f) (routeEntry (fetchTaken b p) f.sq l)
        (mkInstrs (routeEntry (fetchTaken b p) f.sq l) l) := by
  obtain ⟨hrun, hfetch, hwait, hlen⟩ := hf
  unfold fetchTaken at *
  simp [entryCheck, hfetch, hrun, hwait, hlen, hon, hslot, h, ha, hn]

theorem entryCheck_unrouted (h : entryChecks (fetchTaken b p) f.sq (fetchBytes f) = .inr l) (ha : isAdmin f.sq = false)
    (hn : (routeEntry (fetchTaken b p) f.sq l).lane = none) :
    entryCheck p b = admitEntry (fetchTaken b p) f.sq f.slot (fetchBytes f) (routeEntry (fetchTaken b p) f.sq l)
      (finishUnrouted (pavSec (fetchTaken b p) p) (sq b f.sq).service (mkInstrs (routeEntry (fetchTaken b p) f.sq l) l)) := by
  obtain ⟨hrun, hfetch, hwait, hlen⟩ := hf
  unfold fetchTaken at *
  simp [entryCheck, hfetch, hrun, hwait, hlen, hon, hslot, h, ha, hn]

end Fetched

end Entries

/-- Settles O14: the entry that is dropped, refused, an admin one, routed to a lane and left or admitted there, or unrouted. -/
theorem entriesAreChecked : Obligations.EntriesAreChecked := by
  intro s p f hrun hfetch hwait hlen key q x b
  have hf : Landed s.blk p f := ⟨hrun, hfetch, hwait, hlen⟩
  refine ⟨fun h => act_of_eq (entryCheck_dropped hf h), fun hslot hon => ⟨fun z h => act_of_eq (entryCheck_malformed hf hslot hon h),
    fun l h ha => act_of_eq (entryCheck_admin hf hslot hon h ha), fun l n h ha hn => ?routed,
    fun l h ha hn => act_of_eq (entryCheck_unrouted hf hslot hon h ha hn)⟩⟩
  case routed =>
    have hlane := entryCheck_routed hf hslot hon h ha hn
    refine ⟨fun hfull => act_of_eq (hlane.trans ?_), fun hroom hheld => act_of_eq (hlane.trans ?_),
      fun hroom htakes => act_of_eq (hlane.trans ?_)⟩
    · exact if_pos hfull
    · exact (if_neg (ne_false_of_eq_true hroom)).trans (if_pos hheld)
    · exact (if_neg (ne_false_of_eq_true hroom)).trans (if_neg (ne_false_of_eq_true htakes))

/-! The arbiter of a completion ring (R61, R84 to R90, R437). -/

section Arbiter

variable {b : Block} {c src : Nat} {x : Compl}

theorem blocked_iff (q : Cq) : q.blocked = true ↔ q.broken = true ∨ (q.issue + 1) % 2 ^ q.k = q.head := by
  rw [Cq.blocked, Bool.or_eq_true, Cq.full, decide_eq_true_eq, Cq.after]

section Open

variable (hlive : (cq b c).live = true) (hopen : (cq b c).blocked = false) (hreset : b.inReset = false) (hps0 : powerState b = 0)
  (hrun : faulted b = false ∨ b.lxReady = true)
include hlive hopen hreset hps0 hrun

theorem completionAccept_takes {b' : Block} (h : takeCompl b c (if src < 64 then some src else none) = some (x, b')) :
    completionAccept c src b = acceptCompl b' c x := by
  have hready : (faulted b && !b.lxReady) = false := by rcases hrun with h | h <;> simp [h]
  simp [completionAccept, hlive, hopen, hreset, hps0, hready, h]

theorem completionAccept_empty (h : takeCompl b c (if src < 64 then some src else none) = none) :
    completionAccept c src b = b := by
  have hready : (faulted b && !b.lxReady) = false := by rcases hrun with h | h <;> simp [h]
  simp [completionAccept, hlive, hopen, hreset, hps0, hready, h]

end Open

theorem completionAccept_closed (h : (cq b c).live = false ∨ (cq b c).blocked = true) : completionAccept c src b = b := by
  rcases h with h | h <;> simp [completionAccept, h]

end Arbiter

/-! The oldest completion of a source (R86, R437). -/

section Oldest

variable {b : Block} {c : Nat} {src : Option Nat} {x : Compl} {older newer : List Compl}

/-- A lane's holding area has a completion for ring c. -/
def HeldFor (b : Block) (c : Nat) (src : Option Nat) : Prop := ∃ n, src = some n ∧ ∃ y ∈ (lane b n).holding, y.1 = c

theorem updLane_congr {n : Nat} {f g : Lane → Lane} (h : f (lane b n) = g (lane b n)) : updLane b n f = updLane b n g :=
  congrArg (fun l => { b with lanes := tput b.lanes n l }) h

theorem updCq_congr {f g : Cq → Cq} (h : f (cq b c) = g (cq b c)) : updCq b c f = updCq b c g :=
  congrArg (fun q => { b with cqs := tput b.cqs c q }) h

/-- The oldest of a lane's holding area for the ring goes before all that waits. -/
theorem takeCompl_held {n : Nat} {before behind : List (Nat × Compl)} (h : (lane b n).holding = before ++ (c, x) :: behind)
    (hb : ∀ y ∈ before, y.1 ≠ c) :
    takeCompl b c (some n) = some (x, updLane b n (fun l => { l with holding := before ++ behind })) := by
  have hfind : (lane b n).holding.find? (fun y => decide (y.1 = c)) = some (c, x) := by
    rw [h, List.find?_append, List.find?_eq_none.mpr (by simpa using hb)]
    simp
  have hnot : (c, x) ∉ before := fun hmem => hb _ hmem rfl
  have herase : (lane b n).holding.erase (c, x) = before ++ behind := by
    rw [h, List.erase_append_right _ hnot, List.erase_cons_head]
  simp only [takeCompl, hfind]
  rw [updLane_congr (g := fun l => { l with holding := before ++ behind }) (by rw [herase])]

theorem find?_holding_of_not_heldFor {n : Nat} (h : ¬ HeldFor b c (some n)) :
    (lane b n).holding.find? (fun y => decide (y.1 = c)) = none :=
  List.find?_eq_none.mpr (fun y hy hc => h ⟨n, rfl, y, hy, by simpa using hc⟩)

/-- With none in the holding area, the oldest that waits of the source is taken, but for a FAULT_DISCARD behind one of its queue. -/
theorem takeCompl_waiting (h : ¬ HeldFor b c src) (hw : (cq b c).wait.find? (fun x => decide (x.lane = src)) = some x) :
    takeCompl b c src = if afterOthers b c x then none else some (x, updCq b c (fun q => { q with wait := q.wait.erase x })) := by
  cases src with
  | none => simp only [takeCompl, hw]
  | some n => simp only [takeCompl, find?_holding_of_not_heldFor h, hw]

theorem takeCompl_nothing (h : ¬ HeldFor b c src) (hw : ∀ y ∈ (cq b c).wait, y.lane ≠ src) : takeCompl b c src = none := by
  have hfind : (cq b c).wait.find? (fun x => decide (x.lane = src)) = none := List.find?_eq_none.mpr (by simpa using hw)
  cases src with
  | none => simp only [takeCompl, hfind]
  | some n => simp only [takeCompl, find?_holding_of_not_heldFor h, hfind]

/-- The oldest that waits of the source stands behind those of other sources. -/
theorem find?_wait (hw : (cq b c).wait = older ++ x :: newer) (hx : x.lane = src) (ho : ∀ y ∈ older, y.lane ≠ src) :
    (cq b c).wait.find? (fun x => decide (x.lane = src)) = some x := by
  rw [hw, List.find?_append, List.find?_eq_none.mpr (by simpa using ho)]
  simp [hx]

theorem not_mem_older (hx : x.lane = src) (ho : ∀ y ∈ older, y.lane ≠ src) : x ∉ older := fun hmem => ho x hmem hx

theorem takeWhile_wait (hw : (cq b c).wait = older ++ x :: newer) (hnot : x ∉ older) :
    (cq b c).wait.takeWhile (fun y => decide (y ≠ x)) = older := by
  rw [hw, List.takeWhile_append_of_pos (by simpa using fun y hy (e : y = x) => hnot (e ▸ hy))]
  simp

theorem afterOthers_other (h : x.event = false ∨ x.status ≠ 0x70) : afterOthers b c x = false := by
  rcases h with h | h <;> simp [afterOthers, h]

theorem afterOthers_behind (hw : (cq b c).wait = older ++ x :: newer) (hnot : x ∉ older) (he : x.event = true)
    (hs : x.status = 0x70) (h : ∃ y ∈ older, y.sq = x.sq) : afterOthers b c x = true := by
  have hany : older.any (fun y => decide (y.sq = x.sq)) = true := by simpa using h
  simp only [afterOthers, takeWhile_wait hw hnot, he, hs, hany]
  simp

end Oldest

/-! What the acceptance of a completion leaves of its ring and of the outstanding commands (R61, R84, R85). -/

/-- The completion rings and the outstanding commands. -/
def ringsOf (b : Block) : Tab Cq × Tab Cmd := (b.cqs, b.cmds)

section Accept

variable (b : Block)

@[simp] theorem rinc_ringsOf (a hi lo k : Nat) : ringsOf (rinc b a hi lo k) = ringsOf b := rfl
@[simp] theorem rmax_ringsOf (a hi lo v : Nat) : ringsOf (rmax b a hi lo v) = ringsOf b := rfl
@[simp] theorem updLane_ringsOf (n : Nat) (f : Lane → Lane) : ringsOf (updLane b n f) = ringsOf b := rfl

theorem logViolation_ringsOf (v : Violation) : ringsOf (logViolation b v) = ringsOf b := by
  unfold logViolation
  have hcount := rinc_ringsOf b 0x10318 31 0 1
  generalize rinc b 0x10318 31 0 1 = b1 at hcount ⊢
  rw [← hcount]
  dsimp only
  split
  · split
    · rfl
    · split
      · rfl
      · exact rinc_ringsOf ..
  · rfl

theorem pickId_ringsOf (port : Nat) (write : Bool) : ringsOf (pickId b port write).2 = ringsOf b := by
  unfold pickId
  dsimp only
  split <;> rfl

theorem putFlit_ringsOf (port : Nat) (write : Bool) : ringsOf (putFlit b port write) = ringsOf b := by
  unfold putFlit
  generalize (4 * port + if write = true then 2 else 0) = k
  dsimp only
  split
  case isTrue => rfl
  split
  case h_1 => rfl
  split
  case h_1 => rfl
  case h_2 x _ =>
    split
    case isTrue => exact logViolation_ringsOf _ _
    cases x.id with
    | some n => rfl
    | none =>
      have hpick := pickId_ringsOf b port write
      dsimp only
      generalize pickId b port write = y at hpick ⊢
      obtain ⟨id, b1⟩ := y
      cases id <;> exact hpick

theorem putFlits_ringsOf (port : Nat) (write : Bool) : ∀ (n : Nat) (b : Block), ringsOf (putFlits n port write b) = ringsOf b
  | 0, _ => rfl
  | n + 1, b => (putFlits_ringsOf port write n _).trans (putFlit_ringsOf b port write)

/-- A burst that is handed to its port reaches no completion ring and no command. -/
theorem issue_ringsOf (x : Burst) : ringsOf (issue b x).2 = ringsOf b := by
  unfold issue
  split
  · unfold pump
    dsimp only
    split
    · exact putFlits_ringsOf ..
    · rfl
  · exact logViolation_ringsOf ..

theorem countResponse_ringsOf (n : Nat) : ringsOf (countResponse b n) = ringsOf b := by
  unfold countResponse
  dsimp only
  split
  · rfl
  split <;> rfl

end Accept

/-- Where the writer of ring c goes on, with which phase, and the outstanding commands. -/
def writerAt (c : Nat) (b : Block) : Nat × Bool × Tab Cmd := ((cq b c).issue, (cq b c).phase, b.cmds)

section Writer

variable {b b' : Block} (c : Nat)

theorem writerAt_of_ringsOf (h : ringsOf b' = ringsOf b) : writerAt c b' = writerAt c b :=
  congrArg (fun r => ((tget Cq.none r.1 c).issue, (tget Cq.none r.1 c).phase, r.2)) h

theorem writerAt_updCq {d : Nat} {f : Cq → Cq} (hf : ∀ q, (f q).issue = q.issue ∧ (f q).phase = q.phase) :
    writerAt c (updCq b d f) = writerAt c b := by
  unfold writerAt
  by_cases h : c = d
  · subst h
    rw [cq_updCq_same, (hf _).1, (hf _).2, updCq_cmds]
  · rw [cq_updCq_other _ _ _ _ h, updCq_cmds]

theorem ackSlots_writer : ∀ (n : Nat) (q : Cq), (ackSlots n q).issue = q.issue ∧ (ackSlots n q).phase = q.phase
  | 0, _ => ⟨rfl, rfl⟩
  | n + 1, q => by
    unfold ackSlots
    split
    · exact ackSlots_writer n _
    · exact ⟨rfl, rfl⟩

theorem complAck_writerAt (d slot : Nat) : writerAt c (complAck b d slot) = writerAt c b :=
  (writerAt_of_ringsOf c (countResponse_ringsOf _ _)).trans (writerAt_updCq c fun _ => ackSlots_writer _ _)

theorem holdStep_ringsOf (d : Nat) (blocked : Bool) (acc : Block × List Compl) (x : Compl) :
    ringsOf (holdStep d blocked acc x).1 = ringsOf acc.1 := by
  unfold holdStep
  split
  · rfl
  dsimp only
  split
  · exact (rmax_ringsOf ..).trans (updLane_ringsOf ..)
  · rfl

theorem holdSteps_ringsOf (d : Nat) (blocked : Bool) : ∀ (l : List Compl) (acc : Block × List Compl),
    ringsOf (l.foldl (holdStep d blocked) acc).1 = ringsOf acc.1
  | [], _ => rfl
  | x :: l, acc => (holdSteps_ringsOf d blocked l _).trans (holdStep_ringsOf d blocked acc x)

theorem rehold_writerAt (b : Block) (d : Nat) : writerAt c (rehold b d) = writerAt c b := by
  unfold rehold
  dsimp only
  split
  · rfl
  · refine (writerAt_updCq c fun _ => ?_).trans (writerAt_of_ringsOf c (holdSteps_ringsOf ..))
    exact ⟨rfl, rfl⟩

/-- Completions that move to the holding areas leave every writer where it stands. -/
theorem reholdAll_writerAt (b : Block) : writerAt c (reholdAll b) = writerAt c b :=
  each_keeps (writerAt c) rehold (rehold_writerAt c) _ b

end Writer

/-- A late command is counted in its lane as its completion is accepted (R199). -/
def lateCounted (b : Block) (x : Compl) : Block :=
  match x.lane, complLate b x with
  | some n, some late => rmax (rinc b (laneReg n 0x90) 31 0 1) (laneReg n 0x94) 23 0 (min late 0xFFFFFF)
  | _, _ => b

/-- A ring whose writer has put completion x in a slot: behind the ring's last slot the phase inverts (R84). -/
def slotUsed (slot : Nat) (x : Compl) (q : Cq) : Cq :=
  { q with
    issue := q.after slot
    phase := if q.after slot = 0 then !q.phase else q.phase
    inFlight := q.inFlight ++ [(slot, x)] }

/-- The next slot of ring c is completion x's, and its commands are outstanding no longer (R84, R61). -/
def slotTaken (b : Block) (c : Nat) (x : Compl) : Block :=
  let b1 := updCq (each x.cmds retire (lateCounted b x)) c (slotUsed (cq b c).issue x)
  if c < 2048 then updSq b1 x.sq (fun s => { s with held := s.held && !decide (x.lane = none ∧ x.event = false) }) else b1

/-- The bytes of an accepted completion, as one write beat in its slot (R81, R85). -/
def slotWrite (b b1 : Block) (c : Nat) (x : Compl) : Burst :=
  mkWrite (pavPort b1 (cq b c).owner) (24 + (cq b c).owner) 3 (.comp c (cq b c).issue) ((cq b c).base + 64 * ((cq b c).issue / 2))
    [BitVec.ofNat 512 (leNat (complBytes b x (cq b c).phase) * 2 ^ (256 * ((cq b c).issue % 2)))]
    [BitVec.ofNat 64 (0xFFFFFFFF * 2 ^ (32 * ((cq b c).issue % 2)))] (pavSec b1 (cq b c).owner)

/-- A write that Gatehouse denies counts as written at once. -/
def slotWritten (c slot : Nat) (y : Bool × Block) : Block := if y.1 then y.2 else complAck y.2 c slot

section Accepted

variable (b : Block) (c : Nat) (x : Compl)

theorem acceptCompl_eq : acceptCompl b c x =
    reholdAll (slotWritten c (cq b c).issue (issue (slotTaken b c x) (slotWrite b (slotTaken b c x) c x))) := rfl

theorem acceptCompl_writerAt : writerAt c (acceptCompl b c x) = writerAt c (slotTaken b c x) := by
  rw [acceptCompl_eq, reholdAll_writerAt, slotWritten]
  split
  · exact writerAt_of_ringsOf c (issue_ringsOf ..)
  · exact (complAck_writerAt ..).trans (writerAt_of_ringsOf c (issue_ringsOf ..))

theorem lateCounted_keeps : ringsOf (lateCounted b x) = ringsOf b ∧ (lateCounted b x).bursts = b.bursts := by
  unfold lateCounted
  split
  · exact ⟨by simp, by rw [rmax_eq, rputF_eq, rput_bursts, rinc_eq, rputF_eq, rput_bursts]⟩
  · exact ⟨rfl, rfl⟩

/-- A retired command is not outstanding. -/
theorem mem_each_retire (y : Nat × Cmd) : ∀ (l : List Nat) (b : Block), y ∈ (each l retire b).cmds → y.1 ∉ l ∧ y ∈ b.cmds
  | [], _, h => ⟨List.not_mem_nil, h⟩
  | k :: l, b, h => by
    obtain ⟨hl, hk⟩ := mem_each_retire y l (retire b k) h
    obtain ⟨hmem, hne⟩ := List.mem_filter.mp hk
    exact ⟨by simpa [hl] using hne, hmem⟩

theorem slotTaken_bursts : (slotTaken b c x).bursts = b.bursts := by
  have hretired : (each x.cmds retire (lateCounted b x)).bursts = b.bursts :=
    (each_keeps Block.bursts retire (fun _ _ => rfl) _ _).trans (lateCounted_keeps b x).2
  unfold slotTaken
  dsimp only
  split <;> exact hretired

theorem slotTaken_cq : cq (slotTaken b c x) c = slotUsed (cq b c).issue x (cq b c) := by
  have hlate : cq (lateCounted b x) c = cq b c := congrArg (fun r => tget Cq.none (Prod.fst r) c) (lateCounted_keeps b x).1
  have hretired : cq (each x.cmds retire (lateCounted b x)) c = cq b c :=
    (each_keeps (cq · c) retire (fun _ _ => rfl) _ _).trans hlate
  have hcqs : (slotTaken b c x).cqs = (updCq (each x.cmds retire (lateCounted b x)) c (slotUsed (cq b c).issue x)).cqs := by
    unfold slotTaken
    dsimp only
    split <;> rfl
  calc cq (slotTaken b c x) c
      = cq (updCq (each x.cmds retire (lateCounted b x)) c (slotUsed (cq b c).issue x)) c := congrArg (tget Cq.none · c) hcqs
    _ = slotUsed (cq b c).issue x (cq b c) := by rw [cq_updCq_same, hretired]

theorem slotTaken_cmds : (slotTaken b c x).cmds = (each x.cmds retire (lateCounted b x)).cmds := by
  unfold slotTaken
  dsimp only
  split <;> rfl

theorem acceptCompl_retires {k : Nat} (hk : k ∈ x.cmds) {y : Nat × Cmd} (hy : y ∈ (acceptCompl b c x).cmds) : y.1 ≠ k := by
  have hcmds : (acceptCompl b c x).cmds = (each x.cmds retire (lateCounted b x)).cmds :=
    (congrArg (·.2.2) (acceptCompl_writerAt b c x)).trans (slotTaken_cmds b c x)
  rw [hcmds] at hy
  rintro rfl
  exact (mem_each_retire y _ _ hy).1 hk

end Accepted

/-- Settles O16: what the arbiter asks for, which completion it is given, and what its acceptance leaves. -/
theorem completionsAreAccepted : Obligations.CompletionsAreAccepted := by
  refine ⟨fun s c src => ?arbiter, fun b c src x older newer before behind => ?oldest, fun b c x => ?accepted⟩
  case arbiter =>
    refine ⟨fun hlive hopen hreset hps0 hrun => ⟨fun x b h => ?_, fun h => ?_⟩, blocked_iff _,
      fun h => act_of_eq (completionAccept_closed h)⟩
    · exact act_of_eq (completionAccept_takes hlive hopen hreset hps0 hrun h)
    · exact act_of_eq (completionAccept_empty hlive hopen hreset hps0 hrun h)
  case oldest =>
    refine ⟨?held, ?waiting, ?behind, takeCompl_nothing⟩
    case held =>
      rintro n rfl h hb
      exact takeCompl_held h hb
    case waiting =>
      rintro hnone ⟨hw, hx, ho⟩ hother
      rw [takeCompl_waiting hnone (find?_wait hw hx ho), afterOthers_other hother]
      have herase : (cq b c).wait.erase x = older ++ newer := by
        rw [hw, List.erase_append_right _ (not_mem_older hx ho), List.erase_cons_head]
      exact congrArg (fun z => some (x, z)) (updCq_congr (by rw [herase]))
    case behind =>
      rintro hnone ⟨hw, hx, ho⟩ he hs hsame
      rw [takeCompl_waiting hnone (find?_wait hw hx ho), afterOthers_behind hw (not_mem_older hx ho) he hs hsame]
      rfl
  case accepted =>
    have hwriter := acceptCompl_writerAt b c x
    have hcq := slotTaken_cq b c x
    exact ⟨(congrArg (·.1) hwriter).trans (congrArg Cq.issue hcq), (congrArg (·.2.1) hwriter).trans (congrArg Cq.phase hcq),
      fun k hk y hy => acceptCompl_retires b c x hk hy, slotTaken b c x, slotTaken_bursts b c x, (congrArg Cq.tail hcq :),
      congrArg Cq.inFlight hcq, acceptCompl_eq b c x⟩

/-! The FRAMING walk (R473). -/

/-- The unit where instruction i of an entry starts, when the walk stands at unit u (R473). -/
def unitAfter (x : List Byte) (i u : Nat) : Nat := (fun u => u + byteAt x (16 * u + 1))^[i] u

/-- The instruction at unit u has at least one unit, and all of them lie within the entry's. -/
def UnitFits (x : List Byte) (total u : Nat) : Prop :=
  u ≠ total ∧ byteAt x (16 * u + 1) ≠ 0 ∧ u + byteAt x (16 * u + 1) ≤ total

/-- A unit of 16 zero bytes. -/
def UnitZero (x : List Byte) (u : Nat) : Prop := ∀ y ∈ (x.drop (16 * u)).take 16, y = 0

/-- Where n instructions start, with their numbers of units. -/
def unitList (x : List Byte) (n u : Nat) : List (Nat × Nat) :=
  (List.range n).map (fun i => (unitAfter x i u, byteAt x (16 * unitAfter x i u + 1)))

section Framing

variable {x : List Byte} {total : Nat}

theorem unitAfter_succ (x : List Byte) (i u : Nat) : unitAfter x (i + 1) u = unitAfter x i (u + byteAt x (16 * u + 1)) :=
  Function.iterate_succ_apply _ _ _

theorem unitList_succ (x : List Byte) (n u : Nat) :
    unitList x (n + 1) u = (u, byteAt x (16 * u + 1)) :: unitList x n (u + byteAt x (16 * u + 1)) := by
  simp only [unitList, List.range_succ_eq_map, List.map_cons, List.map_map]
  rfl

theorem framingWalk_unfit {n u : Nat} (h : ¬ UnitFits x total u) (acc : List (Nat × Nat)) :
    framingWalk x total (n + 1) u acc = .inl u := by
  simp only [framingWalk]
  split
  case isTrue => rfl
  case isFalse hend =>
    refine if_pos ?_
    by_contra hfit
    exact h ⟨hend, by omega, by omega⟩

theorem framingWalk_fits {n u : Nat} (h : UnitFits x total u) (acc : List (Nat × Nat)) :
    framingWalk x total (n + 1) u acc =
      framingWalk x total n (u + byteAt x (16 * u + 1)) (acc ++ [(u, byteAt x (16 * u + 1))]) := by
  obtain ⟨hend, hnu, htotal⟩ := h
  simp only [framingWalk]
  rw [if_neg hend, if_neg (by omega)]

/-- The walk passes the instructions that fit. -/
theorem framingWalk_passes (m : Nat) : ∀ (i u : Nat) (acc : List (Nat × Nat)), (∀ k < i, UnitFits x total (unitAfter x k u)) →
    framingWalk x total (i + m) u acc = framingWalk x total m (unitAfter x i u) (acc ++ unitList x i u)
  | 0, _, acc, _ => by
    rw [Nat.zero_add, unitList, List.range_zero, List.map_nil, List.append_nil]
    rfl
  | i + 1, u, acc, h => by
    have hrest (k : Nat) (hk : k < i) : UnitFits x total (unitAfter x k (u + byteAt x (16 * u + 1))) :=
      unitAfter_succ x k u ▸ h (k + 1) (Nat.succ_lt_succ hk)
    rw [Nat.add_right_comm, framingWalk_fits (u := u) (h 0 (Nat.succ_pos i)), framingWalk_passes m i _ _ hrest, unitAfter_succ,
      unitList_succ, List.append_assoc, List.singleton_append]

/-- The walk ends at the first instruction that does not fit. -/
theorem framingWalk_firstUnfit {n i : Nat} (hi : i < n) (hfit : ∀ k < i, UnitFits x total (unitAfter x k 1))
    (h : ¬ UnitFits x total (unitAfter x i 1)) : framingWalk x total n 1 [] = .inl (unitAfter x i 1) := by
  obtain ⟨m, rfl⟩ : ∃ m, n = i + (m + 1) := ⟨n - i - 1, by omega⟩
  rw [framingWalk_passes _ _ _ _ hfit, framingWalk_unfit h]

theorem unitNonzero_iff (u k : Nat) :
    (decide (u ≤ k) && !((x.drop (16 * k)).take 16).all (· == 0)) = true ↔ u ≤ k ∧ ¬ UnitZero x k := by
  simp [UnitZero]

/-- Behind the instructions, the walk ends at the first unit that is not zero. -/
theorem framingWalk_firstNonzero {n k : Nat} (hfit : ∀ k < n, UnitFits x total (unitAfter x k 1))
    (hstart : unitAfter x n 1 ≤ k) (hk : k < total) (h : ¬ UnitZero x k)
    (hzero : ∀ v, unitAfter x n 1 ≤ v → v < k → UnitZero x v) : framingWalk x total n 1 [] = .inl k := by
  have hwalk := framingWalk_passes 0 n 1 [] hfit
  rw [Nat.add_zero] at hwalk
  have hfind : (List.range total).find? (fun k => decide (unitAfter x n 1 ≤ k) && !((x.drop (16 * k)).take 16).all (· == 0)) =
      some k := by
    rw [List.find?_range_eq_some]
    refine ⟨(unitNonzero_iff _ _).mpr ⟨hstart, h⟩, List.mem_range.mpr hk, fun j hj => ?_⟩
    rw [Bool.not_eq_true', Bool.eq_false_iff, ne_eq, unitNonzero_iff]
    exact fun hj' => hj'.2 (hzero j hj'.1 hj)
  rw [hwalk, framingWalk, hfind]

/-- The walk of an entry whose instructions fit and whose further units are zero gives where they start. -/
theorem framingWalk_good {n : Nat} (hfit : ∀ k < n, UnitFits x total (unitAfter x k 1))
    (hzero : ∀ v, unitAfter x n 1 ≤ v → v < total → UnitZero x v) : framingWalk x total n 1 [] = .inr (unitList x n 1) := by
  have hwalk := framingWalk_passes 0 n 1 [] hfit
  rw [Nat.add_zero] at hwalk
  have hfind : (List.range total).find? (fun k => decide (unitAfter x n 1 ≤ k) && !((x.drop (16 * k)).take 16).all (· == 0)) =
      none := by
    rw [List.find?_eq_none]
    intro k hk
    rw [unitNonzero_iff]
    exact fun h => h.2 (hzero k h.1 (List.mem_range.mp hk))
  rw [hwalk, framingWalk, hfind, List.nil_append]

end Framing

/-! The malformed checks (R92). -/

/-- The header of an entry passes: LEN fits the ring, and the CRC and the reserved bits are right (R92). -/
def HeaderGood (b : Block) (key : Nat) (x : List Byte) : Prop :=
  (1 ≤ hLen x ∧ hLen x ≤ 16) ∧ hLen x ≤ 2 ^ (sq b key).k - 1 ∧ fieldAt x 8 4 = crc32c (x.take 8 ++ zeros 4 ++ x.drop 12) ∧
    hFlags x < 4 ∧ fieldAt x 12 4 = 0

/-- The opcode at unit u is one that the queue may not hold. -/
def OpcodeBadAt (b : Block) (key : Nat) (x : List Byte) (u : Nat) : Prop :=
  opcodeBad (byteAt x (16 * u)) (isAdmin key) (pavSec b (sq b key).owner) = true

/-- The rules of the chain that is open in the queue, or is not, for an entry of good instructions (R92). -/
def chainChecks (chain : Option Chain) (x : List Byte) (instrs : List (List Byte)) : (Nat × Nat) ⊕ List (List Byte) :=
  match chain with
  | some ch =>
    let word := ch.cid + ch.slot * 65536
    if hFirst x then .inl (8, word)
    else if ch.members = 63 ∧ !hLast x then .inl (0xA, word)
    else if hCid x ≠ ch.cid ∨ hDeadline x ≠ ch.deadline then .inl (0xB, word)
    else .inr instrs
  | none => if hFirst x then .inr instrs else .inl (9, 0)

/-- The checks of instructions that pass the FRAMING walk: their opcodes, then the entry's CID, then the chain (R92). -/
def instrChecks (b : Block) (key : Nat) (x : List Byte) (us : List (Nat × Nat)) : (Nat × Nat) ⊕ List (List Byte) :=
  (us.find? (fun u => opcodeBad (byteAt x (16 * u.1)) (isAdmin key) (pavSec b (sq b key).owner))).elim
    (if hFirst x ∧ cidInUse b key (hCid x) then .inl (7, 0)
      else chainChecks (sq b key).chain x (us.map (fun u => (x.drop (16 * u.1)).take (16 * u.2))))
    (fun u => .inl (6, byteAt x (16 * u.1) + 256 * u.1))

section Opcodes

variable {b : Block} {key n : Nat} {x : List Byte}

theorem find?_unitList_some {i : Nat} (hi : i < n) (hgood : ∀ k < i, ¬ OpcodeBadAt b key x (unitAfter x k 1))
    (hbad : OpcodeBadAt b key x (unitAfter x i 1)) :
    (unitList x n 1).find? (fun u => opcodeBad (byteAt x (16 * u.1)) (isAdmin key) (pavSec b (sq b key).owner)) =
      some (unitAfter x i 1, byteAt x (16 * unitAfter x i 1 + 1)) := by
  rw [unitList, List.find?_map, Option.map_eq_some_iff]
  refine ⟨i, List.find?_range_eq_some.mpr ⟨hbad, List.mem_range.mpr hi, fun k hk => ?_⟩, rfl⟩
  simpa [OpcodeBadAt] using hgood k hk

theorem find?_unitList_none (hgood : ∀ i < n, ¬ OpcodeBadAt b key x (unitAfter x i 1)) :
    (unitList x n 1).find? (fun u => opcodeBad (byteAt x (16 * u.1)) (isAdmin key) (pavSec b (sq b key).owner)) = none := by
  rw [unitList, List.find?_map, Option.map_eq_none_iff, List.find?_eq_none]
  exact fun i hi => hgood i (List.mem_range.mp hi)

end Opcodes

section EntryChecks

variable {b : Block} {key : Nat} {x : List Byte}

theorem entryChecks_len (h : ¬ (1 ≤ hLen x ∧ hLen x ≤ 16)) : entryChecks b key x = .inl (1, 0) :=
  if_pos (by omega)

theorem entryChecks_ring (hlen : 1 ≤ hLen x ∧ hLen x ≤ 16) (h : 2 ^ (sq b key).k - 1 < hLen x) :
    entryChecks b key x = .inl (2, (sq b key).k) := by
  rw [entryChecks, if_neg (by omega), if_pos h]

section Ring

variable (hlen : 1 ≤ hLen x ∧ hLen x ≤ 16) (hring : hLen x ≤ 2 ^ (sq b key).k - 1)
include hlen hring

theorem entryChecks_crc (h : fieldAt x 8 4 ≠ crc32c (x.take 8 ++ zeros 4 ++ x.drop 12)) :
    entryChecks b key x = .inl (3, crc32c (x.take 8 ++ zeros 4 ++ x.drop 12)) := by
  rw [entryChecks, if_neg (by omega), if_neg (by omega), if_pos h]

theorem entryChecks_reserved (hcrc : fieldAt x 8 4 = crc32c (x.take 8 ++ zeros 4 ++ x.drop 12))
    (h : 4 ≤ hFlags x ∨ fieldAt x 12 4 ≠ 0) : entryChecks b key x = .inl (4, fieldAt x 12 4) := by
  rw [entryChecks, if_neg (by omega), if_neg (by omega), if_neg (not_not.mpr hcrc), if_pos h]

end Ring

section Header

variable (hheader : HeaderGood b key x)
include hheader

/-- Behind a good header comes the FRAMING walk, and behind the walk the checks of the instructions. -/
theorem entryChecks_headerGood : entryChecks b key x =
    if byteAt x 7 = 0 then .inl (5, 0)
    else (framingWalk x (4 * hLen x) (byteAt x 7) 1 []).elim (fun u => .inl (5, u)) (instrChecks b key x) := by
  obtain ⟨hlen, hring, hcrc, hflags, hzero⟩ := hheader
  rw [entryChecks, if_neg (by omega), if_neg (by omega), if_neg (not_not.mpr hcrc), if_neg (by omega)]
  split
  case isTrue => rfl
  case isFalse =>
    cases framingWalk x (4 * hLen x) (byteAt x 7) 1 [] with
    | inl u => rfl
    | inr us =>
      dsimp only [Sum.elim_inr, instrChecks]
      cases us.find? (fun u => opcodeBad (byteAt x (16 * u.1)) (isAdmin key) (pavSec b (sq b key).owner)) <;> rfl

theorem entryChecks_noInstr (h : byteAt x 7 = 0) : entryChecks b key x = .inl (5, 0) := by
  rw [entryChecks_headerGood hheader, if_pos h]

section Units

variable (h0 : byteAt x 7 ≠ 0)
include h0

theorem entryChecks_badUnit {u : Nat} (h : framingWalk x (4 * hLen x) (byteAt x 7) 1 [] = .inl u) :
    entryChecks b key x = .inl (5, u) := by
  rw [entryChecks_headerGood hheader, if_neg h0, h, Sum.elim_inl]

variable (hwalk : framingWalk x (4 * hLen x) (byteAt x 7) 1 [] = .inr (unitList x (byteAt x 7) 1))
include hwalk

theorem entryChecks_opcode {i : Nat} (hi : i < byteAt x 7) (hgood : ∀ k < i, ¬ OpcodeBadAt b key x (unitAfter x k 1))
    (hbad : OpcodeBadAt b key x (unitAfter x i 1)) :
    entryChecks b key x = .inl (6, byteAt x (16 * unitAfter x i 1) + 256 * unitAfter x i 1) := by
  rw [entryChecks_headerGood hheader, if_neg h0, hwalk, Sum.elim_inr, instrChecks, find?_unitList_some hi hgood hbad, Option.elim_some]

theorem entryChecks_opcodesGood (hgood : ∀ i < byteAt x 7, ¬ OpcodeBadAt b key x (unitAfter x i 1)) :
    entryChecks b key x = if hFirst x ∧ cidInUse b key (hCid x) then .inl (7, 0)
      else chainChecks (sq b key).chain x ((unitList x (byteAt x 7) 1).map (fun u => (x.drop (16 * u.1)).take (16 * u.2))) := by
  rw [entryChecks_headerGood hheader, if_neg h0, hwalk, Sum.elim_inr, instrChecks, find?_unitList_none hgood, Option.elim_none]

end Units

end Header

end EntryChecks

section ChainChecks

variable {x : List Byte} {instrs : List (List Byte)} {ch : Chain}

theorem chainChecks_first (h : hFirst x = true) : chainChecks (some ch) x instrs = .inl (8, ch.cid + ch.slot * 65536) :=
  if_pos h

theorem chainChecks_tooLong (h : hFirst x = false) (hm : ch.members = 63) (hl : hLast x = false) :
    chainChecks (some ch) x instrs = .inl (0xA, ch.cid + ch.slot * 65536) := by
  simp [chainChecks, h, hm, hl]

section Room

variable (h : hFirst x = false) (hm : ch.members ≠ 63 ∨ hLast x = true)
include h hm

/-- A chain of fewer than 63 members takes any next one, and one of 63 its last. -/
theorem chainChecks_room : chainChecks (some ch) x instrs =
    if hCid x ≠ ch.cid ∨ hDeadline x ≠ ch.deadline then .inl (0xB, ch.cid + ch.slot * 65536) else .inr instrs := by
  have hroom : ¬ (ch.members = 63 ∧ (!hLast x) = true) := by simpa [imp_iff_not_or] using hm
  rw [chainChecks, if_neg (by simp [h]), if_neg hroom]

theorem chainChecks_differs (hd : hCid x ≠ ch.cid ∨ hDeadline x ≠ ch.deadline) :
    chainChecks (some ch) x instrs = .inl (0xB, ch.cid + ch.slot * 65536) :=
  (chainChecks_room h hm).trans (if_pos hd)

theorem chainChecks_goesOn (hcid : hCid x = ch.cid) (hd : hDeadline x = ch.deadline) :
    chainChecks (some ch) x instrs = .inr instrs :=
  (chainChecks_room h hm).trans (if_neg (by simp [hcid, hd]))

end Room

theorem chainChecks_notFirst (h : hFirst x = false) : chainChecks none x instrs = .inl (9, 0) := if_neg (by simp [h])

theorem chainChecks_begins (h : hFirst x = true) : chainChecks none x instrs = .inr instrs := if_pos h

end ChainChecks

/-! The opcodes of a queue (R61, R92) and the operand checks (R128, R170). -/

theorem opcodeBad_admin (op : Nat) (secure : Bool) : opcodeBad op true secure = true ↔ op ∉ adminOps := by
  simp [opcodeBad]

theorem opcodeBad_tenant (op : Nat) (secure : Bool) :
    opcodeBad op false secure = true ↔ op ∉ tenantOps ∨ op = opRaw ∧ secure = false := by
  simp [opcodeBad]

section Operands

variable {b : Block} {n : Nat} {x : List Byte} {secure service : Bool}

theorem notPermitted_iff :
    notPermitted x secure service = true ↔ (iOp x = opFeatSet ∨ iOp x = opTrain) ∧ secure = false ∧ service = false := by
  simp [notPermitted, and_assoc]

theorem operandFail_denied (h : notPermitted x secure service = true) : operandFail b n x secure service = some (0, 9) :=
  if_pos h

section Permitted

variable (h : notPermitted x secure service = false)
include h

theorem operandFail_permitted : operandFail b n x secure service = firstFail (formFail x) (firstFail (paFail b n x) (hostFail x)) :=
  if_neg (by simp [h])

theorem operandFail_form {z : Nat × Nat} (hf : formFail x = some z) : operandFail b n x secure service = some z := by
  rw [operandFail_permitted h, hf, firstFail]

theorem operandFail_pa {z : Nat × Nat} (hf : formFail x = none) (hp : paFail b n x = some z) :
    operandFail b n x secure service = some z := by
  rw [operandFail_permitted h, hf, hp, firstFail, firstFail]

theorem operandFail_host (hf : formFail x = none) (hp : paFail b n x = none) :
    operandFail b n x secure service = hostFail x := by
  rw [operandFail_permitted h, hf, hp, firstFail, firstFail]

end Permitted

theorem formFail_nu (h : iNu x ≠ nuWanted x) : formFail x = some (1, 7) := if_pos h

section NuGood

variable (hnu : iNu x = nuWanted x)
include hnu

theorem formFail_reserved {o : Nat} (h : reservedAt x = some o) : formFail x = some (o, 7) := by
  simp [formFail, hnu, h]

theorem formFail_controlPa (hr : reservedAt x = none) (h : ctlPaZero x = false) : formFail x = some (8, 7) := by
  simp [formFail, hnu, hr, h]

theorem formFail_options (hr : reservedAt x = none) (h : ctlPaZero x = true) : formFail x = optionFail x := by
  simp [formFail, hnu, hr, h]

end NuGood

theorem optionFail_read (hop : iOp x = opRead ∨ iOp x = opSample) :
    (iCount x = 0 ∨ 8 < iCount x → optionFail x = some (3, 6)) ∧
    (1 ≤ iCount x → iCount x ≤ 8 → 16 < byteAt x 6 → optionFail x = some (6, 6)) := by
  simp only [optionFail, if_pos hop]
  exact ⟨fun h => if_pos h, fun hlo hhi h => (if_neg (by omega)).trans (if_pos h)⟩

theorem optionFail_relocate (hop : iOp x = opReloc) :
    (relocMode x = 3 ∨ relocPlace x = true ∧ relocMode x = 1 → optionFail x = some (2, 6)) ∧
    (relocMode x ≠ 3 → relocPlace x = false ∨ relocMode x ≠ 1 → iCount x = 0 ∨ 8 < iCount x → optionFail x = some (3, 6)) := by
  have hread : ¬ (iOp x = opRead ∨ iOp x = opSample) := by rw [hop]; decide
  simp only [optionFail, if_neg hread, if_pos hop]
  refine ⟨fun h => if_pos h, fun h3 h1 h => (if_neg ?_).trans (if_pos h)⟩
  rintro (hm | ⟨hp, hm⟩)
  · exact h3 hm
  · rcases h1 with hp' | hm'
    · exact absurd hp (by simp [hp'])
    · exact hm' hm

theorem optionFail_signal (hop : iOp x = opSignal) (h : byteAt x 5 = 0) : optionFail x = some (5, 6) := by
  simp [optionFail, hop, h, opSignal, opRead, opSample, opReloc]

theorem optionFail_raw (hop : iOp x = opRaw) :
    (iCount x = 0 ∨ 64 < iCount x → optionFail x = some (3, 6)) ∧
    (1 ≤ iCount x → iCount x ≤ 64 → ∀ i < iCount x, rawRecordOk x i (rawStats x i) = false →
      (∀ k < i, rawRecordOk x k (rawStats x k) = true) → optionFail x = some (32 + 2 * i, 6)) := by
  have hread : ¬ (iOp x = opRead ∨ iOp x = opSample) := by rw [hop]; decide
  have hreloc : ¬ iOp x = opReloc := by rw [hop]; decide
  have hsignal : ¬ iOp x = opSignal := by rw [hop]; decide
  simp only [optionFail, if_neg hread, if_neg hreloc, if_neg hsignal, if_pos hop]
  refine ⟨fun h => if_pos h, fun hlo hhi i hi hbad hgood => (if_neg (by omega)).trans ?_⟩
  have hfind : (List.range (iCount x)).find? (fun i => !rawRecordOk x i (rawStats x i)) = some i := by
    rw [List.find?_range_eq_some]
    exact ⟨by simp [hbad], List.mem_range.mpr hi, fun k hk => by simp [hgood k hk]⟩
  simp only [hfind]

end Operands

/-- Settles O15: the entry's checks one behind another, the opcodes as lists, and the operands' checks one behind another. -/
theorem checksRunInOrder : Obligations.ChecksRunInOrder := by
  refine ⟨fun b key x => ?entry, fun op secure => ⟨opcodeBad_admin op secure, opcodeBad_tenant op secure⟩,
    fun b n x secure service => ?operands⟩
  case entry =>
    intro q crc len header total nu start fits zero framed op bad good
    have hwalked (hf : framed) : framingWalk x (4 * hLen x) (byteAt x 7) 1 [] = .inr (unitList x (byteAt x 7) 1) := by
      obtain ⟨-, hfit, hzero⟩ := hf
      exact framingWalk_good hfit hzero
    have hbehind (hg : good) : entryChecks b key x = chainChecks q.chain x
        ((unitList x (byteAt x 7) 1).map (fun u => (x.drop (16 * u.1)).take (16 * u.2))) := by
      obtain ⟨hheader, hframed, hops, hcid⟩ := hg
      exact (entryChecks_opcodesGood hheader hframed.1 (hwalked hframed) hops).trans (if_neg hcid)
    refine ⟨entryChecks_len, entryChecks_ring, entryChecks_crc, entryChecks_reserved, entryChecks_noInstr, ?unfit, ?nonzero,
      ?opcode, ?cid, ?chain, ?notFirst, ?passes⟩
    case unfit =>
      intro hh i hi hfit hunfit
      exact entryChecks_badUnit hh (by omega) (framingWalk_firstUnfit hi hfit hunfit)
    case nonzero =>
      intro hh h0 hfit u hstart hu hnonzero hzero
      exact entryChecks_badUnit hh h0 (framingWalk_firstNonzero hfit hstart hu hnonzero hzero)
    case opcode =>
      intro hh hf i hi hgood hbad
      exact entryChecks_opcode hh hf.1 (hwalked hf) hi hgood hbad
    case cid =>
      intro hh hf hgood hfirst hcid
      exact (entryChecks_opcodesGood hh hf.1 (hwalked hf) hgood).trans (if_pos ⟨hfirst, hcid⟩)
    case chain =>
      intro hg ch hch word
      have hchain := hbehind hg
      rw [hch] at hchain
      exact ⟨fun h => hchain.trans (chainChecks_first h), fun h hm hl => hchain.trans (chainChecks_tooLong h hm hl),
        fun h hm hd => hchain.trans (chainChecks_differs h hm hd)⟩
    case notFirst =>
      intro hg hch h
      have hchain := hbehind hg
      rw [hch] at hchain
      exact hchain.trans (chainChecks_notFirst h)
    case passes =>
      intro hg hpass
      have hinstrs : (unitList x (byteAt x 7) 1).map (fun u => (x.drop (16 * u.1)).take (16 * u.2)) =
          (List.range (byteAt x 7)).map (fun i => (x.drop (16 * start i)).take (16 * nu (start i))) := by
        rw [unitList, List.map_map]
        rfl
      rw [← hinstrs, hbehind hg]
      rcases hpass with ⟨hch, h⟩ | ⟨ch, hch, h, hm, hcid, hd⟩
      · rw [hch]
        exact chainChecks_begins h
      · rw [hch]
        exact chainChecks_goesOn h hm hcid hd
  case operands =>
    intro fails ready passes
    have hoptions (hr : ready) {z : Nat × Nat} (hz : optionFail x = some z) : operandFail b n x secure service = some z := by
      obtain ⟨hperm, hnu, hres, hpa⟩ := hr
      exact operandFail_form hperm ((formFail_options hnu hres hpa).trans hz)
    refine ⟨notPermitted_iff, operandFail_denied, fun hp h => operandFail_form hp (formFail_nu h),
      fun hp hnu o h => operandFail_form hp (formFail_reserved hnu h),
      fun hp hnu hr h => operandFail_form hp (formFail_controlPa hnu hr h), ?read, ?relocate,
      fun hr hop h => hoptions hr (optionFail_signal hop h), ?raw, fun hp z hz => operandFail_form hp hz,
      fun hp z hz => operandFail_pa hp.1 hp.2 hz, fun hp hz => operandFail_host hp.1 hp.2 hz⟩
    case read =>
      intro hr hop
      obtain ⟨hcount, hretry⟩ := optionFail_read hop
      exact ⟨fun h => hoptions hr (hcount h), fun hlo hhi h => hoptions hr (hretry hlo hhi h)⟩
    case relocate =>
      intro hr hop
      obtain ⟨hmode, hcount⟩ := optionFail_relocate hop
      exact ⟨fun h => hoptions hr (hmode h), fun h3 h1 h => hoptions hr (hcount h3 h1 h)⟩
    case raw =>
      intro hr hop
      obtain ⟨hcount, hrecord⟩ := optionFail_raw hop
      exact ⟨fun h => hoptions hr (hcount h),
        fun hlo hhi i hi hbad hgood => hoptions hr (hrecord hlo hhi i hi hbad hgood)⟩

end Sys2Proof.Laws

/-! The admin commands (R107 to R116, R396 to R400) by the checks that their operands pass. -/

namespace Sys2Proof.Laws

open Sys2Proof Sys2Proof.Machine

/-! What the commands of an executor share. -/

section Executor

variable {s : State} {p op : Nat} {x : List Byte}

/-- The instruction at which an executor stands has not begun, so nothing of it is started. -/
theorem adminStarted_of (h : AdminAt s p op x) : adminStarted s.blk p = false := by
  obtain ⟨-, -, -, -, ex, hexec, hstarted, -⟩ := h
  simp [adminStarted, hexec, hstarted]

/-- A command of the executor whose effect on the instruction is `b`. -/
theorem exec_of_adminRun (h : AdminAt s p op x) {f : List Byte → Block → Block} {b : Block} (hf : f x s.blk = b) :
    s.act (adminRun p op f) = .next (after s b) :=
  act_of_eq ((adminRun_of h f).trans hf)

theorem addrBad_of_aligned {a n : Nat} (ha : a % n = 0) (hb : a < 2 ^ 48) : addrBad a n = false := by
  simp only [addrBad, ha, not_le.mpr hb]
  rfl

end Executor

/-! Queues (R108 to R114). -/

section Queues

variable {b : Block} {p q c : Nat}

/-- SQ.CREATE takes slot 0 from a secure pavilion, and a LIVE slot from its owner. -/
theorem sqKey_good {ks : Nat} (h : ks = 0 ∧ pavSec b p = true ∨ ks ≠ 0 ∧ (keySlot b ks).st = .live ∧ (keySlot b ks).owner = p) :
    ¬ (ks ≠ 0 ∧ ((keySlot b ks).st = .empty ∨ (keySlot b ks).owner ≠ p)) ∧ ¬ (ks = 0 ∧ (!pavSec b p) = true) ∧
      ¬ (ks ≠ 0 ∧ (keySlot b ks).st = .void) := by
  rcases h with ⟨h0, hsec⟩ | ⟨h0, hlive, hown⟩
  · simp [h0, hsec]
  · simp [h0, hlive, hown]

/-- A service queue needs PV_CFG.SERVICE, a lane of the build and that lane's class free (R108, R109); any other queue none of these. -/
theorem sqService_good {svc : Bool} {n cls : Nat}
    (h : svc = true → rbit b (pavReg p 0xD000) 2 = true ∧ n < b.build.lanes ∧ serviceQueue b n cls = none) :
    (svc && !rbit b (pavReg p 0xD000) 2) = false ∧ (svc && decide (b.build.lanes ≤ n)) = false ∧
      (svc && (serviceQueue b n cls).isSome) = false := by
  cases svc with
  | false => simp
  | true =>
    obtain ⟨hcfg, hlane, hfree⟩ := h rfl
    simp [hcfg, hlane, hfree]

theorem fetchGone_cmds (b : Block) (q : Nat) : (fetchGone b q).cmds = b.cmds := by
  unfold fetchGone
  dsimp only
  split <;> rfl

theorem ringSize_good {k : Nat} (h4 : 4 ≤ k) (h16 : k ≤ 16) : ¬ (k < 4 ∨ 16 < k) := by omega

/-- The commands outstanding of a queue are those of another block with the same commands: none. -/
theorem outstanding_none {b' : Block} (hcmds : b'.cmds = b.cmds) (h : ∀ y ∈ b.cmds, y.2.sq ≠ q) :
    b'.cmds.filter (fun y => decide (y.2.sq = q)) = [] := by
  rw [hcmds, List.filter_eq_nil_iff]
  exact fun y hy => by simpa using h y hy

/-- A vector to which VECTOR.BIND may bind passes its checks: none, or a tenant's of the pavilion's range that no other has (R114). -/
theorem vector_good {v : Nat} (h : v = 0 ∨ 64 ≤ v ∧ granted b p 0xD01C v = true ∧ vectorTaken b p v = false) :
    ¬ (v ≠ 0 ∧ (v < 64 ∨ (!granted b p 0xD01C v) = true ∨ vectorTaken b p v = true)) := by
  rintro ⟨hv, hbad⟩
  rcases h with rfl | ⟨h64, hgrant, hfree⟩
  · exact hv rfl
  · simp [hgrant, hfree] at hbad
    omega

theorem resumeOk_iff (y : Sq) (slot : Nat) : resumeOk y slot = true ↔ (slot + 2 ^ y.k - y.head) % 2 ^ y.k ≤ y.posted :=
  decide_eq_true_iff

end Queues

/-- Settles O18: each command by the checks that its operands pass, in their order. -/
theorem queueCommands : Obligations.QueueCommands := by
  refine ⟨fun s p x => ⟨?sqCreate, ?cqCreate⟩, fun s p x => ⟨?sqDelete, ?cqDelete⟩,
    fun s p x => ⟨?resumes, ?slots, ?binds⟩⟩
  case sqCreate =>
    intro h q c ks svc cls n hnumber hgrant hfree hring hwhole hk4 hk16 hservice hkey halign hlow
    obtain ⟨hcfg, hlane, hclass⟩ := sqService_good hservice
    obtain ⟨hslot, hzero, hvoid⟩ := sqKey_good hkey
    refine exec_of_adminRun h ?_
    simp only [q, c, ks, svc, cls, n] at *
    simp only [if_neg (not_le.mpr hnumber), hgrant, hfree, hring, hwhole, if_neg (ringSize_good hk4 hk16),
      hcfg, hlane, hclass, if_neg hslot, if_neg hzero, if_neg hvoid, addrBad_of_aligned halign hlow]
    rfl
  case cqCreate =>
    intro h c hnumber hgrant hfree hk4 hk16 halign hlow
    refine exec_of_adminRun h ?_
    simp only [c] at *
    simp only [if_neg (not_le.mpr hnumber), hgrant, hfree, if_neg (ringSize_good hk4 hk16),
      addrBad_of_aligned halign hlow]
    rfl
  case sqDelete =>
    intro h hown hchain hnone
    refine exec_of_adminRun h ?_
    have hout := outstanding_none (b' := adminWait (fetchGone (updSq s.blk (aId x) fun y => { y with deleting := true, chain := none })
      (aId x)) p) (fetchGone_cmds _ _) hnone
    simp only [adminStarted_of h, hown, hchain, hout]
    rfl
  case cqDelete =>
    intro h hown hbound
    refine exec_of_adminRun h ?_
    simp only [hown, hbound]
  case resumes =>
    intro h hown hstopped hslot
    refine exec_of_adminRun h ?_
    simp only [hown, hstopped, hslot]
    rfl
  case slots =>
    intro h hown hstopped y
    refine ⟨(resumeOk_iff _ _).symm, fun hslot => exec_of_adminRun h ?_⟩
    simp only [y] at hslot
    simp only [hown, hstopped, hslot]
    rfl
  case binds =>
    intro h v t hown hvector htarget hcount htime
    refine exec_of_adminRun h ?_
    simp only [v, t] at *
    simp only [hown, if_neg (vector_good hvector), htarget, if_neg hcount, if_neg htime]
    rfl

/-! Keys (R115, R396 to R400). -/

/-- A key slot in which the test mode planted nothing is read as it is (R454). -/
theorem readKey_unplanted {b : Block} {k : Nat} (hlive : (keySlot b k).st = .live) (h : plantedKeys b k = []) :
    readKey b k = (true, b) := by
  unfold readKey
  split
  · rfl
  · simp only [hlive, h, List.filter_nil, each, List.foldl_nil, List.find?_nil]
    rfl

/-- Settles O19: each command by the checks that its slot passes, in their order. -/
theorem keyCommands : Obligations.KeyCommands := by
  intro s p x b k hrange
  simp only [b, k] at *
  refine ⟨?create, ?destroy, ?load, ?exports, readKey_unplanted⟩
  case create =>
    intro h hretired hempty hfailed hready
    refine exec_of_adminRun h ?_
    simp only [hretired, hrange, hempty, hfailed, hready]
    rfl
  case destroy =>
    intro h hfull hbound
    refine exec_of_adminRun h ?_
    simp only [hrange, if_neg hfull, hbound]
    rfl
  case load =>
    intro h hretired wk hwrap hempty haddr
    refine exec_of_adminRun h ?_
    simp only [adminStarted_of h, hretired, hwrap, hrange, hempty, haddr]
    rfl
  case exports =>
    intro h wk hwrap hlive hexportable haddr
    refine ⟨fun hread => exec_of_adminRun h ?_, fun hread => exec_of_adminRun h ?_⟩ <;>
    · simp only [adminStarted_of h, hwrap, hrange, hlive, hexportable, haddr, hread]
      rfl

/-! Stripes (R116). -/

/-- Settles O20: each command by the checks that its stripe passes, in their order, and a close that is taken by what is left. -/
theorem stripeCommands : Obligations.StripeCommands := by
  refine ⟨fun s p x => ?commands, fun s n st hclosing hasked hruns => ?taken⟩
  case commands =>
    intro b st a n last lanes hnamed
    simp only [b, st, a, n, last, lanes] at *
    refine ⟨?opens, ?adds, ?ends, ?asks⟩
    case opens =>
      intro h hshut
      refine exec_of_adminRun h ?_
      simp only [hnamed, hshut]
      rfl
    case adds =>
      intro h hopen hroom hlane hdie hnew hpage
      have hplace : ¬ (s.blk.build.lanes ≤ paLane (iPa x) ∨ (!dieValid s.blk (paLane (iPa x)) (paDie (iPa x))) = true) := by
        simp [hlane, hdie]
      refine exec_of_adminRun h ?_
      simp only [hnamed, hopen, hnew, if_neg (not_le.mpr hroom), if_neg hplace, if_neg (not_lt.mpr hpage)]
      rfl
    case ends =>
      intro h hopen hnone
      refine exec_of_adminRun h ?_
      simp only [adminStarted_of h, hnamed, hopen, hnone]
      rfl
    case asks =>
      intro h hopen hsome
      refine exec_of_adminRun h ?_
      simp only [adminStarted_of h, hnamed, hopen, List.isEmpty_iff, if_neg hsome]
      rfl
  case taken =>
    intro b rest
    simp only [b, rest]
    have htaken := And.intro hclosing (And.intro hasked hruns)
    refine ⟨fun hsome => act_of_eq ?_, fun hnone p hcloser => act_of_eq ?_⟩
    · simp only [stripeCloseTaken, if_pos htaken, List.isEmpty_iff, if_neg hsome]
    · simp only [stripeCloseTaken, if_pos htaken, hnone, hcloser]
      rfl

end Sys2Proof.Laws

/-! A pavilion's own registers (R95, R98, R102 to R104, R387) and the end of its reset (R443). -/

namespace Sys2Proof.Laws

open Sys2Proof Sys2Proof.Machine

/-! PV_CFG, the ranges and the admin registers, each write by its cases. -/

section Writes

variable {s : State} {b : Block} {p : Nat} {v : Word}

theorem pavReg_aligned (p : Nat) {o : Nat} (ho : o % 4 = 0) : pavReg p o % 4 = 0 := by
  unfold pavReg; omega

/-- Both commands that write PV_CFG are one write of it. -/
theorem exec_pvCfg {c : Instr} {sec : Bool} (hc : c ∈ [Instr.pvCfgWrite p v sec, .pvReset p v sec]) :
    exec c s = (regWrite4 s (pavReg p 0xD000) sec (pvCfgWrite p v sec)).settled := by
  rcases List.mem_pair.mp hc with rfl | rfl <;> rfl

theorem pvCfgWrite_nonSecure (b : Block) : pvCfgWrite p v false b = b := rfl

theorem pvCfgWrite_bad (h : fld v 2 1 ≠ rfld b (pavReg p 0xD000) 2 1) (hbusy : pavIdle b p = false) :
    pvCfgWrite p v true b = rset1 b (pavReg p 0xD000) 5 := by
  simp only [pvCfgWrite, if_pos (And.intro h hbusy)]
  rfl

theorem pvCfgWrite_taken (h : fld v 2 1 = rfld b (pavReg p 0xD000) 2 1 ∨ pavIdle b p = true) :
    pvCfgWrite p v true b =
      if v.getLsbD 4 then pavResetStart p (plainWrite b (pavReg p 0xD000) 0xFFFFFFFF v)
      else plainWrite b (pavReg p 0xD000) 0xFFFFFFFF v := by
  have htaken : ¬ (fld v 2 1 ≠ rfld b (pavReg p 0xD000) 2 1 ∧ pavIdle b p = false) := by
    rcases h with h | h <;> simp [h]
  simp only [pvCfgWrite, Bool.not_true, Bool.false_eq_true, if_false, if_neg htaken]

theorem pvRangeWrite_nonSecure (p o : Nat) (v : Word) (b : Block) : pvRangeWrite p o v false b = b := rfl

theorem pvRangeWrite_same {o : Nat} (h : v = rget b (pavReg p o)) : pvRangeWrite p o v true b = b :=
  if_pos (by simp [h])

theorem pvRangeWrite_changes {o : Nat} (h : v ≠ rget b (pavReg p o)) :
    pvRangeWrite p o v true b = if pavIdle b p then rput b (pavReg p o) v else rset1 b (pavReg p 0xD000) 5 :=
  if_neg (by simp [h])

theorem pvGrantWrite_secure (p o : Nat) (v : Word) (b : Block) :
    pvGrantWrite p o v true b = plainWrite b (pavReg p o) 0xFFFFFFFF v := by
  simp only [pvGrantWrite, if_true]

theorem pvGrantWrite_nonSecure (p o : Nat) (v : Word) (b : Block) : pvGrantWrite p o v false b = b := by
  simp only [pvGrantWrite, Bool.false_eq_true, if_false]

/-- The registers of a pavilion's ranges (R95, R97). -/
def rangeRegs : List Nat := [0xD010, 0xD014, 0xD018, 0xD01C, 0xD020]

/-- The byte mask of a 4 B write at offset o. -/
def wordMask (o : Nat) : BitVec 8 := if o % 8 = 0 then 0x0F else 0xF0

theorem rangeRegs_bounds : ∀ o ∈ rangeRegs, 0xD010 ≤ o ∧ o ≤ 0xD020 ∧ o % 4 = 0 := by decide

theorem pavWrite_range {o : Nat} (ho : o ∈ rangeRegs) (v : Word) (sec : Bool) (b : Block) :
    pavWrite (pavReg p o) v sec b = pvRangeWrite p o v sec b := by
  obtain ⟨hlow, hhigh, -⟩ := rangeRegs_bounds o ho
  have hpav : (pavReg p o - 0x200000) / 0x10000 = p ∧ pavReg p o % 0x10000 = o := by
    unfold pavReg; omega
  simp only [pavWrite, hpav]
  simp (disch := omega) only [if_neg, if_pos]

/-- A 4 B write of a range register, through the general access (R27). -/
theorem registerWrite_range {o : Nat} (ho : o ∈ rangeRegs) (hp : p < 16) (v : Word) (sec : Bool) (s : State) :
    registerWrite (pavReg p o) (wordMask o) (v ++ v) sec s = { s with blk := pvRangeWrite p o v sec s.blk } := by
  obtain ⟨-, hlast, -⟩ := rangeRegs_bounds o ho
  have hwindow : 0x200000 ≤ pavReg p o ∧ pavReg p o < 0x300000 := by unfold pavReg; omega
  have hmask : wordMask o ≠ 0xFF := by unfold wordMask; split <;> decide
  have hhalf : (v ++ v).extractLsb' 0 32 = v ∧ (v ++ v).extractLsb' 32 32 = v :=
    ⟨BitVec.extractLsb'_append_eq_right, BitVec.extractLsb'_append_eq_left⟩
  have hword : writeWord (pavReg p o) v sec s.blk = pvRangeWrite p o v sec s.blk := by
    rw [← pavWrite_range ho]
    simp (disch := omega) only [writeWord, if_neg, if_pos]
  rw [registerWrite_words (.inr (by omega)) (.inl hmask)]
  simp only [if_neg hmask, hhalf, ite_self, hword]

theorem maskFits_range {o : Nat} (ho : o ∈ rangeRegs) (p : Nat) : maskFits (pavReg p o) (wordMask o) = true := by
  obtain ⟨-, -, hword⟩ := rangeRegs_bounds o ho
  have hfit := maskFits_word (pavReg_aligned p hword)
  have hoff : pavReg p o % 8 = o % 8 := by unfold pavReg; omega
  rwa [hoff] at hfit

theorem exec_rangeWrite {o : Nat} (ho : o ∈ rangeRegs) (hp : p < 16) (h : PortTakes s (pavReg p o)) {g : Block → Block}
    (hg : pvRangeWrite p o v true s.blk = g s.blk) :
    exec (.registerWrite (pavReg p o) (wordMask o) (v ++ v) true) s = .next (afterWrite s g) := by
  rw [exec_registerWrite, portWrite_of_takes h (maskFits_range ho p), registerWrite_range ho hp, settled_eq]
  simp only [hg]
  rfl

theorem exec_rangeWrite_ignored {o : Nat} (ho : o ∈ rangeRegs) (hp : p < 16) (h : PortTakes s (pavReg p o)) :
    exec (.registerWrite (pavReg p o) (wordMask o) (v ++ v) false) s = .next (afterIgnored s (pavReg p o)) :=
  portWrite_ignored h (maskFits_range ho p) fun s => registerWrite_range ho hp v false s

/-- Both commands that write PV_ADM_CTRL are one write of it. -/
theorem exec_pvAdm {c : Instr} (hc : c ∈ [Instr.pvAdmEnable p v true, .pvAdmDisable p v true]) (h : PortTakes s (pavReg p 0xC210))
    {g : Block → Block} (hg : pvAdmWrite p v s.blk = g s.blk) : exec c s = .next (afterWrite s g) := by
  have hwrite : exec c s = (regWrite4 s (pavReg p 0xC210) true (pvAdmWrite p v)).settled := by
    rcases List.mem_pair.mp hc with rfl | rfl <;> rfl
  exact hwrite.trans (regWrite4_of_eq h (pavReg_aligned p (by decide)) hg)

/-- A 1 written to PV_ADM_CTRL.ERR clears it. -/
def admErrWritten (p : Nat) (v : Word) (b : Block) : Block := if v.getLsbD 1 then rclr1 b (pavReg p 0xC210) 1 else b

/-- SQ_K and CQ_K take what is written. -/
def admSizesWritten (p : Nat) (v : Word) (b : Block) : Block :=
  rputF (rputF (admErrWritten p v b) (pavReg p 0xC210) 12 8 (fld v 12 8)) (pavReg p 0xC210) 20 16 (fld v 20 16)

/-- The admin queue's bases and sizes are good (R102). -/
def admGood (p : Nat) (v : Word) (b : Block) : Bool :=
  baseOk (rget64 b (pavReg p 0xC200)) && baseOk (rget64 b (pavReg p 0xC208)) && kOk (fld v 12 8) && kOk (fld v 20 16)

section AdminOn

variable (hon : rbit b (pavReg p 0xC210) 0 = true)
include hon

theorem pvAdmWrite_goesOn (hen : v.getLsbD 0 = true) : pvAdmWrite p v b = admErrWritten p v b := by
  simp only [pvAdmWrite, hon, hen, if_true, admErrWritten]

theorem pvAdmWrite_stops (hen : v.getLsbD 0 = false) : pvAdmWrite p v b = admStop p (admErrWritten p v b) := by
  simp only [pvAdmWrite, hon, hen, if_true, Bool.false_eq_true, if_false, admErrWritten]

end AdminOn

section AdminOff

variable (hoff : rbit b (pavReg p 0xC210) 0 = false)
include hoff

theorem pvAdmWrite_sizes (hen : v.getLsbD 0 = false) : pvAdmWrite p v b = admSizesWritten p v b := by
  simp only [pvAdmWrite, hoff, hen, Bool.false_eq_true, if_false, Bool.not_false, if_true, admSizesWritten, admErrWritten]

theorem pvAdmWrite_enables (hen : v.getLsbD 0 = true) :
    pvAdmWrite p v b = if admGood p v (admSizesWritten p v b) then admStart p (fld v 12 8) (fld v 20 16) (admSizesWritten p v b)
      else rset1 (admSizesWritten p v b) (pavReg p 0xC210) 1 := by
  simp only [pvAdmWrite, hoff, hen, Bool.false_eq_true, if_false, Bool.not_true, admGood, admSizesWritten, admErrWritten]
  rfl

end AdminOff

theorem pvAdmResume_goesOn (hlive : (sq b (4096 + p)).live = true) (hstopped : (sq b (4096 + p)).stopped = true)
    (hslot : resumeOk (sq b (4096 + p)) (fld v 15 0) = true) : pvAdmResume p v b = resumeSq b (4096 + p) (fld v 15 0) :=
  if_pos (by simp [hlive, hstopped, hslot])

theorem pvAdmResume_bad (h : (sq b (4096 + p)).live = false ∨ (sq b (4096 + p)).stopped = false ∨
    resumeOk (sq b (4096 + p)) (fld v 15 0) = false) : pvAdmResume p v b = rset1 b (pavReg p 0xC210) 1 :=
  if_neg (by rcases h with h | h | h <;> simp [h])

end Writes

/-! What a run of effects establishes, and what the router's settling leaves. -/

section Runs

variable {α : Type} {P : Block → Prop} {f : Block → α → Block}

/-- A fact that each effect of a run keeps holds behind the run. -/
theorem each_preserves (hf : ∀ b x, P b → P (f b x)) : ∀ (l : List α) (b : Block), P b → P (each l f b)
  | [], _, h => h
  | x :: l, b, h => each_preserves hf l (f b x) (hf b x h)

/-- A fact that one effect of a run establishes, and each keeps, holds behind the run. -/
theorem each_establishes {x : α} (hx : ∀ b, P (f b x)) (hf : ∀ b y, P b → P (f b y)) :
    ∀ (l : List α) (b : Block), x ∈ l → P (each l f b)
  | [], _, h => absurd h List.not_mem_nil
  | y :: l, b, h => by
    rcases List.mem_cons.mp h with rfl | h
    · exact each_preserves hf l (f b x) (hx b)
    · exact each_establishes hx hf l (f b y) h

/-- Settling changes the sources and the wake lines only (R378). -/
theorem settle_keeps {β : Type} (g : Block → β) (h : ∀ b srcs wake, g { b with srcs := srcs, wake := wake } = g b) (b : Block) :
    g (settle b) = g b := by
  unfold settle
  split
  · rfl
  · exact h b _ _

end Runs

/-! What the end of a pavilion's reset removes (R103, R110, R111, R443). -/

/-- The build and the key slots. -/
def buildAndKeys (b : Block) : Build × Tab KeySlot := (b.build, b.keys)

section Rings

variable (b : Block)

theorem holdStep_buildAndKeys (d : Nat) (blocked : Bool) (acc : Block × List Compl) (x : Compl) :
    buildAndKeys (holdStep d blocked acc x).1 = buildAndKeys acc.1 := by
  unfold holdStep
  split
  · rfl
  · dsimp only
    split <;> rfl

theorem holdSteps_buildAndKeys (d : Nat) (blocked : Bool) : ∀ (l : List Compl) (acc : Block × List Compl),
    buildAndKeys (l.foldl (holdStep d blocked) acc).1 = buildAndKeys acc.1
  | [], _ => rfl
  | x :: l, acc => (holdSteps_buildAndKeys d blocked l _).trans (holdStep_buildAndKeys d blocked acc x)

theorem rehold_buildAndKeys (d : Nat) : buildAndKeys (rehold b d) = buildAndKeys b := by
  unfold rehold
  dsimp only
  split
  · rfl
  · exact holdSteps_buildAndKeys ..

theorem rehold_live (d c : Nat) : (cq (rehold b d) c).live = (cq b c).live := by
  unfold rehold
  dsimp only
  split
  · rfl
  · have hcq (c : Nat) : cq ((cq b d).wait.foldl (holdStep d (cq b d).blocked) (b, [])).1 c = cq b c :=
      congrArg (fun r => tget Cq.none (Prod.fst r) c) (holdSteps_ringsOf ..)
    by_cases h : c = d
    · subst h
      rw [cq_updCq_same, hcq]
    · rw [cq_updCq_other _ _ _ _ h, hcq]

/-- The block in which the completions for ring c are dropped, with their commands and their holding entries. -/
def complsDropped (b : Block) (c : Nat) : Block :=
  let held := ((laneNums b).flatMap (fun n => (lane b n).holding.filter (fun y => decide (y.1 = c)))).map (·.2)
  let b := each ((cq b c).wait ++ held) (fun b x => each x.cmds retire b) b
  each (laneNums b) (fun b n =>
    if (lane b n).holding.any (fun y => decide (y.1 = c)) then
      updLane b n (fun l => { l with holding := l.holding.filter (fun y => decide (y.1 ≠ c)) })
    else b) b

/-- The block without ring c, whose writes' responses are discarded. -/
def ringErased (b : Block) (c : Nat) : Block :=
  { b with
    cqs := terase b.cqs c
    bursts := b.bursts.map (fun x => match x.owner with
      | .comp c' _ => if c' = c then { x with dropped := true } else x
      | _ => x) }

theorem removeCq_eq (b : Block) (c : Nat) : removeCq b c = reholdAll (ringErased (complsDropped b c) c) := rfl

/-- What a dropped completion leaves: neither retiring a command nor a holding entry reaches the rings, the keys or the build. -/
theorem complsDropped_keeps {β : Type} (g : Block → β) (hcmds : ∀ b c, g (retire b c) = g b)
    (hlane : ∀ b n f, g (updLane b n f) = g b) (b : Block) (c : Nat) : g (complsDropped b c) = g b := by
  unfold complsDropped
  refine (each_keeps g _ (fun b n => ?_) _ _).trans (each_keeps g _ (fun b x => each_keeps g retire hcmds _ b) _ b)
  split
  · exact hlane b n _
  · rfl

theorem removeCq_buildAndKeys (c : Nat) : buildAndKeys (removeCq b c) = buildAndKeys b :=
  (each_keeps buildAndKeys rehold rehold_buildAndKeys _ _).trans
    (complsDropped_keeps buildAndKeys (fun _ _ => rfl) (fun _ _ _ => rfl) b c)

theorem removeCq_live (c d : Nat) : (cq (removeCq b c) d).live = if d = c then false else (cq b d).live := by
  have hrehold : (cq (removeCq b c) d).live = (tget Cq.none (terase (complsDropped b c).cqs c) d).live :=
    each_keeps (fun b => (cq b d).live) rehold (fun b e => rehold_live b e d) _ _
  rw [hrehold, complsDropped_keeps Block.cqs (fun _ _ => rfl) (fun _ _ _ => rfl)]
  split
  case isTrue h => rw [h, tget_terase_same]; rfl
  case isFalse h => rw [tget_terase_other _ _ _ _ h]; rfl

end Rings

section Queues

variable {b : Block}

theorem keySlot_emptySlot_other (b : Block) {k j : Nat} (h : j ≠ k) : keySlot (emptySlot b k) j = keySlot b j := by
  simp only [emptySlot, keySlot, updKey, unplantKey]
  rw [tget_tset_other _ _ _ _ _ _ h]

/-- Slot j is LIVE with its key. -/
def LiveKey (j : Nat) (x : KeySlot) (b : Block) : Prop := x.st = .live ∧ keySlot b j = x

/-- Freeing a VOID slot leaves every LIVE one (R402). -/
theorem freeVoid_liveKey {j : Nat} {x : KeySlot} (h : LiveKey j x b) (k : Nat) : LiveKey j x (freeVoid b k) := by
  obtain ⟨hlive, hslot⟩ := h
  unfold freeVoid
  split
  case isFalse => exact ⟨hlive, hslot⟩
  case isTrue hvoid =>
    have hne : j ≠ k := by
      rintro rfl
      simp [hslot, hlive] at hvoid
    exact ⟨hlive, (keySlot_emptySlot_other b hne).trans hslot⟩

theorem removeSq_liveKey {j : Nat} {x : KeySlot} (h : LiveKey j x b) (q : Nat) : LiveKey j x (removeSq b q) :=
  freeVoid_liveKey (b := { b with sqs := terase b.sqs q }) h _

theorem removeSq_buildAndCqs (b : Block) (q : Nat) : (removeSq b q).build = b.build ∧ (removeSq b q).cqs = b.cqs := by
  simp only [removeSq, freeVoid]
  split
  · simp only [emptySlot, updKey, unplantKey, and_self]
  · exact ⟨rfl, rfl⟩

end Queues

/-! The end of a pavilion's reset, step by step (R443). -/

/-- The completion queues of pavilion p. -/
def pavRings (p : Nat) (b : Block) : List Nat := (b.cqs.filter (fun x => x.2.live && decide (x.2.owner = p))).map (·.1)

/-- Pavilion p's submission queues go, with their commands. -/
def queuesGone (p : Nat) (b : Block) : Block :=
  each ((b.sqs.filter (fun x => x.2.live && decide (x.2.owner = p))).map (·.1))
    (fun b q => removeSq (each ((b.cmds.filter (fun y => decide (y.2.sq = q))).map (·.1)) retire b) q) b

/-- The stripes of pavilion p. -/
def pavStripes (p : Nat) (b : Block) : List Nat := (b.stripes.filter (fun x => decide (x.2.owner = p))).map (·.1)

/-- Pavilion p's waymarks go in every lane, and what the lanes were asked to close of the stripes. -/
def lanesCleared (p : Nat) (sts : List Nat) (b : Block) : Block :=
  each (laneNums b) (fun b n => updLane b n (fun l =>
    { l with
      waymarks := l.waymarks.filter (fun x => decide (x.1 / 16 ≠ p)), closes := l.closes.filter (fun st => !sts.contains st) })) b

/-- The block without a stripe. -/
def stripeErased (b : Block) (st : Nat) : Block := { b with stripes := terase b.stripes st }

/-- Pavilion p's stripes and waymarks go. -/
def stripesGone (p : Nat) (b : Block) : Block := lanesCleared p (pavStripes p b) (each (pavStripes p b) stripeErased b)

/-- Pavilion p is at rest, but for a transfer that its executor still has in flight. -/
def pavAtRest (p : Nat) (b : Block) : Block :=
  updPav b p (fun v => { Pav.init with exec := v.exec.filter (fun x => decide (x.left ≠ 0)), errRaised := v.errRaised })

/-- Both enables of pavilion p and its PM_PVRST bit are clear, and PVRST_DONE is set. -/
def resetShown (p : Nat) (b : Block) : Block :=
  rset1 (rclr1 (rclr1 (rclr1 b (pavReg p 0xD000) 0) (pavReg p 0xC210) 0) 0x38038 p) 0x38010 3

/-- What the end of pavilion p's reset removes is gone. -/
def pavCleared (p : Nat) (b : Block) : Block := stripesGone p (queuesGone p (each (pavRings p b) removeCq b))

section ResetDone

variable {b : Block} {p : Nat}

theorem pavResetDone_ends (hreset : (pav b p).resetting = true) (hin : b.inReset = false) (hfault : faulted b = false)
    (hdone : (pavRings p b).all (ringDone b) = true) : pavResetDone p b = resetShown p (pavAtRest p (pavCleared p b)) := by
  unfold pavRings at hdone
  simp only [pavResetDone, hreset, hin, hfault, hdone]
  rfl

theorem pavResetDone_waits (h : (pav b p).resetting = false ∨ faulted b = true ∨ (pavRings p b).all (ringDone b) = false) :
    pavResetDone p b = b := by
  unfold pavRings at h
  refine if_pos ?_
  rcases h with h | h | h <;> simp [h]

/-- What the end of the reset does behind the rings reaches no ring and not the build. -/
theorem queuesGone_buildAndCqs (p : Nat) (b : Block) : (queuesGone p b).build = b.build ∧ (queuesGone p b).cqs = b.cqs :=
  each_preserves (P := fun c => c.build = b.build ∧ c.cqs = b.cqs) (fun c q ⟨hsameBuild, hsameCqs⟩ => by
    obtain ⟨hbuild, hcqs⟩ := removeSq_buildAndCqs (each ((c.cmds.filter (fun y => decide (y.2.sq = q))).map (·.1)) retire c) q
    exact ⟨(hbuild.trans (each_keeps Block.build retire (fun _ _ => rfl) _ c)).trans hsameBuild,
      (hcqs.trans (each_keeps Block.cqs retire (fun _ _ => rfl) _ c)).trans hsameCqs⟩) _ b ⟨rfl, rfl⟩

theorem queuesGone_liveKey {k : Nat} {x : KeySlot} (h : LiveKey k x b) (p : Nat) : LiveKey k x (queuesGone p b) :=
  each_preserves (fun c q hc => removeSq_liveKey (each_preserves (f := retire) (fun _ _ h => h) _ c hc) q) _ b h

/-- Of the block, stripesGone changes only the stripes and the lanes. -/
theorem stripesGone_keeps {β : Type} (g : Block → β) (hstripe : ∀ b st, g (stripeErased b st) = g b)
    (hlane : ∀ b n f, g (updLane b n f) = g b) (p : Nat) (b : Block) : g (stripesGone p b) = g b :=
  (each_keeps g _ (fun b n => hlane b n _) _ _).trans (each_keeps g _ hstripe _ b)

/-- A waymark of pavilion p is 0 in every lane of the build. -/
theorem lanesCleared_waymark {n k : Nat} (hn : n < b.build.lanes) (hk : k / 16 = p) (sts : List Nat) :
    waymark (lanesCleared p sts b) n k = 0 := by
  have hgone (l : Lane) : tget (0 : Word) (l.waymarks.filter (fun x => decide (x.1 / 16 ≠ p))) k = 0 := by
    refine tget_of_noKey _ _ _ fun x hx hxk => ?_
    simp [hxk, hk] at hx
  refine each_establishes (P := fun b => waymark b n k = 0) (x := n) (fun b => ?_) (fun b m h => ?_) _ _ (List.mem_range.mpr hn)
  · rw [waymark, lane_updLane_same]
    exact hgone _
  · by_cases hm : n = m
    · subst hm
      rw [waymark, lane_updLane_same]
      exact hgone _
    · rwa [waymark, lane_updLane_other _ _ _ _ hm]

theorem pavCleared_live {c : Nat} (hc : c ∈ pavRings p b) : (cq (pavCleared p b) c).live = false := by
  have hring : (cq (each (pavRings p b) removeCq b) c).live = false := by
    refine each_establishes (P := fun b => (cq b c).live = false) (fun b => ?_) (fun b d h => ?_) _ b hc
    · rw [removeCq_live, if_pos rfl]
    · rw [removeCq_live, h, ite_self]
  rw [cq, pavCleared, stripesGone_keeps Block.cqs (fun _ _ => rfl) (fun _ _ _ => rfl), (queuesGone_buildAndCqs _ _).2]
  exact hring

theorem pavCleared_liveKey {k : Nat} (h : (keySlot b k).st = .live) : keySlot (pavCleared p b) k = keySlot b k := by
  have hrings : LiveKey k (keySlot b k) (each (pavRings p b) removeCq b) :=
    ⟨h, congrArg (fun x => tget KeySlot.none (Prod.snd x) k) (each_keeps buildAndKeys removeCq removeCq_buildAndKeys _ b)⟩
  obtain ⟨-, hkey⟩ := queuesGone_liveKey hrings p
  rw [keySlot, pavCleared, stripesGone_keeps Block.keys (fun _ _ => rfl) (fun _ _ _ => rfl)]
  exact hkey

theorem pavCleared_waymark {n k : Nat} (hn : n < b.build.lanes) (hk : k / 16 = p) : waymark (pavCleared p b) n k = 0 := by
  have hrings : (each (pavRings p b) removeCq b).build = b.build :=
    congrArg Prod.fst (each_keeps buildAndKeys removeCq removeCq_buildAndKeys _ b)
  refine lanesCleared_waymark ?_ hk _
  rw [each_keeps Block.build stripeErased (fun _ _ => rfl), (queuesGone_buildAndCqs _ _).1, hrings]
  exact hn

/-- A bit of one register behind the setting or clearing of a bit of another. -/
theorem rbit_rset1_away {a c : Nat} (h : c ≠ a) (b : Block) (i j : Nat) : rbit (rset1 b a i) c j = rbit b c j := by
  rw [rbit, rset1_eq, rget_rput_other _ _ _ _ h, rbit]

theorem rbit_rclr1_away {a c : Nat} (h : c ≠ a) (b : Block) (i j : Nat) : rbit (rclr1 b a i) c j = rbit b c j := by
  rw [rbit, rclr1_eq, rget_rput_other _ _ _ _ h, rbit]

/-- The registers of a pavilion whose reset has ended. -/
theorem resetShown_regs (p : Nat) (b : Block) :
    rbit (resetShown p b) (pavReg p 0xD000) 0 = false ∧ rbit (resetShown p b) (pavReg p 0xC210) 0 = false ∧
      rbit (resetShown p b) 0x38038 p = false ∧ rbit (resetShown p b) 0x38010 3 = true := by
  have hcfg : pavReg p 0xD000 ≠ 0x38010 ∧ pavReg p 0xD000 ≠ 0x38038 ∧ pavReg p 0xD000 ≠ pavReg p 0xC210 := by
    unfold pavReg; omega
  have hadm : pavReg p 0xC210 ≠ 0x38010 ∧ pavReg p 0xC210 ≠ 0x38038 := by unfold pavReg; omega
  obtain ⟨hcfgEvt, hcfgRst, hcfgAdm⟩ := hcfg
  obtain ⟨hadmEvt, hadmRst⟩ := hadm
  unfold resetShown
  refine ⟨?_, ?_, ?_, rbit_rset1_same _ _ (by decide)⟩
  · rw [rbit_rset1_away hcfgEvt, rbit_rclr1_away hcfgRst, rbit_rclr1_away hcfgAdm, rbit_rclr1_same]
  · rw [rbit_rset1_away hadmEvt, rbit_rclr1_away hadmRst, rbit_rclr1_same]
  · rw [rbit_rset1_away (by decide), rbit_rclr1_same]

theorem resetShown_keeps {β : Type} (g : Block → β) (hput : ∀ b a w, g (rput b a w) = g b) (p : Nat) (b : Block) :
    g (resetShown p b) = g b := by
  simp only [resetShown, rset1_eq, rclr1_eq, hput]

theorem pavAtRest_resetting (p : Nat) (b : Block) : (pav (pavAtRest p b) p).resetting = false := by
  rw [pavAtRest, pav_updPav_same]
  rfl

/-- Block c is what the end of pavilion p's reset makes of block b (R443). -/
def ResetEnded (p : Nat) (b c : Block) : Prop :=
  (pav c p).resetting = false ∧ rbit c (pavReg p 0xD000) 0 = false ∧ rbit c (pavReg p 0xC210) 0 = false ∧
    rbit c 0x38038 p = false ∧ rbit c 0x38010 3 = true ∧ (∀ d ∈ pavRings p b, (cq c d).live = false) ∧
    (∀ n j, n < b.build.lanes → j < 16 → waymark c n (16 * p + j) = 0) ∧
    (∀ k, (keySlot b k).st = .live → keySlot c k = keySlot b k)

theorem resetEnded_settle (p : Nat) (b : Block) : ResetEnded p b (settle (resetShown p (pavAtRest p (pavCleared p b)))) := by
  have hregs (a i : Nat) (c : Block) : rbit (settle c) a i = rbit c a i := settle_keeps (rbit · a i) (fun _ _ _ => rfl) c
  have hpavs : pav (settle (resetShown p (pavAtRest p (pavCleared p b)))) p = pav (pavAtRest p (pavCleared p b)) p :=
    (settle_keeps (pav · p) (fun _ _ _ => rfl) _).trans (resetShown_keeps (pav · p) (fun _ _ _ => rfl) p _)
  have hkeeps {β : Type} (g : Block → β) (hsettle : ∀ b srcs wake, g { b with srcs := srcs, wake := wake } = g b)
      (hput : ∀ b a w, g (rput b a w) = g b) (hpav : ∀ b f, g (updPav b p f) = g b) :
      g (settle (resetShown p (pavAtRest p (pavCleared p b)))) = g (pavCleared p b) :=
    (settle_keeps g hsettle _).trans ((resetShown_keeps g hput p _).trans (hpav _ _))
  obtain ⟨hcfg, hadm, hrst, hevt⟩ := resetShown_regs p (pavAtRest p (pavCleared p b))
  refine ⟨(congrArg Pav.resetting hpavs).trans (pavAtRest_resetting p _), (hregs _ _ _).trans hcfg, (hregs _ _ _).trans hadm,
    (hregs _ _ _).trans hrst, (hregs _ _ _).trans hevt, fun d hd => ?_, fun n j hn hj => ?_, fun k hk => ?_⟩
  · exact (congrArg Cq.live (hkeeps (cq · d) (fun _ _ _ => rfl) (fun _ _ _ => rfl) (fun _ _ => rfl))).trans (pavCleared_live hd)
  · exact (hkeeps (waymark · n (16 * p + j)) (fun _ _ _ => rfl) (fun _ _ _ => rfl) (fun _ _ => rfl)).trans
      (pavCleared_waymark hn (by omega))
  · exact (hkeeps (keySlot · k) (fun _ _ _ => rfl) (fun _ _ _ => rfl) (fun _ _ => rfl)).trans (pavCleared_liveKey hk)

end ResetDone

/-- Settles O41: each write by its cases at the port, and the end of a reset step by step. -/
theorem pavilionRegisters : Obligations.PavilionRegisters := by
  intro s p v b cfg adm idle
  refine ⟨fun h c hc => ?config, fun h c hc => ?configIgnored, fun o ho hp h => ?ranges, fun h c hc => ?admin,
    fun h => ?resume, fun h => ?targets, fun hin hp => ?resetDone⟩
  case config =>
    refine ⟨fun hne hbusy => ?_, fun htaken => ⟨fun hno => ?_, fun hreset => ?_⟩⟩ <;>
      refine (exec_pvCfg hc).trans (regWrite4_of_eq h (pavReg_aligned p (by decide)) ?_)
    · exact pvCfgWrite_bad hne hbusy
    · rw [pvCfgWrite_taken htaken, if_neg (ne_true_of_eq_false hno)]
    · rw [pvCfgWrite_taken htaken, if_pos hreset]
  case configIgnored => exact (exec_pvCfg hc).trans (regWrite4_ignored h (pavReg_aligned p (by decide)) pvCfgWrite_nonSecure)
  case ranges =>
    intro a m
    exact ⟨fun hsame => exec_rangeWrite ho hp h (pvRangeWrite_same hsame),
      fun hne hidle => exec_rangeWrite ho hp h ((pvRangeWrite_changes hne).trans (if_pos hidle)),
      fun hne hbusy => exec_rangeWrite ho hp h ((pvRangeWrite_changes hne).trans (if_neg (ne_true_of_eq_false hbusy))),
      exec_rangeWrite_ignored ho hp h⟩
  case admin =>
    intro b1 b2 good
    exact ⟨fun hon hen => exec_pvAdm hc h (pvAdmWrite_goesOn hon hen), fun hon hen => exec_pvAdm hc h (pvAdmWrite_stops hon hen),
      fun hoff hen => exec_pvAdm hc h (pvAdmWrite_sizes hoff hen),
      fun hoff hen hgood => exec_pvAdm hc h ((pvAdmWrite_enables hoff hen).trans (if_pos hgood)),
      fun hoff hen hbad => exec_pvAdm hc h ((pvAdmWrite_enables hoff hen).trans (if_neg (ne_true_of_eq_false hbad)))⟩
  case resume =>
    intro q
    have hwrite {g : Block → Block} (hg : pvAdmResume p v s.blk = g s.blk) :
        exec (.pvAdmResume p v true) s = .next (afterWrite s g) := regWrite4_of_eq h (pavReg_aligned p (by decide)) hg
    exact ⟨fun hlive hstopped hslot => hwrite (pvAdmResume_goesOn hlive hstopped hslot), fun hbad => hwrite (pvAdmResume_bad hbad)⟩
  case targets =>
    have haligned := pavReg_aligned p (o := 0xD008) (by decide)
    exact ⟨regWrite4_of_eq h haligned (pvGrantWrite_secure p 0xD008 v _),
      regWrite4_ignored h haligned (pvGrantWrite_nonSecure p 0xD008 v)⟩
  case resetDone =>
    intro rings
    refine ⟨fun hreset hfault hdone => ?_, fun hwaits => act_of_eq (pavResetDone_waits hwaits)⟩
    refine ⟨_, act_of_eq (pavResetDone_ends hreset hin hfault hdone), rfl, ?_⟩
    rw [after_blk]
    exact resetEnded_settle p b

end Sys2Proof.Laws

/-! Taking up the instructions of a work entry (R128, R222, R229, R243), and the start of those that read, erase and program (R134,
R141, R150, R156 to R159, R167, R222, R285, R298). -/

namespace Sys2Proof.Laws

open Sys2Proof Sys2Proof.Machine

/-! What stops an instruction before its own effect, in the order of the checks (R128, R229, R243). -/

section TakenUp

variable {b : Block} {n e i op : Nat} {f : Block → Block}

/-- An instruction that holds no page of a stripe has none to return. -/
theorem unplace_of_none (h : (instr b e i).place = none) : unplace b n e i = b := by
  simp only [unplace, h]

theorem takeInstr_startFailed (h : takeUp b n e i op = true) (hfailed : startFailed b n = true) :
    takeInstr n e i op f b = finishInvalid b e i (dieOffset (instr b e i).bytes) 4 := by
  simp [takeInstr, h, hfailed]

theorem takeInstr_notStarted (h : takeUp b n e i op = true) (hok : startFailed b n = false) (hstarted : laneStarted b n = false) :
    takeInstr n e i op f b = b := by
  simp [takeInstr, h, hok, hstarted]

section Started

variable (h : takeUp b n e i op = true) (hok : startFailed b n = false) (hstarted : laneStarted b n = true)
include h hok hstarted

/-- An operand failure ends the instruction, a placing one with the page that it held returned. -/
theorem takeInstr_operandFails {o r : Nat} (hfail : operandFail b n (instr b e i).bytes (pavSec b (sq b (entry b e).sq).owner)
      (sq b (entry b e).sq).service = some (o, r)) :
    takeInstr n e i op f b =
      finishInvalid (if places (instr b e i).bytes = true then unplace b n e i else b) e i o r := by
  simp only [takeInstr, h, hok, hstarted, hfail]
  cases hplace : (instr b e i).place with
  | none => simp [unplace_of_none hplace]
  | some m => simp

theorem takeInstr_offline {o : Nat} (hpass : operandFail b n (instr b e i).bytes (pavSec b (sq b (entry b e).sq).owner)
      (sq b (entry b e).sq).service = none) (hoff : offlineAt b n e i = some o) :
    takeInstr n e i op f b = finishInvalid (unplace b n e i) e i o 4 := by
  simp [takeInstr, h, hok, hstarted, hpass, hoff]

end Started

end TakenUp

/-- Every command of a work entry's instruction takes it up before it has an effect of its own. -/
theorem exec_takesUp {n e i : Nat} {x : Instr × Nat} (h : x ∈ [(Instr.read n e i, opRead), (.prog n e i, opProg),
      (.append n e i, opAppend), (.erase n e i, opErase), (.eraseVerify n e i, opVerify), (.relocate n e i, opReloc),
      (.sample n e i, opSample), (.fence n e i, opFence), (.wait n e i, opWait), (.signal n e i, opSignal),
      (.featureGet n e i, opFeatGet), (.featureSet n e i, opFeatSet), (.dieStatus n e i, opDieStatus), (.train n e i, opTrain),
      (.raw n e i, opRaw), (.nop n e i, opNop)]) (s : State) :
    ∃ f, exec x.1 s = s.act (takeInstr n e i x.2 f) := by
  fin_cases h <;> exact ⟨_, rfl⟩

/-- Settles O22: a command of a work entry takes its instruction up, and each check that stops it there is a case of taking up. -/
theorem instructionsAreChecked : Obligations.InstructionsAreChecked := by
  intro s n e i c op hc b x q h
  obtain ⟨f, hexec⟩ := exec_takesUp hc s
  have ends {b' : Block} (hb : takeInstr n e i op f b = b') : exec c s = .next (after s b') := hexec.trans (act_of_eq hb)
  refine ⟨fun hfailed => ends (takeInstr_startFailed h hfailed), fun hok hstarted => ends (takeInstr_notStarted h hok hstarted),
    fun hok hstarted hplain o r hfail => ends ?plain, fun hok hstarted hplaces o r hfail => ends ?placing,
    fun hok hstarted hpass o hoff => ends (takeInstr_offline h hok hstarted hpass hoff)⟩
  case plain => rw [takeInstr_operandFails h hok hstarted hfail, if_neg (ne_true_of_eq_false hplain)]
  case placing =>
    rw [takeInstr_operandFails h hok hstarted hfail, if_pos hplaces]
    cases hplace : (instr b e i).place with
    | none => rw [unplace_of_none hplace]; rfl
    | some m => rfl

/-! The instructions that read (R134, R167, R222, R298). -/

section Reads

variable {s : State} {n e i op : Nat}

theorem readStart_of (h : TakenUp s n e i op) :
    let b := fetchRecords n e i s.blk
    readStart n e i op s.blk = pooledTopUp n (instr s.blk e i).phase
      (if readWaits b n e i = true then setPhase b e i .waiting else startReads n e i b) :=
  takeInstr_of h _

/-- A RELOCATE asks first whether a FEATURE.SET is due, then what its mode is (R162, R166, R222). -/
theorem relocStart_of (h : TakenUp s n e i opReloc) :
    let b := fetchRecords n e i s.blk
    relocStart n e i s.blk = pooledTopUp n (instr s.blk e i).phase
      (if featBarred b n e i = true then setPhase b e i .waiting
      else if relocMode (instr b e i).bytes = 1 then
        (if readWaits b n e i = true then setPhase b e i .waiting else startReads n e i b)
      else placeDecide n e i b) :=
  takeInstr_of h _

/-- A RELOCATE in mode 1 starts as a READ does: a FEATURE.SET that is due is among what a read waits for. -/
theorem relocStart_reads (h : TakenUp s n e i opReloc)
    (hmode : relocMode (instr (fetchRecords n e i s.blk) e i).bytes = 1) :
    let b := fetchRecords n e i s.blk
    relocStart n e i s.blk = pooledTopUp n (instr s.blk e i).phase
      (if readWaits b n e i = true then setPhase b e i .waiting else startReads n e i b) := by
  intro b
  rw [relocStart_of h, if_pos hmode]
  cases hbarred : featBarred b n e i with
  | false => rw [if_neg (by simp)]
  | true =>
    have hwaits : readWaits b n e i = true := by simp only [readWaits, hbarred, Bool.true_or]
    rw [if_pos rfl, if_pos hwaits]

/-- READ, SAMPLE and RELOCATE in mode 1 fetch their records; then they wait, or their codewords start. -/
theorem exec_reads {c : Instr}
    (h : TakenUp s n e i opRead ∧ c = .read n e i ∨ TakenUp s n e i opSample ∧ c = .sample n e i ∨
      TakenUp s n e i opReloc ∧ c = .relocate n e i ∧ relocMode (instr (fetchRecords n e i s.blk) e i).bytes = 1) :
    let b := fetchRecords n e i s.blk
    exec c s = .next (after s (pooledTopUp n (instr s.blk e i).phase
      (if readWaits b n e i = true then setPhase b e i .waiting else startReads n e i b))) := by
  rcases h with ⟨h, rfl⟩ | ⟨h, rfl⟩ | ⟨h, rfl, hmode⟩
  case inl | inr.inl => exact act_of_eq (readStart_of h)
  case inr.inr => exact act_of_eq (relocStart_reads h hmode)

end Reads

/-! ERASE and ERASE.VERIFY (R156, R158, R159, R222). -/

section Erases

variable {s : State} {n e i : Nat}

/-- An ERASE waits for earlier work on its units, as they stand once it has released them, and for a FEATURE.SET of their die. -/
theorem eraseStart_of (h : TakenUp s n e i opErase) :
    let us := eraseUnits (instr s.blk e i).bytes
    let b := if (instr s.blk e i).phase = .pooled then erasePooled s.blk n e i else s.blk
    eraseStart n e i s.blk = pooledTopUp n (instr s.blk e i).phase
      (if ((earlierOf b n e i).any (fun y => (namedUnits b y.1 y.2).any (fun u => us.contains u)) || featBarred b n e i) = true then
        setPhase b e i .waiting
      else addTodo (setPhase b e i .active) n (eraseRoutine b n e i)) :=
  takeInstr_of h _

/-- The tests of an ERASE.VERIFY in their order: an erase pending, earlier work, pages in staging. -/
theorem verifyStart_of (h : TakenUp s n e i opVerify) :
    let b := s.blk
    let d := paDie (iPa (instr b e i).bytes)
    let u := paUnit (iPa (instr b e i).bytes)
    verifyStart n e i b = pooledTopUp n (instr b e i).phase
      (if erasePending b n e i d u = true then finishInstr b e i stErasePending 0
      else if (featBarred b n e i || (earlierOf b n e i).any (fun y => (progPages b y.1 y.2).any (fun p =>
          decide (p.1 = d ∧ p.2.1 = u) && !pageStaged b n d u p.2.2))) = true then setPhase b e i .waiting
      else if (lane b n).pages.any (fun p => decide (p.die = d ∧ p.unit = u) && p.staged) = true then
        finishInstr b e i stEraseIncomplete 2
      else verifyRead n e i 0 (setPhase b e i .active)) :=
  takeInstr_of h _

end Erases

/-- Settles O26: an instruction that reads by whether it must wait, ERASE by whether its units are busy, and ERASE.VERIFY by its
tests in their order. -/
theorem readsAndErasesStart : Obligations.ReadsAndErasesStart := by
  refine ⟨fun s n e i c => ?reads, fun s n e i => ?erases⟩
  case reads =>
    intro b up h
    refine ⟨fun hwaits => (exec_reads h).trans ?_, fun hfree => (exec_reads h).trans ?_⟩
    · rw [if_pos hwaits]; rfl
    · rw [if_neg (ne_true_of_eq_false hfree)]; rfl
  case erases =>
    intro b up a us b' busy writes staged
    refine ⟨fun h hbusy => act_of_eq ((eraseStart_of h).trans ?_), fun h hfree => act_of_eq ((eraseStart_of h).trans ?_),
      fun h hpending => act_of_eq ((verifyStart_of h).trans ?_),
      fun h hnone hwrites => act_of_eq ((verifyStart_of h).trans ?_),
      fun h hnone hdone hstaged => act_of_eq ((verifyStart_of h).trans ?_),
      fun h hnone hdone hclear => act_of_eq ((verifyStart_of h).trans ?_)⟩
    · rw [if_pos hbusy]; rfl
    · rw [if_neg (ne_true_of_eq_false hfree)]; rfl
    · rw [if_pos hpending]; rfl
    · rw [if_neg (ne_true_of_eq_false hnone), if_pos hwrites]; rfl
    · rw [if_neg (ne_true_of_eq_false hnone), if_neg (ne_true_of_eq_false hdone), if_pos hstaged]; rfl
    · rw [if_neg (ne_true_of_eq_false hnone), if_neg (ne_true_of_eq_false hdone), if_neg (ne_true_of_eq_false hclear)]; rfl

/-! The instructions that program (R141, R150, R152, R153, R162, R222, R285). -/

section Programs

variable {s : State} {n e i op : Nat}

theorem progStart_of (h : TakenUp s n e i op) :
    progStart n e i op s.blk = pooledTopUp n (instr s.blk e i).phase
      (if featBarred s.blk n e i = true then setPhase s.blk e i .waiting else placeDecide n e i s.blk) :=
  takeInstr_of h _

/-- PROG, APPEND and RELOCATE in another mode than 1 wait for a FEATURE.SET that is due, or get their page and are decided; only a
RELOCATE has records to fetch first. -/
theorem exec_programs {c : Instr} :
    let b := if c = .relocate n e i then fetchRecords n e i s.blk else s.blk
    (TakenUp s n e i opProg ∧ c = .prog n e i ∨ TakenUp s n e i opAppend ∧ c = .append n e i ∨
      TakenUp s n e i opReloc ∧ c = .relocate n e i ∧ relocMode (instr b e i).bytes ≠ 1) →
    exec c s = .next (after s (pooledTopUp n (instr s.blk e i).phase
      (if featBarred b n e i = true then setPhase b e i .waiting else placeDecide n e i b))) := by
  intro b h
  rcases h with ⟨h, rfl⟩ | ⟨h, rfl⟩ | ⟨h, rfl, hmode⟩
  case inl | inr.inl =>
    have hb : b = s.blk := if_neg nofun
    rw [hb]
    exact act_of_eq (progStart_of h)
  case inr.inr =>
    have hb : b = fetchRecords n e i s.blk := if_pos rfl
    rw [hb] at hmode ⊢
    refine act_of_eq ((relocStart_of h).trans ?_)
    rw [if_neg hmode]

end Programs

section Placement

variable {b : Block} {n e i : Nat}

/-- PROG, RELOCATE without PLACE, and a placing instruction that holds its page, are decided at once. -/
theorem placeDecide_settled (h : places (instr b e i).bytes = false ∨ (instr b e i).place.isSome = true) :
    placeDecide n e i b = progDecide n e i b := by
  have hsettled : (!places (instr b e i).bytes) = true ∨ (instr b e i).place.isSome = true := by simpa using h
  simp only [placeDecide, if_pos hsettled]

/-- A page of a stripe taken for an instruction: the member is taken, and the instruction holds the page (R152). -/
def withPage (b : Block) (e i : Nat) (m : Member) : Block :=
  updInstr (updMember b (iStripe (instr b e i).bytes) m (fun x => { x with taken := true })) e i (fun y => { y with place := some m })

section Choice

variable (hplaces : places (instr b e i).bytes = true) (hnone : (instr b e i).place = none)
include hplaces hnone

theorem placement_unsettled : ¬ ((!places (instr b e i).bytes) = true ∨ (instr b e i).place.isSome = true) := by
  simp [hplaces, hnone]

theorem placeDecide_ends {z : Nat × Nat}
    (h : choosePage b n (iStripe (instr b e i).bytes) (instr b e i).opening = .inr z) :
    placeDecide n e i b = finishInstr b e i z.1 z.2 := by
  simp only [placeDecide, if_neg (placement_unsettled hplaces hnone), h]

theorem placeDecide_waits (h : choosePage b n (iStripe (instr b e i).bytes) (instr b e i).opening = .inl none) :
    placeDecide n e i b = setPhase b e i .waiting := by
  simp only [placeDecide, if_neg (placement_unsettled hplaces hnone), h, waits]

section Chosen

variable {m : Member} (hpage : choosePage b n (iStripe (instr b e i).bytes) (instr b e i).opening = .inl (some m))
include hpage

/-- A RELOCATE whose N is not the number of codewords of the page that it got ends, and the page is returned (R162). -/
theorem placeDecide_wrongCount (hcount : iOp (instr b e i).bytes = opReloc ∧
      iCount (instr b e i).bytes ≠ cppOf (withPage b e i m) (dieFamily (withPage b e i m) n m.die)) :
    placeDecide n e i b = finishInvalid (unplace (withPage b e i m) n e i) e i 3 6 := by
  simp only [placeDecide, if_neg (placement_unsettled hplaces hnone), hpage]
  exact if_pos hcount

section GoodCount

variable (hcount : ¬ (iOp (instr b e i).bytes = opReloc ∧
  iCount (instr b e i).bytes ≠ cppOf (withPage b e i m) (dieFamily (withPage b e i m) n m.die)))
include hcount

theorem placeDecide_offline {o : Nat} (hoff : offlineAt (withPage b e i m) n e i = some o) :
    placeDecide n e i b = finishInvalid (unplace (withPage b e i m) n e i) e i o 4 := by
  simp only [withPage] at hcount hoff ⊢
  simp only [placeDecide, if_neg (placement_unsettled hplaces hnone), hpage, if_neg hcount, hoff]

theorem placeDecide_chosen (hon : offlineAt (withPage b e i m) n e i = none) :
    placeDecide n e i b = progDecide n e i (withPage b e i m) := by
  simp only [withPage] at hcount hon ⊢
  simp only [placeDecide, if_neg (placement_unsettled hplaces hnone), hpage, if_neg hcount, hon]

end GoodCount

end Chosen

end Choice

end Placement

/-- A stripe that has been opened again since an instruction was routed in it gives that instruction no page (R152). -/
theorem choosePage_otherOpening {b : Block} {n st opening : Nat} (h : (stripe b st).opening ≠ opening) :
    choosePage b n st opening = .inr (stStripeClosed, 1) := by
  simp [choosePage, h]

/-- Settles O27: a program waits for a FEATURE.SET, or is decided, or takes what its stripe answers when asked for a page. -/
theorem programsStart : Obligations.ProgramsStart := by
  refine ⟨fun s n e i c => ?programs, fun b n st opening => choosePage_otherOpening⟩
  intro b r up h
  have decided {b' : Block} (hfree : featBarred b n e i = false) (hb : placeDecide n e i b = b') :
      exec c s = .next (after s (up b')) := by
    rw [exec_programs h, if_neg (ne_true_of_eq_false hfree), hb]; rfl
  refine ⟨fun hbarred => ?barred, fun hfree hsettled => decided hfree (placeDecide_settled hsettled),
    fun hfree hplaces hnone => ⟨fun z hends => decided hfree (placeDecide_ends hplaces hnone hends),
      fun hwaits => decided hfree (placeDecide_waits hplaces hnone hwaits), fun m hpage => ?_⟩⟩
  case barred => rw [exec_programs h, if_pos hbarred]; rfl
  intro b'
  refine ⟨fun hreloc hcount => decided hfree (placeDecide_wrongCount hplaces hnone hpage ⟨hreloc, hcount⟩), fun hcount => ?_⟩
  have hgood : ¬ (iOp r.bytes = opReloc ∧ iCount r.bytes ≠ cppOf b' (dieFamily b' n m.die)) :=
    fun ⟨hreloc, hwrong⟩ => hcount.elim (· hreloc) hwrong
  exact ⟨fun o hoff => decided hfree (placeDecide_offline hplaces hnone hpage hgood hoff),
    fun hon => decided hfree (placeDecide_chosen hplaces hnone hpage hgood hon)⟩

end Sys2Proof.Laws

/-! Waymarks and the instructions of control (R175 to R193). -/

namespace Sys2Proof.Laws

open Sys2Proof Sys2Proof.Machine

/-! What the end of an instruction leaves of a lane: its waymarks, and whether it is in PS1 (R174, R177, R212). -/

/-- The waymarks of lane n, and whether it is in PS1. -/
def markState (n : Nat) (b : Block) : Tab Word × Bool := ((lane b n).waymarks, (lane b n).ps1)

section MarkState

variable {b b' : Block} (n : Nat)

theorem markState_of_lanes (h : b'.lanes = b.lanes) : markState n b' = markState n b :=
  congrArg (fun t : Tab Lane => ((tget Lane.init t n).waymarks, (tget Lane.init t n).ps1)) h

/-- A change of one lane that reaches neither field. -/
theorem updLane_markState {m : Nat} {f : Lane → Lane} (hf : ∀ l, (f l).waymarks = l.waymarks ∧ (f l).ps1 = l.ps1) :
    markState n (updLane b m f) = markState n b := by
  unfold markState
  by_cases h : n = m
  · subst h
    rw [lane_updLane_same, (hf _).1, (hf _).2]
  · rw [lane_updLane_other _ _ _ _ h]

theorem rmax_markState (b : Block) (a hi lo v : Nat) : markState n (rmax b a hi lo v) = markState n b := rfl

/-! What follows a finished instruction (R172, R174, R402): releases and key overwrites reach no lane. -/

theorem wipeReleased_lanes (b : Block) : (wipeReleased b).lanes = b.lanes :=
  each_keeps Block.lanes _ (fun b k => by split <;> rfl) _ b

theorem releaseOne_lanes (e i : Nat) (b : Block) : (releaseOne e i b).lanes = b.lanes := by
  unfold releaseOne
  dsimp only
  split <;> rfl

theorem releaseEntry_lanes (b : Block) (e : Nat) : (releaseEntry b e).lanes = b.lanes := by
  unfold releaseEntry
  split
  · exact each_keeps Block.lanes _ (fun b i => releaseOne_lanes e i b) _ b
  · rfl

theorem noteBadErase_lanes (b : Block) (e i : Nat) : (noteBadErase b e i).lanes = b.lanes := by
  unfold noteBadErase
  dsimp only
  split
  · rfl
  · exact each_keeps Block.lanes _ (fun b y => by split <;> rfl) _ b

theorem setStatus_lanes (b : Block) (e i st det : Nat) : (setStatus b e i st det).lanes = b.lanes := by
  unfold setStatus
  dsimp only
  split
  · rfl
  · rw [updInstr, updEntry_lanes]
    split
    · exact noteBadErase_lanes b e i
    · rfl

/-! A completion that is offered may take a holding entry, and an entry leaves its lane's pool (R80, R88, R200). -/

theorem holdStep_markState (c : Nat) (blocked : Bool) (acc : Block × List Compl) (x : Compl) :
    markState n (holdStep c blocked acc x).1 = markState n acc.1 := by
  unfold holdStep
  split
  · rfl
  dsimp only
  split
  · exact (rmax_markState ..).trans (updLane_markState n fun _ => ⟨rfl, rfl⟩)
  · rfl

theorem holdSteps_markState (c : Nat) (blocked : Bool) : ∀ (l : List Compl) (acc : Block × List Compl),
    markState n (l.foldl (holdStep c blocked) acc).1 = markState n acc.1
  | [], _ => rfl
  | x :: l, acc => (holdSteps_markState c blocked l _).trans (holdStep_markState n c blocked acc x)

theorem rehold_markState (b : Block) (c : Nat) : markState n (rehold b c) = markState n b := by
  unfold rehold
  dsimp only
  split
  · rfl
  · exact holdSteps_markState ..

theorem offer_markState (b : Block) (c : Nat) (x : Compl) : markState n (offer b c x) = markState n b := by
  unfold offer
  split
  · exact rehold_markState ..
  · exact each_keeps (markState n) retire (fun _ _ => rfl) _ b

theorem dropEntry_markState (b : Block) (e : Nat) : markState n (dropEntry b e) = markState n b := by
  unfold dropEntry
  dsimp only
  cases (entry b e).lane with
  | none => rfl
  | some m =>
    exact updLane_markState (b := b) (m := m) (f := fun l =>
      { l with pool := l.pool.filter (· != e), arrive := l.arrive.filter (· != e) }) n fun _ => ⟨rfl, rfl⟩

theorem finishCmd_markState (b : Block) (c : Nat) (l : Option Nat) : markState n (finishCmd b c l) = markState n b := by
  unfold finishCmd
  dsimp only
  split
  · exact (offer_markState ..).trans (each_keeps (markState n) dropEntry (dropEntry_markState n) _ _)
  · rfl

theorem afterFinish_markState (b : Block) (e : Nat) : markState n (afterFinish b e) = markState n b := by
  have hreleased : markState n (releaseEntry (wipeReleased b) e) = markState n b :=
    markState_of_lanes n ((releaseEntry_lanes ..).trans (wipeReleased_lanes b))
  unfold afterFinish
  dsimp only
  split
  · split
    · exact (dropEntry_markState ..).trans hreleased
    · exact (finishCmd_markState ..).trans hreleased
  · exact hreleased

theorem finishAux_markState (b : Block) (e i st det : Nat) (aux : Word64) :
    markState n (finishAux b e i st det aux) = markState n b :=
  (afterFinish_markState ..).trans (markState_of_lanes n (setStatus_lanes ..))

theorem waitTest_markState (m e i : Nat) (b : Block) : markState n (waitTest m e i b) = markState n b := by
  unfold waitTest
  split
  · exact finishAux_markState ..
  · rfl

theorem wakeLane_markState (b : Block) : markState n (wakeLane b n) = ((lane b n).waymarks, false) := by
  unfold wakeLane
  split
  · rw [markState, lane_updLane_same]
  · next h => rw [markState, eq_false_of_ne_true h]

/-- A waymark that is set changes that one of the lane's waymarks, and the lane is in PS1 no longer: the WAITs that end by it, and what
follows their ends, reach neither. -/
theorem setWaymark_markState (k : Nat) (v : Word) (b : Block) :
    markState n (setWaymark n k v b) = (tset 0 (lane b n).waymarks k v, false) := by
  have hwaiters : markState n (setWaymark n k v b) =
      markState n (wakeLane (updLane b n (fun l => { l with waymarks := tset 0 l.waymarks k v })) n) :=
    each_keeps (markState n) _ (fun b y => by
      split
      · exact waitTest_markState ..
      · rfl) _ _
  rw [hwaiters, wakeLane_markState, lane_updLane_same]

end MarkState

/-- Settles O25: what setting a waymark leaves of the lane's waymarks and of PS1, read one waymark at a time. -/
protected theorem setWaymark : Obligations.SetWaymark := by
  intro b n k v
  obtain ⟨hmarks, hps1⟩ := Prod.mk.inj (setWaymark_markState n k v b)
  refine ⟨?same, fun j hj => ?other, hps1⟩
  case same => rw [waymark, hmarks, tget_tset_same]
  case other => rw [waymark, hmarks, tget_tset_other _ _ _ _ _ _ hj, waymark]

/-! The instructions of a work entry that order others (R175 to R182, R193). -/

section Ordering

variable {s : State} {n e i op : Nat}

/-- A command that takes its instruction up, with nothing against it, leaves what the instruction's own effect leaves, topped up. -/
theorem exec_takenUp {c : Instr} {f : Block → Block} {b' : Block} (hexec : exec c s = s.act (takeInstr n e i op f))
    (h : TakenUp s n e i op) (hf : f s.blk = b') :
    exec c s = .next (after s (pooledTopUp n (instr s.blk e i).phase b')) := by
  rw [hexec, act_of_eq (takeInstr_of h f), hf]

end Ordering

/-- Settles O23: the tests of each instruction in their order. -/
theorem orderingInstructions : Obligations.OrderingInstructions := by
  intro s n e i b l x w up
  refine ⟨fun h => exec_takenUp rfl h rfl, fun h hwait => exec_takenUp rfl h ?fenceWaits,
    fun h hdone hgood => exec_takenUp rfl h ?fenceEnds, fun h hdone hfailed => exec_takenUp rfl h ?fenceStops,
    fun h hmet => exec_takenUp rfl h ?waitEnds, fun h hunmet => exec_takenUp rfl h ?waitWaits,
    fun h hwait => exec_takenUp rfl h ?signalWaits, fun h hdone hfailed => exec_takenUp rfl h ?signalAborts,
    fun h hdone hgood => exec_takenUp rfl h ?signalAdds⟩
  case fenceWaits | signalWaits => exact if_pos (by simpa using hwait)
  case fenceEnds | signalAdds => exact (if_neg (by simpa using hdone)).trans (if_neg (ne_true_of_eq_false hgood))
  case fenceStops | signalAborts => exact (if_neg (by simpa using hdone)).trans (if_pos hfailed)
  case waitEnds => exact if_pos (decide_eq_true hmet)
  case waitWaits => exact if_neg (by simpa [waitMet] using hunmet)

section Timeouts

variable {b : Block} {n e i : Nat}

theorem waitTimeout_due (hruns : laneRuns b n = true) (hlane : (entry b e).lane = some n) (hphase : (instr b e i).phase = .waiting)
    (hop : iOp (instr b e i).bytes = opWait) (ht : fieldAt (instr b e i).bytes 12 2 ≠ 0)
    (hdue : (instr b e i).started + fieldAt (instr b e i).bytes 12 2 ≤ now b) :
    waitTimeout n e i b = abortRest n e (i + 1) (setStatus (updInstr (rinc b (laneReg n 0xE8) 23 16 1) e i
      (fun y => { y with aux := waymarkAux (waymark b n (waymarkOf b e i)) })) e i stAborted 1) := by
  refine if_neg ?_
  simp [hruns, hlane, hphase, hop, ht, hdue]

theorem waitTimeout_early (h : fieldAt (instr b e i).bytes 12 2 = 0 ∨
    now b < (instr b e i).started + fieldAt (instr b e i).bytes 12 2) : waitTimeout n e i b = b :=
  if_pos (.inr (.inr (.inr (.inr h))))

theorem laneReg_aligned {o : Nat} (ho : o % 4 = 0) : laneReg n o % 4 = 0 := by
  unfold laneReg
  omega

end Timeouts

/-- Settles O24: a WAIT whose time is up, one that has time left or waits without a limit, and the write of LN_WM_DATA. -/
theorem waitsTimeOut : Obligations.WaitsTimeOut := by
  intro s n e i v b r t
  exact ⟨fun hruns hlane hphase hop ht hdue => act_of_eq (waitTimeout_due hruns hlane hphase hop ht hdue),
    fun h => act_of_eq (waitTimeout_early h), fun h => regWrite4_of_eq h (laneReg_aligned (by decide)) rfl⟩

/-! The instructions that a die carries out (R183 to R192): one that becomes active keeps what its routines are made from. -/

section Routines

variable (b : Block) (n e i : Nat) (p : Phase)

/-- An instruction out of its entry's range has no phase to change. -/
theorem instr_setPhase : instr (setPhase b e i p) e i =
    if i < (entry b e).instrs.length then { instr b e i with phase := p } else instr b e i := by
  simp only [instr, setPhase, updInstr, entry_updEntry_same, List.getD_eq_getElem?_getD, List.getElem?_set_self']
  split <;> next h => simp [h]

theorem instr_setPhase_bytes : (instr (setPhase b e i p) e i).bytes = (instr b e i).bytes := by
  rw [instr_setPhase]
  split <;> rfl

theorem instr_setPhase_order : (instr (setPhase b e i p) e i).order = (instr b e i).order := by
  rw [instr_setPhase]
  split <;> rfl

theorem entryDue_setPhase : entryDue (setPhase b e i p) e = entryDue b e := by
  simp only [entryDue, setPhase, updInstr, entry_updEntry_same]
  rfl

theorem entryClass_setPhase : entryClass (setPhase b e i p) e = entryClass b e := by
  simp only [entryClass, setPhase, updInstr, entry_updEntry_same]
  rfl

theorem mkRoutine_setPhase (kind d : Nat) (use : Purpose) :
    mkRoutine (setPhase b e i p) n kind d e i use = mkRoutine b n kind d e i use := by
  simp only [mkRoutine, routineUnit, instr_setPhase_bytes, instr_setPhase_order, entryDue_setPhase, entryClass_setPhase]
  rfl

theorem featureRoutine_setPhase (set : Bool) : featureRoutine (setPhase b e i p) n e i set = featureRoutine b n e i set := by
  simp only [featureRoutine, instr_setPhase_bytes, mkRoutine_setPhase]

end Routines

/-- A TRAIN has counted every die of a list as failed (R189). -/
def trainPassed (e i : Nat) (pre : List Nat) (b : Block) : Block := pre.foldl (fun b x => trainNote e i x false [] b) b

section Training

variable {n e i : Nat}

/-- A TRAIN goes past the dies that cannot be trained. -/
theorem trainSeek_passes (l : List Nat) : ∀ {pre : List Nat} {b : Block}, (∀ x ∈ pre, trainable b n x = false) →
    trainSeek n e i (pre ++ l) b = trainSeek n e i l (trainPassed e i pre b)
  | [], _, _ => rfl
  | d :: pre, b, h => by
    obtain ⟨hd, hpre⟩ := List.forall_mem_cons.mp h
    exact (if_neg (ne_true_of_eq_false hd)).trans (trainSeek_passes l (b := trainNote e i d false [] b) hpre)

theorem trainPassed_trainable (d : Nat) (pre : List Nat) (b : Block) :
    trainable (trainPassed e i pre b) n d = trainable b n d :=
  each_keeps (fun b => trainable b n d) (fun b x => trainNote e i x false [] b) (fun _ _ => rfl) pre b

end Training

/-- Settles O29: each instruction by the FEATURE.SETs before it and its own effect, and the search of a TRAIN die by die. -/
theorem dieInstructionsStart : Obligations.DieInstructionsStart := by
  refine ⟨fun s n e i => ?starts, fun b n e i pre => ?seeks⟩
  case starts =>
    intro b x d b' up
    have permitted (hraw : (entryWord b n 19).isSome = true) : ¬ (entryWord b n 19).isNone = true :=
      Option.isNone_iff_eq_none.not.mpr (Option.isSome_iff_ne_none.mp hraw)
    refine ⟨fun hbarred => ⟨fun h => exec_takenUp rfl h (if_pos hbarred), fun h => exec_takenUp rfl h (if_pos hbarred),
        fun h => exec_takenUp rfl h (if_pos hbarred), fun h hraw => exec_takenUp rfl h ?rawWaits⟩,
      fun h hfree => exec_takenUp rfl h ?featGet, fun h hfree => exec_takenUp rfl h ?featSet, fun h => exec_takenUp rfl h ?status,
      fun h hfree => exec_takenUp rfl h ?train, fun h hraw => exec_takenUp rfl h ?rawRefused,
      fun h hraw hfree => exec_takenUp rfl h ?rawStarts⟩
    case featGet | featSet =>
      rw [featureRoutine_setPhase]
      exact if_neg (ne_true_of_eq_false hfree)
    case status => rw [mkRoutine_setPhase, instr_setPhase_bytes]
    case rawRefused => exact if_pos (Option.isNone_iff_eq_none.mpr hraw)
    case rawWaits => exact (if_neg (permitted hraw)).trans (if_pos hbarred)
    case rawStarts => exact (if_neg (permitted hraw)).trans (if_neg (ne_true_of_eq_false hfree))
    case train =>
      exact (if_neg (ne_true_of_eq_false hfree)).trans
        (ite_congr rfl (fun hall => congrArg (trainSeek n e i · _) (if_pos hall)) fun _ => rfl)
  case seeks =>
    intro passed h
    refine ⟨?ends, fun d l hd => ?found⟩
    case ends => rw [← List.append_nil pre, trainSeek_passes [] h]; rfl
    case found =>
      have hfound : trainable passed n d = true := (trainPassed_trainable d pre b).trans hd
      exact (trainSeek_passes (d :: l) h).trans (if_pos hfound)

end Sys2Proof.Laws

/-! The lane scheduler's own events (R57, R204, R206, R218, R220, R445): each by the tests that let it happen. -/

namespace Sys2Proof.Laws

open Sys2Proof Sys2Proof.Machine

/-! The placing of a frame (R206): the room of the tenants is fixed before the first of them is placed. -/

/-- Placing a routine leaves the cycles that a frame's routines may fill as they were (R206). -/
theorem tryPlace_limit (n : Nat) (p : Placing) (r : Routine) : (tryPlace n p r).limit = p.limit := by
  unfold tryPlace
  dsimp only
  split
  case isTrue => rfl
  case isFalse =>
    split
    case isTrue => rfl
    case isFalse => split <;> rfl

/-- A tenant routine is placed where its length stays within the room that tenants have (R206, R208). -/
def placeTenant (n room : Nat) (p : Placing) (r : Routine) : Placing :=
  if p.used n + (readied p.blk n r).1.len ≤ room then tryPlace n p r else p

theorem placeTenant_limit (n room : Nat) (p : Placing) (r : Routine) : (placeTenant n room p r).limit = p.limit := by
  unfold placeTenant
  split
  case isTrue => exact tryPlace_limit n p r
  case isFalse => rfl

/-- The tenants of a frame share the room that it had before the first of them. -/
theorem foldl_placeTenant (n reserve : Nat) (l : List Routine) (p : Placing) :
    l.foldl (fun q r => placeTenant n (q.limit - reserve) q r) p = l.foldl (placeTenant n (p.limit - reserve)) p := by
  have hsame := List.foldl_rel (l := l) (f := fun q r => placeTenant n (q.limit - reserve) q r)
    (g := placeTenant n (p.limit - reserve)) (r := fun q q' => q = q' ∧ q.limit = p.limit) ⟨rfl, rfl⟩
    (fun r _ q q' ⟨heq, hlimit⟩ => ⟨by rw [← heq, hlimit], (placeTenant_limit n _ q r).trans hlimit⟩)
  exact hsame.1

/-- What follows the first tenants of a frame (R206): service and tenants again, with SUSPEND_DECISION after each. -/
def placeOthers (n : Nat) (p : Placing) : Placing :=
  let judged := p.suspend n
  let served := (placeService (serviceVisits judged.blk n) n judged).suspend n
  ((tenantRoutines served.blk n).foldl (tryPlace n) served).suspend n

/-- The trainings begin, the first tenants take the room that the service reserve leaves, and the others follow (R206, R208, R249). -/
theorem placeAll_tenants_others (n : Nat) (p : Placing) :
    placeAll n p =
      let begun := { p with blk := beginTrains n p.blk }
      placeOthers n ((tenantRoutines begun.blk n).foldl (placeTenant n (begun.limit - reserveOf n begun)) begun) :=
  congrArg (placeOthers n) (foldl_placeTenant n (reserveOf n { p with blk := beginTrains n p.blk }) _ _)

/-! The events of a lane and of its dies. -/

section LaneEvents

variable {b : Block} {n d : Nat}

/-- No frame is built for a lane that may not place work, nor for one whose next frame stands (R204). -/
theorem frameBuild_refused (h : lanePlaces b n = false ∨ (lane b n).built = true) : frameBuild n b = b :=
  if_pos (by simpa using h)

/-- The next frame of a lane before anything is placed in it: empty, under the budget in force (R206, log entry 83). -/
def frameOpened (n : Nat) (b : Block) : Block :=
  updLane b n (fun l => { l with built := true, next := [], nextUsed := 0, nextBudget := frameBudget b, nextStall := false })

theorem frameBuild_builds (hplaces : lanePlaces b n = true) (hbuilt : (lane b n).built = false) :
    frameBuild n b = resumeAll n (placeAll n (Placing.suspend n
      ⟨frameOpened n b, true, frameBudget (frameOpened n b), (lane b n).used - (lane b n).budget⟩)).blk :=
  if_neg (by simp [hplaces, hbuilt])

theorem suspendEarliest_due {t : Nat} (hwait : (die b n d).waitSusp = some t) (ht : t ≤ now b) (hplaces : lanePlaces b n = true) :
    suspendEarliest n d b =
      each (waitingReads b n d) (suspendFor n d) (updDie b n d (fun x => { x with waitSusp := none })) := by
  simp only [suspendEarliest, hwait]
  exact if_neg (by simp [ht, hplaces])

theorem suspendHold_expired (hsusp : (die b n d).susp.isSome = true)
    (hheld : (die b n d).suspAt + max 1 (rfld b (laneReg n 0x144) 23 16) ≤ now b) (hplaces : lanePlaces b n = true) :
    suspendHold n d b = placeResume b n d := by
  refine if_pos ?_
  simp only [hsusp, decide_eq_true hheld, hplaces, Bool.and_self]

/-- An idle lane enters PS1 when its timer has run out, with nothing on its sequencer or its dies and no training due (R445). -/
theorem ps1Entry_enters (hplaces : lanePlaces b n = true) (hps1 : (lane b n).ps1 = false)
    (hset : rfld b (laneReg n 0xA0) 15 0 ≠ 0) (hidle : rfld b (laneReg n 0xA0) 15 0 ≤ (lane b n).idle)
    (hseq : (lane b n).seq = none) (hquiet : diesQuiet b n = true)
    (huntrained : ∀ d ∈ validDies b n, (die b n d).retrain = none ∧ (die b n d).training = false) :
    ps1Entry n b = rinc (updLane b n (fun l => { l with ps1 := true })) (laneReg n 0xA4) 31 16 1 := by
  have hnone : (validDies b n).any (fun d => (die b n d).retrain.isSome || (die b n d).training) = false := by
    simpa using huntrained
  exact if_neg (by simp [hplaces, hps1, hset, hidle, hseq, hquiet, hnone])

theorem laneSlipEvent_raised (h : (lane b n).slipRaised = true) : laneSlipEvent n b = b :=
  if_pos (by simp [h])

/-- The slips of a run have reached the count at which the event is raised (R57). -/
theorem laneSlipEvent_raises (hraised : (lane b n).slipRaised = false) (hslips : rfld b (laneReg n 0x80) 15 0 ≠ 0)
    (hset : rfld b 0x200 23 16 ≠ 0) (hreached : rfld b 0x200 23 16 ≤ rfld b (laneReg n 0x80) 15 0) :
    laneSlipEvent n b = raiseLaneSlip (updLane b n (fun l => { l with slipRaised := true })) n :=
  if_neg (by simp [hraised, hslips, hset, hreached])

end LaneEvents

/-- Settles O30: the frame that is refused or built, a suspension at its tick and at its limit, the entry to PS1 and the slip event,
each by its tests; and the steps of a build. -/
theorem laneSchedulerEvents : Obligations.LaneSchedulerEvents := by
  intro s n d b l c
  refine ⟨fun hstopped => act_of_eq (frameBuild_refused (.inl hstopped)),
    fun hplaces hbuilt => act_of_eq (frameBuild_builds hplaces hbuilt), ?steps, ?placing,
    fun hbuilt => act_of_eq (frameBuild_refused (.inr hbuilt)),
    fun t hwait ht hplaces => act_of_eq (suspendEarliest_due hwait ht hplaces),
    fun hsusp hheld hplaces => act_of_eq (suspendHold_expired hsusp hheld hplaces),
    fun hplaces hps1 hset hidle hseq hquiet huntrained =>
      act_of_eq (ps1Entry_enters hplaces hps1 hset hidle hseq hquiet huntrained),
    fun hraised hslips hset hreached => act_of_eq (laneSlipEvent_raises hraised hslips hset hreached),
    fun hraised => act_of_eq (laneSlipEvent_raised hraised)⟩
  case steps => exact fun b p => ⟨rfl, rfl, rfl⟩
  case placing => exact placeAll_tenants_others n

end Sys2Proof.Laws

/-! The regions of fabric memory and the family window (R253, R282 to R284, R299, R465), and the start and reset of a lane (R229, R245,
R321, R436, R438). -/

namespace Sys2Proof.Laws

open Sys2Proof Sys2Proof.Machine

/-! A write at the slave port by its world, and by what Gatehouse answers it (R389). -/

section PortByWorld

variable {s : State} {a : Nat} {mask : BitVec 8} {sec : Bool}

/-- Gatehouse admits every secure access, and to a non-secure page every access. -/
theorem slaveGate_fst (b : Block) (a : Nat) (write sec : Bool) : (slaveGate b a write sec).1 = (sec || !pageSecure b a) := by
  cases sec <;> cases hp : pageSecure b a <;> simp [slaveGate, hp, apply_ite Prod.fst]

/-- A write of either world that Gatehouse admits has its effect, and the answer DONE. -/
theorem portWrite_admitted (h : PortTakes s a) (hm : maskFits a mask = true) (hg : (slaveGate s.blk a true sec).1 = true)
    {f g : Block → Block} (hfg : f s.blk = g s.blk) :
    (portWrite s a mask sec (fun s => { s with blk := f s.blk })).settled = .next (afterWrite s g) := by
  have hsecure : (portWrite s a mask true (fun s => { s with blk := f s.blk })).settled = .next (afterWrite s g) := by
    rw [portWrite_of_takes h hm, settled_eq]
    simp only [hfg]
    rfl
  cases sec with
  | true => exact hsecure
  | false =>
    rw [slaveGate_fst] at hg
    rwa [portWrite_world_irrel (by simpa using hg)]

/-- A write that Gatehouse denies has no effect, whatever its effect would be. -/
theorem portWrite_gateDenied (h : PortTakes s a) (hm : maskFits a mask = true) (hg : (slaveGate s.blk a true false).1 = false)
    (f : State → State) : (portWrite s a mask false f).settled = .next (afterIgnored s a) := by
  have hdenied : (admitted s.blk a true false).1 = false := by
    rw [admitted_of_securePage h (by simpa [slaveGate_fst] using hg)]
  have hlogged : (admitted s.blk a true false).2 = (slaveGate s.blk a true false).2 := by
    simp [admitted, not_waiting_of_ready h.2.1]
  rw [portWrite_denied hdenied hm h.1, hlogged, settled_eq]
  rfl

theorem portWrite_badMask (h : PortTakes s a) (hm : maskFits a mask = false) (sec : Bool) (f : State → State) :
    (portWrite s a mask sec f).settled = .next (after s (answer s.blk ⟨false, 0, stRefused, none⟩)) := by
  obtain ⟨hopen, hready, -, -⟩ := h
  rw [settled_eq]
  simp [portWrite, hopen, hready, hm, after]

end PortByWorld

/-! The region words (R282, R284, R299). -/

section RegionWords

variable {b : Block} {v : Word64} {size8 sec : Bool}

theorem regionBad_iff :
    regionBad v = true ↔ bitsOf v.toNat 20 16 ≠ 0 ∨ 1 ≤ bitsOf v.toNat 15 0 ∧ bitsOf v.toNat 15 0 ≤ 63 := by
  simp [regionBad]

theorem maskFits_region {a : Nat} (ha : a % 8 = 0) (size8 : Bool) : maskFits a (if size8 then 0xFF else 0x0F) = true := by
  cases size8 <;> simp [maskFits, ha]

theorem stageWrite_taken (hv : regionBad v = false) (hs : stagingInUse b = false) :
    stageWrite v true true b = each (laneNums b) restage (regionTaken 0x300 v b) :=
  if_neg (by simp [hv, hs])

theorem stageWrite_refused (h : size8 = false ∨ sec = false ∨ regionBad v = true ∨ stagingInUse b = true) :
    stageWrite v size8 sec b = rset1 b 0x304 31 :=
  if_pos (by simpa [or_assoc] using h)

theorem urecWrite_taken (hv : regionBad v = false) :
    urecWrite v true true b = each (laneNums b) rerecord (regionTaken 0x430 v b) :=
  if_neg (by simp [hv])

theorem urecWrite_refused (h : size8 = false ∨ sec = false ∨ regionBad v = true) :
    urecWrite v size8 sec b = rset1 b 0x434 31 :=
  if_pos (by simpa [or_assoc] using h)

variable {s : State}

theorem exec_sysStageWrite (h : PortTakes s 0x300) (hg : (slaveGate s.blk 0x300 true sec).1 = true) {g : Block → Block}
    (hw : stageWrite v size8 sec s.blk = g s.blk) : exec (.sysStageWrite v size8 sec) s = .next (afterWrite s g) :=
  portWrite_admitted h (maskFits_region rfl size8) hg hw

theorem exec_sysUrecWrite (h : PortTakes s 0x430) (hg : (slaveGate s.blk 0x430 true sec).1 = true) {g : Block → Block}
    (hw : urecWrite v size8 sec s.blk = g s.blk) : exec (.sysUrecWrite v size8 sec) s = .next (afterWrite s g) :=
  portWrite_admitted h (maskFits_region rfl size8) hg hw

end RegionWords

/-! The family window (R253, R465): the words of one write lie in one family's table, and neither a word taken nor one refused
changes whether that family is in use. -/

/-- Two effects that agree wherever an invariant holds, which the second keeps, agree over a run. -/
theorem each_congr_of_invariant {α : Type} {P : Block → Prop} {f g : Block → α → Block} :
    ∀ {l : List α} {b : Block}, P b → (∀ b, ∀ x ∈ l, P b → f b x = g b x ∧ P (g b x)) → each l f b = each l g b
  | [], _, _, _ => rfl
  | x :: l, b, hb, h => by
    obtain ⟨heq, hkept⟩ := h b x List.mem_cons_self hb
    rw [each_cons, each_cons, heq]
    exact each_congr_of_invariant hkept fun b y hy => h b y (List.mem_cons_of_mem x hy)

section FamilyWindow

variable {b : Block} {off : Nat} {m : BitVec 8} {v : Word64} {x : Nat × Word × Word}

/-- A word of a family's table that a write has replaced. -/
def familyWordTaken (b : Block) (x : Nat × Word × Word) : Block :=
  { b with
    tbl := tset 0xFFFFFFFF b.tbl x.1 x.2.2
    tblBad := b.tblBad.filter (· != x.1 / 4)
    famDirty := if b.famDirty.contains (x.1 / 0x400) then b.famDirty else b.famDirty ++ [x.1 / 0x400] }

theorem familyWordWrite_taken (ho : x.1 < 0x4000) (hf : familyInUse b (x.1 / 0x400) = false) :
    familyWordWrite x.1 x.2.2 true b = familyWordTaken b x := by
  simp only [familyWordWrite, if_neg (Nat.not_le.mpr ho), hf]
  rfl

theorem familyWordWrite_refused {sec : Bool} (ho : x.1 < 0x4000) (h : sec = false ∨ familyInUse b (x.1 / 0x400) = true) :
    familyWordWrite x.1 x.2.2 sec b = rset1 b 0x8 8 :=
  (if_neg (Nat.not_le.mpr ho)).trans (if_pos (by simpa using h))

/-- SYS_STATUS is no register of a lane. -/
theorem laneReg_ne_sysStatus (n o : Nat) : laneReg n o ≠ 0x8 := by unfold laneReg; omega

theorem dieMap_rset1_sysStatus (b : Block) (i n d : Nat) : dieMap (rset1 b 0x8 i) n d = dieMap b n d := by
  rw [dieMap, rset1_eq, rget_rput_other _ _ _ _ (laneReg_ne_sysStatus n _), rput_maps, dieMap]

theorem familyInUse_rset1_sysStatus (b : Block) (i f : Nat) : familyInUse (rset1 b 0x8 i) f = familyInUse b f := by
  have hstarted (n : Nat) : laneStarted (rset1 b 0x8 i) n = laneStarted b n := rbit_rset1_away (laneReg_ne_sysStatus n _) b i 4
  simp only [familyInUse, hstarted, dieInService, dieValid, dieFamily, dieMap_rset1_sysStatus]
  rfl

/-- An 8 B write is aligned, and so both its words lie in one table. -/
theorem maskWords_family (hm : maskFits (0x300000 + off) m = true) (ho : off < 0x4000) :
    ∀ x ∈ maskWords off m v, x.1 < 0x4000 ∧ x.1 / 0x400 = off / 0x400 := by
  intro x hx
  by_cases h8 : m = 0xFF
  · subst h8
    have haligned : (0x300000 + off) % 8 = 0 := by simpa [maskFits] using hm
    simp only [maskWords, if_pos, List.mem_cons, List.not_mem_nil, or_false] at hx
    rcases hx with rfl | rfl <;> constructor <;> dsimp only <;> omega
  · simp only [maskWords, if_neg h8, List.mem_singleton] at hx
    subst hx
    exact ⟨ho, rfl⟩

theorem familyWrite_taken (hm : maskFits (0x300000 + off) m = true) (ho : off < 0x4000)
    (hf : familyInUse b (off / 0x400) = false) :
    each (maskWords off m v) (fun b x => familyWordWrite x.1 x.2.2 true b) b = each (maskWords off m v) familyWordTaken b := by
  refine each_congr_of_invariant (P := fun b => familyInUse b (off / 0x400) = false) hf fun b x hx hb => ?_
  obtain ⟨hin, hfamily⟩ := maskWords_family hm ho x hx
  exact ⟨familyWordWrite_taken hin (hfamily ▸ hb), hb⟩

theorem familyWrite_refused {sec : Bool} (hm : maskFits (0x300000 + off) m = true) (ho : off < 0x4000)
    (h : sec = false ∨ familyInUse b (off / 0x400) = true) :
    each (maskWords off m v) (fun b x => familyWordWrite x.1 x.2.2 sec b) b =
      each (maskWords off m v) (fun b _ => rset1 b 0x8 8) b := by
  refine each_congr_of_invariant (P := fun b => sec = false ∨ familyInUse b (off / 0x400) = true) h fun b x hx hb => ?_
  obtain ⟨hin, hfamily⟩ := maskWords_family hm ho x hx
  exact ⟨familyWordWrite_refused hin (hfamily ▸ hb), by rwa [familyInUse_rset1_sysStatus]⟩

theorem exec_familyTableWrite {s : State} {sec : Bool} (h : PortTakes s (0x300000 + off))
    (hm : maskFits (0x300000 + off) m = true) (hg : (slaveGate s.blk (0x300000 + off) true sec).1 = true) {g : Block → Block}
    (hw : each (maskWords off m v) (fun b x => familyWordWrite x.1 x.2.2 sec b) s.blk = g s.blk) :
    exec (.familyTableWrite off m v sec) s = .next (afterWrite s g) :=
  portWrite_admitted h hm hg hw

end FamilyWindow

/-- Settles O45: each of the three writes by its world, and what is taken or refused of it. -/
theorem regionWrites : Obligations.RegionWrites := by
  intro s v off m size8 b
  refine ⟨fun h hv hs => exec_sysStageWrite h rfl (stageWrite_taken hv hs),
    fun h hbad => exec_sysStageWrite h rfl (stageWrite_refused (hbad.imp_right .inr)),
    fun h hv => exec_sysUrecWrite h rfl (urecWrite_taken hv),
    fun h hbad => exec_sysUrecWrite h rfl (urecWrite_refused (hbad.imp_right .inr)),
    regionBad_iff,
    fun h hm ho hf => exec_familyTableWrite h hm rfl (familyWrite_taken hm ho hf),
    fun h hm ho hf => exec_familyTableWrite h hm rfl (familyWrite_refused hm ho (.inr hf)),
    fun h hm => portWrite_badMask h hm true _,
    fun hg h => exec_sysStageWrite h hg (stageWrite_refused (.inr (.inl rfl))),
    fun hg h => portWrite_gateDenied h (maskFits_region rfl size8) hg _,
    fun hg h => exec_sysUrecWrite h hg (urecWrite_refused (.inr (.inl rfl))),
    fun hg h => portWrite_gateDenied h (maskFits_region rfl size8) hg _,
    fun hg h hm ho => exec_familyTableWrite h hm hg (familyWrite_refused hm ho (.inl rfl)),
    fun hg h hm => portWrite_gateDenied h hm hg _⟩

/-! The start of a lane (R229, R321, R438) by its outcomes, and its reset (R436). -/

section LaneStart

variable {b : Block} {n : Nat} {nv : NonVol} {errs : List ReadErr} {dies : List DieAnswer}

/-- A lane that does not start: it does not run, the build has it not, its clock is bad, its store is not loaded, it is held, or a start
of it has succeeded or failed. -/
def startBlocked (b : Block) (n : Nat) : Bool :=
  !laneRuns b n || decide (b.build.lanes ≤ n) || clockBad b n || (lane b n).loadPend || laneHold b n || laneStarted b n ||
    startFailed b n

/-- A starting lane has taken the entries of its die map (R229). -/
def dieMapTaken (b : Block) (n : Nat) : Block :=
  { b with maps := (List.range 64).foldl (fun t d => tset 0 t (64 * n + d) (rget b (laneReg n (0x400 + 4 * d)))) b.maps }

/-- A family table that the lane needs has to be loaded again while CFLASH is busy (R411, R414). -/
def startWaits (b : Block) (n : Nat) : Bool :=
  arrayBusy b && (laneFamilies (dieMapTaken b n) n).any (fun f => b.famDirty.contains f)

/-- A starting lane has read its families' tables (R411, R455). -/
def tablesRead (nv : NonVol) (errs : List ReadErr) (n : Nat) (b : Block) : Block :=
  readPlanted (fun x => decide (x.mem = 6)) (reloadSets nv errs n (dieMapTaken b n))

/-- The rate of a starting lane: the one it names, or the least of its families. -/
def startRate (c : Block) (n : Nat) : Nat :=
  let rates := (laneFamilies c n).map (fun f => fam16 c f 0x62)
  if fld (rget c (laneReg n 0x200)) 20 8 = 0 then rates.foldl min (rates.headD 10) else fld (rget c (laneReg n 0x200)) 20 8

/-- A lane shows that it has started, in its mode and at its rate, its two channels empty (R229, R338). -/
def startShown (c : Block) (n : Nat) : Block :=
  emptyChannels (rset1 (rputF (rputF c (laneReg n 0x204) 3 0 (fld (rget c (laneReg n 0x200)) 3 0)) (laneReg n 0x204) 20 8 (startRate c n))
    (laneReg n 0x204) 4) n

/-- A lane with a good configuration has started, and brings its dies up (R245). -/
def laneUp (n : Nat) (dies : List DieAnswer) (c : Block) : Block :=
  let d := startShown c n
  (validDies d n).foldl (startDie n dies) (updLane (fixLane n d) n (fun l =>
    { l with budget := frameBudget d, sca := (rget c (laneReg n 0x200)).getLsbD 4, steps := resetSteps d n }))

/-- What a start comes to once the tables are read: the first failure, or the lane started. -/
def startChecked (n : Nat) (dies : List DieAnswer) (c : Block) : Block :=
  if cfgErr c n ≠ 0 then rputF c (laneReg n 0x204) 27 24 (cfgErr c n)
  else if !(kindsNeeded c n).all (fun k => (entryWord c n k).isSome) then rputF c (laneReg n 0x304) 11 8 4
  else laneUp n dies c

/-- A start in its order. -/
theorem laneStart_eq : laneStart nv n dies errs b =
    if startBlocked b n then b
    else if startWaits b n then b
    else if faulted (tablesRead nv errs n b) then tablesRead nv errs n b
    else startChecked n dies (tablesRead nv errs n b) := rfl

theorem startBlocked_iff : startBlocked b n = true ↔ laneRuns b n = false ∨ b.build.lanes ≤ n ∨ clockBad b n = true ∨
    (lane b n).loadPend = true ∨ laneHold b n = true ∨ laneStarted b n = true ∨ startFailed b n = true := by
  simp [startBlocked, or_assoc]

/-- What a lane needs that starts. -/
theorem startBlocked_eq_false (hruns : laneRuns b n = true) (hbuild : n < b.build.lanes) (hclock : clockBad b n = false)
    (hloaded : (lane b n).loadPend = false) (hhold : laneHold b n = false) (hstarted : laneStarted b n = false)
    (hfailed : startFailed b n = false) : startBlocked b n = false := by
  simp [startBlocked, hruns, hbuild, hclock, hloaded, hhold, hstarted, hfailed]

theorem startWaits_iff : startWaits b n = true ↔
    arrayBusy b = true ∧ ∃ f ∈ laneFamilies (dieMapTaken b n) n, f ∈ b.famDirty := by
  simp [startWaits]

theorem startWaits_eq_false (h : arrayBusy b = false ∨ ¬ ∃ f ∈ laneFamilies (dieMapTaken b n) n, f ∈ b.famDirty) :
    startWaits b n = false := by
  rw [← Bool.not_eq_true, startWaits_iff, not_and_or, Bool.not_eq_true]
  exact h

theorem laneStart_blocked (h : startBlocked b n = true) : laneStart nv n dies errs b = b := laneStart_eq.trans (if_pos h)

theorem laneStart_waits (hb : startBlocked b n = false) (hw : startWaits b n = true) : laneStart nv n dies errs b = b := by
  rw [laneStart_eq, hb, hw]; rfl

theorem laneStart_faults (hb : startBlocked b n = false) (hw : startWaits b n = false)
    (hf : faulted (tablesRead nv errs n b) = true) : laneStart nv n dies errs b = tablesRead nv errs n b := by
  rw [laneStart_eq, hb, hw, hf]; rfl

theorem laneStart_checks (hb : startBlocked b n = false) (hw : startWaits b n = false)
    (hf : faulted (tablesRead nv errs n b) = false) :
    laneStart nv n dies errs b = startChecked n dies (tablesRead nv errs n b) := by
  rw [laneStart_eq, hb, hw, hf]; rfl

variable {c : Block}

theorem startChecked_badConfig (h : cfgErr c n ≠ 0) : startChecked n dies c = rputF c (laneReg n 0x204) 27 24 (cfgErr c n) :=
  if_pos h

theorem startChecked_missingKind (h : cfgErr c n = 0) (hk : ∃ k ∈ kindsNeeded c n, entryWord c n k = none) :
    startChecked n dies c = rputF c (laneReg n 0x304) 11 8 4 :=
  (if_neg (not_not.mpr h)).trans (if_pos (by simpa using hk))

theorem startChecked_good (h : cfgErr c n = 0) (hk : ∀ k ∈ kindsNeeded c n, entryWord c n k ≠ none) :
    startChecked n dies c = laneUp n dies c :=
  (if_neg (not_not.mpr h)).trans (if_neg (by simpa [Option.isSome_iff_ne_none] using hk))

/-- Where no word of the memories that `p` names is planted, reading them changes nothing (log entry 9, DESIGN CHOICE). -/
theorem readPlanted_of_none {p : Planted → Bool} (h : ∀ x ∈ b.planted, p x = false) : readPlanted p b = b := by
  have hnone : b.planted.filter p = [] := List.filter_eq_nil_iff.mpr fun x hx => ne_true_of_eq_false (h x hx)
  rw [readPlanted, hnone]
  rfl

theorem wakePs2_of_ne (h : powerState b ≠ 2) : wakePs2 b = b := if_neg h

/-- A lane reset discards the work of a lane that has not halted, and the lane starts again (R436). -/
theorem laneCtrlWrite_resets {v : Word} (hv : v.getLsbD 0 = true) (hf : faulted b = false) (hn : n < b.build.lanes)
    (hp : powerState b ≠ 2) :
    laneCtrlWrite n v true b =
      let d := if laneHalted b n then b else discardLanes [n] 1 2 n b
      resetLane (rbit d (laneReg n 0x300) 2) n d := by
  rw [laneCtrlWrite, if_neg (by simp [hv, hf, hn]), wakePs2_of_ne hp]

end LaneStart

/-- Settles O58: a start by its tests in their order, the reading of the tables, and a lane reset. -/
theorem lanesStart : Obligations.LanesStart := by
  intro s n dies errs v b m c reloads
  refine ⟨fun hruns hbuild hclock hloaded hhold hstarted hfailed hready hfaulted => ?checks,
    fun hruns hbuild hclock hloaded hhold hstarted hfailed => ?tables, rfl,
    fun hplanted => ⟨rfl, readPlanted_of_none fun x hx => decide_eq_false (hplanted x hx)⟩,
    fun h => act_of_eq (laneStart_blocked (startBlocked_iff.mpr h)),
    fun h hv hf hn hp => regWrite4_of_eq h (laneReg_aligned (by decide)) (laneCtrlWrite_resets hv hf hn hp)⟩
  case checks =>
    have hb := startBlocked_eq_false hruns hbuild hclock hloaded hhold hstarted hfailed
    have hstart := laneStart_checks (dies := dies) hb (startWaits_eq_false hready) hfaulted
    exact ⟨fun herr => act_of_eq (hstart.trans (startChecked_badConfig herr)),
      fun hgood hkind => act_of_eq (hstart.trans (startChecked_missingKind hgood hkind)),
      fun hgood hkinds => act_of_eq (hstart.trans (startChecked_good hgood hkinds))⟩
  case tables =>
    have hb := startBlocked_eq_false hruns hbuild hclock hloaded hhold hstarted hfailed
    exact ⟨fun hbusy hreloads => act_of_eq (laneStart_waits hb (startWaits_iff.mpr ⟨hbusy, hreloads⟩)),
      fun hready hfaulted => act_of_eq (laneStart_faults hb (startWaits_eq_false hready) hfaulted)⟩

end Sys2Proof.Laws

/-! The codeword path's codes: the randomiser (R265, R266) and the LDPC code (R471). -/

namespace Sys2Proof.Laws

open Sys2Proof Sys2Proof.Machine

/-! The randomiser's register, step by step. -/

section Randomiser

/-- One step of the register as R265 writes it. -/
def lfsrNext (r : Nat) : Nat := ((r <<< 1) ||| (((r >>> 22) ^^^ (r >>> 17)) &&& 1)) &&& 0x7FFFFF

/-- The output bit is s[22], and the next state is R265's. -/
theorem lfsrStep_eq (r : Nat) : lfsrStep r = ((r.testBit 22).toNat, lfsrNext r) := by
  have hfeed : ((r >>> 22) ^^^ (r >>> 17)) &&& 1 = (r / 2 ^ 22 % 2 + r / 2 ^ 17) % 2 := by
    rw [Nat.and_one_is_mod, Nat.xor_mod_two_eq, Nat.shiftRight_eq_div_pow, Nat.shiftRight_eq_div_pow, Nat.mod_add_mod]
  refine Prod.ext (Nat.toNat_testBit r 22).symm ?_
  rw [lfsrNext, hfeed, ← Nat.shiftLeft_add_eq_or_of_lt (Nat.mod_lt _ two_pos), Nat.shiftLeft_eq,
    show 0x7FFFFF = 2 ^ 23 - 1 from rfl, Nat.and_two_pow_sub_one_eq_mod, pow_one, mul_comm r 2]
  rfl

theorem lfsrBits_succ (n r : Nat) :
    lfsrBits (n + 1) r = ((r.testBit 22).toNat + 2 * (lfsrBits n (lfsrNext r)).1, (lfsrBits n (lfsrNext r)).2) := by
  rw [lfsrBits, lfsrStep_eq]

theorem lfsrBits_snd : ∀ n r : Nat, (lfsrBits n r).2 = lfsrNext^[n] r
  | 0, _ => rfl
  | n + 1, r => by rw [lfsrBits_succ, Function.iterate_succ_apply]; exact lfsrBits_snd n _

/-- Bit k of the mask is the output of step k. -/
theorem lfsrBits_testBit : ∀ {n k : Nat} (r : Nat), k < n → (lfsrBits n r).1.testBit k = (lfsrNext^[k] r).testBit 22
  | n + 1, 0, r, _ => by
    rw [lfsrBits_succ, Nat.testBit_zero]
    cases hout : r.testBit 22 <;> simp [hout]
  | n + 1, k + 1, r, h => by
    have hhalf : ((r.testBit 22).toNat + 2 * (lfsrBits n (lfsrNext r)).1) / 2 = (lfsrBits n (lfsrNext r)).1 := by
      have := (r.testBit 22).toNat_lt
      omega
    rw [lfsrBits_succ, Nat.testBit_succ, hhalf, Function.iterate_succ_apply]
    exact lfsrBits_testBit _ (by omega)

theorem lfsrMask_succ (n r : Nat) :
    (lfsrMask (n + 1) r).1 = BitVec.ofNat 8 (lfsrBits 8 r).1 :: (lfsrMask n (lfsrNext^[8] r)).1 := by
  rw [← lfsrBits_snd]
  rfl

@[simp] theorem lfsrMask_length : ∀ n r : Nat, (lfsrMask n r).1.length = n
  | 0, _ => rfl
  | n + 1, r => by rw [lfsrMask_succ, List.length_cons, lfsrMask_length n]

/-- Bit k of byte i of the mask is the output of step 8i + k. -/
theorem lfsrMask_getLsbD : ∀ {n i k : Nat} (r : Nat) (hi : i < (lfsrMask n r).1.length), k < 8 →
    (lfsrMask n r).1[i].getLsbD k = (lfsrNext^[8 * i + k] r).testBit 22
  | 0, _, _, _, hi, _ => absurd hi (Nat.not_lt_zero _)
  | n + 1, 0, k, r, _, hk => by
    simp only [lfsrMask_succ, List.getElem_cons_zero, BitVec.getLsbD_ofNat, hk, lfsrBits_testBit r hk, mul_zero, zero_add,
      decide_true, Bool.true_and]
  | n + 1, i + 1, k, r, hi, hk => by
    have hi' : i < (lfsrMask n (lfsrNext^[8] r)).1.length := by simpa using hi
    simp only [lfsrMask_succ, List.getElem_cons_succ, lfsrMask_getLsbD _ hi' hk, ← Function.iterate_add_apply]
    rw [show 8 * i + k + 8 = 8 * (i + 1) + k by omega]

@[simp] theorem randomise_length (pa : Nat) (l : List Byte) : (randomise pa l).length = l.length := by simp [randomise]

/-- A byte is stored as its XOR with the mask's byte. -/
theorem randomise_getElem (pa : Nat) (l : List Byte) (i : Nat) (hi : i < (randomise pa l).length) :
    (randomise pa l)[i] = l[i]'(by simpa using hi) ^^^ (lfsrMask l.length (lfsrSeed pa)).1[i]'(by simpa using hi) := by
  simp [randomise]

/-- The same mask twice is none. -/
theorem randomise_randomise (pa : Nat) (l : List Byte) : randomise pa (randomise pa l) = l :=
  List.ext_getElem (by simp) fun i _ _ => by
    simp only [randomise_getElem, randomise_length, BitVec.xor_assoc, BitVec.xor_self, BitVec.xor_zero]

theorem lfsrSeed_eq (pa : Nat) :
    let r := paPage pa ||| (paSlot pa <<< 14) ||| (((paUnit pa ^^^ paDie pa) &&& 0x3F) <<< 17)
    lfsrSeed pa = if r = 0 then 0x7FFFFF else r := by
  have hpage : paPage pa < 2 ^ 14 := Nat.mod_lt _ (by decide)
  have hslot : paSlot pa < 2 ^ 3 := Nat.mod_lt _ (by decide)
  have hlow : paSlot pa <<< 14 + paPage pa < 2 ^ 17 := by
    rw [Nat.shiftLeft_eq]; omega
  have hdie : (paUnit pa ^^^ paDie pa) &&& 0x3F = (paUnit pa ^^^ paDie pa) % 64 := Nat.and_two_pow_sub_one_eq_mod _ 6
  have hsum : paPage pa ||| (paSlot pa <<< 14) ||| (((paUnit pa ^^^ paDie pa) &&& 0x3F) <<< 17) =
      paPage pa + paSlot pa * 2 ^ 14 + ((paUnit pa ^^^ paDie pa) % 64) * 2 ^ 17 := by
    rw [hdie, Nat.or_comm (paPage pa), ← Nat.shiftLeft_add_eq_or_of_lt hpage, Nat.or_comm,
      ← Nat.shiftLeft_add_eq_or_of_lt hlow, Nat.shiftLeft_eq, Nat.shiftLeft_eq]
    omega
  simp only [hsum]
  rfl

end Randomiser

/-- Settles O60: the mask's bits are the register's outputs, by induction on the bytes, and XOR with it twice is nothing. -/
theorem randomiserSequence : Obligations.RandomiserSequence := by
  refine ⟨fun pa l => ⟨randomise_length pa l, randomise_randomise pa l, fun i k hi hk => ?bit⟩, lfsrSeed_eq⟩
  case bit =>
    have hr : i < (randomise pa l).length := by simpa using hi
    rw [List.getD_eq_getElem _ _ hr, List.getD_eq_getElem _ _ hi, randomise_getElem, BitVec.getLsbD_xor, lfsrMask_getLsbD _ _ hk]
    rfl

/-- The bytes of a codeword of m parity blocks, from any 4,128 information bytes. -/
theorem ldpcEncode_blocks_length {info : List Byte} (h : info.length = 4128) (m : Nat) :
    (ldpcEncode info (4128 + 32 * m)).length = 4128 + 32 * m := by
  have hrows : ldpcRows (4128 + 32 * m) = m := by
    rw [ldpcRows]; omega
  rw [ldpcEncode_length, h, hrows]

/-- The code is systematic: a codeword begins with its information bytes. -/
theorem ldpcEncode_take (info : List Byte) (len : Nat) : (ldpcEncode info len).take info.length = info :=
  List.take_left

/-- Settles O59: encoding a codeword's information bytes again gives its own parity. -/
theorem encodedCodewordsAreValid : Obligations.EncodedCodewordsAreValid := by
  intro info m h
  refine decide_eq_true ?_
  rw [ldpcEncode_blocks_length h, ← h, ldpcEncode_take]

end Sys2Proof.Laws

/-! What the decoders do with a codeword, and what becomes of their outputs (R268, R271, R275, R277, R307). -/

namespace Sys2Proof.Laws

open Sys2Proof Sys2Proof.Machine

section Decodes

variable {b : Block} {j d id : Nat} (out : List Byte)

/-- A decoder's output for codeword id is a codeword of the code, in the length of its die's family (R271, R471). -/
abbrev GoodOutput (b : Block) (id : Nat) (out : List Byte) : Prop :=
  ldpcValid out = true ∧ out.length = cwLen b (dieFamily b (cw b id).lane (paDie (cw b id).pa))

/-- A good output of the hard decoder: counted against the derandomised read (R269), and its page goes on (R307). -/
def hardDecoded (b : Block) (id : Nat) (out : List Byte) : Block :=
  escalate (cw b id).lane (cwDecoded id (bitDiff (randomise (cw b id).pa (cw b id).raw) out) out
    (updCw b id (fun x => { x with stage := .done }))) id

/-- The output for a codeword in its hard decode, on a running lane, succeeds just where it is good. -/
theorem hardDecodeDone_awaited (hlive : cwLive b id = true) (hstage : (cw b id).stage = .hard)
    (hruns : laneRuns b (cw b id).lane = true) (unsat : Nat) :
    hardDecodeDone (cw b id).lane id out unsat b = if GoodOutput b id out then hardDecoded b id out else hardFailed id unsat b :=
  if_neg (by simp [hlive, hstage, hruns])

/-- The queued codeword that goes first of y and the rest (R277). -/
def firstQueued (b : Block) (y : Nat) (rest : List Nat) : Nat := rest.foldl (fun m x => if softBefore b m x then m else x) y

/-- Decoder d of junction j takes codeword id with its soft input. -/
def softTaken (b : Block) (j d id : Nat) : Block :=
  rinc (updCw (updJunc b j (fun q => { q with
    soft := q.soft.filter (· != id), dec := tput q.dec d (id + 1), input := tput q.input d (softInput b (cw b id)) })) id
    (fun c => { c with stage := .softDecode })) (juncReg j 0x20C) 31 0 1

theorem softDecodeStart_takes {y : Nat} {rest : List Nat} (hqueue : (junc b j).soft = y :: rest) (hfree : tget 0 (junc b j).dec d = 0)
    (hruns : running b = true) (hd : d < 4) : softDecodeStart j d b = softTaken b j d (firstQueued b y rest) := by
  simp only [softDecodeStart, hqueue]
  exact if_neg (by simp [hfree, hruns, hd])

/-- Decoder d of junction j is free again. -/
def decoderFreed (b : Block) (j d : Nat) : Block :=
  updJunc b j (fun q => { q with dec := terase q.dec d, input := terase q.input d })

/-- A good output of a soft decoder: counted against the derandomised hard plane (R269). -/
def softDecoded (b : Block) (j d id : Nat) (out : List Byte) : Block :=
  cwDecoded id (bitDiff (randomise (cw b id).pa ((cw b id).soft.headD [])) out) out
    (rinc (decoderFreed b j d) (laneReg (cw b id).lane 0x25C) 15 0 1)

/-- A failed soft decode ends the codeword, with DETAIL 1 in MODE 3 (R307). -/
def softFailed (b : Block) (j d id : Nat) : Block :=
  cwOutcome id stUncorr (if recoveryMode (instr b (cw b id).e (cw b id).i).bytes = 3 then 1 else 0)
    (rinc (decoderFreed b j d) (laneReg (cw b id).lane 0x25C) 31 16 1)

section Junctions

variable (b : Block) (j id : Nat) (f : Junction → Junction)

/-! A junction's update leaves the codewords, their instructions and the families. -/

theorem cwLive_updJunc : cwLive (updJunc b j f) id = cwLive b id := rfl

theorem cw_updJunc : cw (updJunc b j f) id = cw b id := rfl

theorem cwLen_updJunc (fam : Nat) : cwLen (updJunc b j f) fam = cwLen b fam := rfl

theorem dieFamily_updJunc (n d : Nat) : dieFamily (updJunc b j f) n d = dieFamily b n d := rfl

theorem instr_rinc_updJunc (a hi lo k e i : Nat) : instr (rinc (updJunc b j f) a hi lo k) e i = instr b e i := rfl

end Junctions

/-- The output for the codeword that a decoder holds succeeds just where it is good. -/
theorem softDecodeDone_held (hheld : tget 0 (junc b j).dec d = id + 1) (hruns : running b = true) (hlive : cwLive b id = true)
    (hstage : (cw b id).stage = .softDecode) :
    softDecodeDone j d out b = if GoodOutput b id out then softDecoded b j d id out else softFailed b j d id := by
  have hbusy : ¬ (id + 1 = 0 ∨ (!running b) = true) := by simp [hruns]
  have hcw : ¬ ((!cwLive b id) = true ∨ (cw b id).stage ≠ .softDecode) := by simp [hlive, hstage]
  simp only [softDecodeDone, hheld, if_neg hbusy, Nat.add_sub_cancel, cwLive_updJunc, cw_updJunc, cwLen_updJunc,
    dieFamily_updJunc, instr_rinc_updJunc, if_neg hcw]
  rfl

end Decodes

/-- Settles O32: each output by whether it is good, and the queued codeword that a free decoder takes. -/
theorem decoders : Obligations.Decoders := by
  intro s n j d id out unsat b c good
  refine ⟨fun hlive hlane hstage hruns => ?hard, fun y rest hqueue hfree hruns hd => ?start,
    fun hheld hruns hlive hstage => ?soft, fun c => ⟨rfl, rfl⟩⟩
  case hard =>
    subst hlane
    have houtput := hardDecodeDone_awaited out hlive hstage hruns unsat
    exact ⟨fun hgood => act_of_eq (houtput.trans (if_pos hgood)), fun hbad => act_of_eq (houtput.trans (if_neg hbad))⟩
  case start => exact act_of_eq (softDecodeStart_takes hqueue hfree hruns hd)
  case soft =>
    have houtput := softDecodeDone_held out hheld hruns hlive hstage
    exact ⟨fun hgood => act_of_eq (houtput.trans (if_pos hgood)), fun hbad => act_of_eq (houtput.trans (if_neg hbad))⟩

end Sys2Proof.Laws

/-! Microwords (R313 to R317, R327): which of them are legal, where they send the pc, and what a sequencer's command comes to with the
microword at its pc. -/

namespace Sys2Proof.Laws

open Sys2Proof Sys2Proof.Machine

/-! The legality of a microword (R315, R316). -/

section Legality

variable {native : Bool} {w : BitVec 33}

theorem bitsOf_lt (x hi lo : Nat) : bitsOf x hi lo < 2 ^ (hi + 1 - lo) := Nat.mod_lt _ (Nat.two_pow_pos _)

theorem mwOp_lt (w : BitVec 33) : mwOp w < 64 := bitsOf_lt _ 29 24

theorem mwImm_lt (w : BitVec 33) : mwImm w < 65536 := bitsOf_lt _ 15 0

/-- The OPs that name no operation (R316). -/
theorem microOp_eq_none_iff : ∀ op < 64, microOp op = none ↔ 0x16 ≤ op ∧ op < 0x20 ∨ 0x2F ≤ op := by decide

/-- The columns of R316's table: class, native only, A and B. -/
theorem microOp_columns : ∀ op < 64, ∀ o ∈ microOp op,
    (o.a = false ↔ op ∈ [0x00, 0x01, 0x02, 0x03, 0x04, 0x05, 0x06, 0x15, 0x21, 0x22, 0x23, 0x24, 0x27, 0x28, 0x2E]) ∧
    (o.b = false ↔ op ∉ [0x0A, 0x0B, 0x0C, 0x0D, 0x0E, 0x0F, 0x29, 0x2A]) ∧
    (o.cls ≠ 0 ↔ op = 0x01 ∨ 0x20 ≤ op) ∧ (o.native = true ↔ op = 0x14 ∨ op = 0x15) := by decide

/-- The column IMM of R316's table: how many bits an operation uses of it. -/
theorem microOp_immBits : ∀ op < 64, ∀ o ∈ microOp op, o.imm ∈ [0, 3, 5, 8, 12, 13, 16] := by decide

/-- The operations that use no bit of IMM. -/
theorem microOp_immNone : ∀ op < 64, ∀ o ∈ microOp op, (o.imm = 0 ↔
    op ∈ [0x00, 0x01, 0x06, 0x0A, 0x0B, 0x0C, 0x0D, 0x0E, 0x0F, 0x20, 0x21, 0x25, 0x26, 0x29, 0x2A, 0x2B, 0x2C, 0x2D]) := by decide

/-- The operations that use some bits of IMM, but not all. -/
theorem microOp_immSome : ∀ op < 64, ∀ o ∈ microOp op, (o.imm = 13 ↔ op ∈ [0x02, 0x03, 0x04, 0x05, 0x07]) ∧
    (o.imm = 5 ↔ op ∈ [0x10, 0x11, 0x27]) ∧ (o.imm = 8 ↔ op ∈ [0x22, 0x23, 0x24]) ∧ (o.imm = 12 ↔ op = 0x14) ∧
    (o.imm = 3 ↔ op = 0x2E) := by decide

theorem microIllegal_of_unknown (h : microOp (mwOp w) = none) : microIllegal native w = true := by simp only [microIllegal, h]

theorem microIllegal_iff_of_known {o : MicroOp} (h : microOp (mwOp w) = some o) : microIllegal native w = true ↔
    mwA w ≠ 0 ∧ o.a = false ∨ mwB w ≠ 0 ∧ o.b = false ∨ 2 ^ o.imm ≤ mwImm w ∨ mwCyc w ≠ 0 ∧ (native = false ∨ o.cls ≠ 0) ∨
      native = false ∧ o.native = true := by
  simp [microIllegal, h, or_assoc, and_comm]

/-- IMM has a bit that the operation does not use of it (R315, R316). -/
def ImmUnused (op imm : Nat) : Prop :=
  imm ≠ 0 ∧ op ∈ [0x00, 0x01, 0x06, 0x0A, 0x0B, 0x0C, 0x0D, 0x0E, 0x0F, 0x20, 0x21, 0x25, 0x26, 0x29, 0x2A, 0x2B, 0x2C, 0x2D] ∨
    8192 ≤ imm ∧ op ∈ [0x02, 0x03, 0x04, 0x05, 0x07] ∨ 32 ≤ imm ∧ op ∈ [0x10, 0x11, 0x27] ∨
    256 ≤ imm ∧ op ∈ [0x22, 0x23, 0x24] ∨ 4096 ≤ imm ∧ op = 0x14 ∨ 8 ≤ imm ∧ op = 0x2E

theorem immUnused_iff {op imm : Nat} {o : MicroOp} (hop : op < 64) (himm : imm < 65536) (h : microOp op = some o) :
    2 ^ o.imm ≤ imm ↔ ImmUnused op imm := by
  have h0 := microOp_immNone op hop o h
  obtain ⟨h13, h5, h8, h12, h3⟩ := microOp_immSome op hop o h
  have hbits := microOp_immBits op hop o h
  simp only [List.mem_cons, List.not_mem_nil, or_false] at hbits
  rw [ImmUnused, ← h0, ← h13, ← h5, ← h8, ← h12, ← h3]
  rcases hbits with hk | hk | hk | hk | hk | hk | hk <;> rw [hk] <;> omega

/-- A legal microword uses no bit of IMM but its operation's k. -/
theorem mwImm_mod_of_legal {k : Nat} (h : microIllegal native w = false) (ho : (microOp (mwOp w)).map MicroOp.imm = some k) :
    mwImm w % 2 ^ k = mwImm w := by
  obtain ⟨o, hmicro, rfl⟩ := Option.map_eq_some_iff.mp ho
  refine Nat.mod_eq_of_lt (Nat.lt_of_not_le fun hunused => ?_)
  have hill := (microIllegal_iff_of_known (native := native) hmicro).mpr (Or.inr (Or.inr (Or.inl hunused)))
  exact absurd hill (ne_true_of_eq_false h)

end Legality

/-! Where a microword sends the pc (R316). -/

section Jumps

variable {q : Seq} {w : BitVec 33}

theorem jumpTarget_none (h : mwOp w ∉ [0x02, 0x03, 0x04, 0x05, 0x06, 0x07]) : jumpTarget q w = none := by
  simp only [List.mem_cons, List.not_mem_nil, or_false, not_or] at h
  simp [jumpTarget, h]

theorem jumpTarget_always (h : mwOp w = 0x02 ∨ mwOp w = 0x05) : jumpTarget q w = some (mwImm w % 8192) := if_pos h

theorem jumpTarget_jz (h : mwOp w = 0x03) : jumpTarget q w = if q.z then some (mwImm w % 8192) else none := by simp [jumpTarget, h]

theorem jumpTarget_jnz (h : mwOp w = 0x04) : jumpTarget q w = if q.z then none else some (mwImm w % 8192) := by simp [jumpTarget, h]

theorem jumpTarget_ret (h : mwOp w = 0x06) : jumpTarget q w = q.stack.head? := by simp [jumpTarget, h]

theorem jumpTarget_loop (h : mwOp w = 0x07) :
    jumpTarget q w = if q.reg (mwA w) - 1 = 0 then none else some (mwImm w % 8192) := by simp [jumpTarget, h]

/-- A legal jump that is taken goes to its IMM. -/
theorem jumpTarget_taken {native : Bool} (h : microIllegal native w = false)
    (hj : mwOp w = 0x05 ∨ mwOp w = 0x02 ∨ mwOp w = 0x03 ∧ q.z = true ∨ mwOp w = 0x04 ∧ q.z = false ∨
      mwOp w = 0x07 ∧ q.reg (mwA w) ≠ 1) : jumpTarget q w = some (mwImm w) := by
  have himm {op : Nat} (hop : mwOp w = op) (ho : (microOp op).map MicroOp.imm = some 13) : mwImm w % 8192 = mwImm w :=
    mwImm_mod_of_legal h (hop.symm ▸ ho)
  rcases hj with hop | hop | ⟨hop, hz⟩ | ⟨hop, hz⟩ | ⟨hop, hne⟩
  · rw [jumpTarget_always (Or.inr hop), himm hop rfl]
  · rw [jumpTarget_always (Or.inl hop), himm hop rfl]
  · rw [jumpTarget_jz hop, hz, himm hop rfl, if_pos rfl]
  · rw [jumpTarget_jnz hop, hz, himm hop rfl, if_neg Bool.false_ne_true]
  · rw [jumpTarget_loop hop, himm hop rfl, if_neg (sub_ne_zero_of_ne hne)]

/-- A jump that is not taken goes on to the next word. -/
theorem jumpTarget_untaken (hj : mwOp w = 0x03 ∧ q.z = false ∨ mwOp w = 0x04 ∧ q.z = true ∨ mwOp w = 0x07 ∧ q.reg (mwA w) = 1) :
    jumpTarget q w = none := by
  rcases hj with ⟨hop, hz⟩ | ⟨hop, hz⟩ | ⟨hop, heq⟩
  · rw [jumpTarget_jz hop, hz, if_neg Bool.false_ne_true]
  · rw [jumpTarget_jnz hop, hz, if_pos rfl]
  · rw [jumpTarget_loop hop, heq, sub_self, if_pos rfl]

end Jumps

/-! The fault of a microword (R327). -/

section Faults

variable {b : Block} {n : Nat} {q : Seq}

/-- The word at the pc is legal: its parity is good, and it is a microword of the lane (R315, R327). -/
abbrev LegalWord (b : Block) (n : Nat) (q : Seq) : Prop :=
  parityOk (q.word b n) = true ∧ microIllegal (laneNative b n) (q.word b n) = false

theorem microFault_parity (h : parityOk (q.word b n) = false) : microFault b n q = 1 := by simp [microFault, h]

theorem microFault_illegal (hp : parityOk (q.word b n) = true) (hi : microIllegal (laneNative b n) (q.word b n) = true) :
    microFault b n q = 2 := by simp [microFault, hp, hi]

theorem legal_of_microFault (h : microFault b n q = 0) : microIllegal (laneNative b n) (q.word b n) = false := by
  cases hp : parityOk (q.word b n) with
  | false => rw [microFault_parity hp] at h; omega
  | true =>
    cases hi : microIllegal (laneNative b n) (q.word b n) with
    | false => rfl
    | true => rw [microFault_illegal hp hi] at h; omega

end Faults

/-! What a sequencer's command comes to: the microword's effect, or the machine check of a faulty one (R313, R327). -/

section Commands

variable {s : State} {n op : Nat} {q : Seq}

theorem op_of_atWord (h : AtWord s n q op) : mwOp (q.word s.blk n) = op := by
  obtain ⟨-, -, hop, -⟩ := h
  exact hop

/-- A microword in its place uses no bit of IMM but its operation's k. -/
theorem mwImm_mod_of_atWord {k : Nat} (h : AtWord s n q op) (ho : (microOp op).map MicroOp.imm = some k) :
    mwImm (q.word s.blk n) % 2 ^ k = mwImm (q.word s.blk n) := by
  obtain ⟨-, -, hop, hgood⟩ := h
  exact mwImm_mod_of_legal (legal_of_microFault hgood) (hop.symm ▸ ho)

/-- An immediate microword that does not jump: its effect, and on to the next word. -/
theorem immStep_goesOn {g : Seq → BitVec 33 → Seq} (h : AtWord s n q op) (hj : jumpTarget q (q.word s.blk n) = none) :
    s.act (immStep n op g) = .next (after s (putSeq n ((g q (q.word s.blk n)).next (mwCyc (q.word s.blk n) + 1)) s.blk)) :=
  act_of_eq ((microStep_of h _).trans (by rw [hj]))

/-- An immediate microword that jumps: its effect, and the pc at its target. -/
theorem immStep_jumps {g : Seq → BitVec 33 → Seq} {t : Nat} (h : AtWord s n q op) (hj : jumpTarget q (q.word s.blk n) = some t) :
    s.act (immStep n op g) =
      .next (after s (putSeq n { (g q (q.word s.blk n)).next (mwCyc (q.word s.blk n) + 1) with pc := t } s.blk)) :=
  act_of_eq ((microStep_of h _).trans (by rw [hj]))

/-- An immediate microword, by where its pc goes. -/
theorem immStep_goes {g : Seq → BitVec 33 → Seq} {t : Nat} (h : AtWord s n q op) (hpc : (g q (q.word s.blk n)).pc = q.pc)
    (ht : (jumpTarget q (q.word s.blk n)).getD ((q.pc + 1) % 8192) = t) : s.act (immStep n op g) =
      .next (after s (putSeq n { (g q (q.word s.blk n)).next (mwCyc (q.word s.blk n) + 1) with pc := t } s.blk)) := by
  subst ht
  cases hj : jumpTarget q (q.word s.blk n) with
  | none =>
    rw [immStep_goesOn h hj, Option.getD_none, ← hpc]
    rfl
  | some t => exact immStep_jumps h hj

/-- A computing microword (R316) has its effect, and goes on to the next word. -/
theorem immStep_computes {g : Seq → BitVec 33 → Seq} (hop : op ∉ [0x02, 0x03, 0x04, 0x05, 0x06, 0x07]) (h : AtWord s n q op) :
    s.act (immStep n op g) = .next (after s (putSeq n ((g q (q.word s.blk n)).next (mwCyc (q.word s.blk n) + 1)) s.blk)) :=
  immStep_goesOn h (jumpTarget_none ((op_of_atWord h).symm ▸ hop))

end Commands

/-- Settles O4: every computing microword by the one rule of those that do not jump; a shift's count is legal below 32. -/
theorem computingMicrowords : Obligations.ComputingMicrowords := by
  intro s n q w A a x on res
  refine ⟨immStep_computes (by decide), immStep_computes (by decide), immStep_computes (by decide), immStep_computes (by decide),
    immStep_computes (by decide), immStep_computes (by decide), immStep_computes (by decide), immStep_computes (by decide),
    immStep_computes (by decide), fun h => ?shl, fun h => ?shr, immStep_computes (by decide), immStep_computes (by decide)⟩
  case shl | shr =>
    have hcount : mwImm w % 32 = mwImm w := mwImm_mod_of_atWord h rfl
    refine (immStep_computes (by decide) h).trans ?_
    rw [hcount]
    rfl

/-! LDP and the entries that queued microwords post (R313, R316). -/

section Posting

variable {s : State} {n op : Nat} {q : Seq}

/-- What LDP reads at offset o of family f's table by its size code, and the block that it leaves. -/
def ldpValue (b : Block) (f o sz : Nat) : Word × Block :=
  if sz = 0 then (BitVec.ofNat 32 (fam8 b f o), b)
  else if sz = 1 then (BitVec.ofNat 32 (fam16 b f o), b)
  else if sz = 2 then (BitVec.ofNat 32 (fam32 b f o), b)
  else freeOf 32 b

/-- LDP loads what its size code reads. -/
theorem exec_mwLdp {x : Word × Block} (h : AtWord s n q 0x14)
    (hx : ldpValue s.blk (dieFamily s.blk n q.routine.die) (mwImm (q.word s.blk n) % 1024) (mwImm (q.word s.blk n) / 1024 % 4) = x) :
    exec (.mwLdp n) s =
      .next (after s (putSeq n ((q.put (mwA (q.word s.blk n)) x.1).next (mwCyc (q.word s.blk n) + 1)) x.2)) := by
  subst hx
  exact act_of_eq (microStep_of h _)

/-- A queued microword (R313): with room in the queue it posts its entry and goes on, with the queue full it stalls. -/
theorem postStep_of {g : Block → Seq → BitVec 33 → CycEntry} (h : AtWord s n q op) :
    (q.queue.length < queueDepth s.blk n → s.act (postStep n op g) =
      .next (after s (putSeq n ({ q with queue := q.queue ++ [g s.blk q (q.word s.blk n)] }.next 1) s.blk))) ∧
    (queueDepth s.blk n ≤ q.queue.length → s.act (postStep n op g) = .next (after s s.blk)) :=
  ⟨fun hroom => act_of_eq ((microStep_of h _).trans (if_neg (Nat.not_le.mpr hroom))),
    fun hfull => act_of_eq ((microStep_of h _).trans (if_pos hfull))⟩

end Posting

/-- Settles O5: each jump by its target, LDP by its size code. -/
theorem jumpingMicrowords : Obligations.JumpingMicrowords := by
  constructor
  · intro s n q w goes on a
    refine ⟨fun h => immStep_goes h rfl ?jmp, fun h => immStep_goes h rfl ?jz, fun h => immStep_goes h rfl ?jnz,
      fun h => immStep_goes h rfl ?call, fun h t rest hstack => ?ret, fun h => immStep_goes h rfl ?loop⟩
    case jmp | call =>
      rw [jumpTarget_always (by simp [op_of_atWord h]), Option.getD_some]
      exact mwImm_mod_of_atWord h rfl
    case jz =>
      have himm : mwImm w % 8192 = mwImm w := mwImm_mod_of_atWord h rfl
      rw [jumpTarget_jz (op_of_atWord h), himm]
      cases q.z <;> rfl
    case jnz =>
      have himm : mwImm w % 8192 = mwImm w := mwImm_mod_of_atWord h rfl
      rw [jumpTarget_jnz (op_of_atWord h), himm]
      cases q.z <;> rfl
    case ret =>
      have hrest : rest = q.stack.tail := by rw [hstack, List.tail_cons]
      rw [hrest]
      exact immStep_goes h rfl (by rw [jumpTarget_ret (op_of_atWord h), hstack, List.head?_cons, Option.getD_some])
    case loop =>
      have himm : mwImm w % 8192 = mwImm w := mwImm_mod_of_atWord h rfl
      rw [jumpTarget_loop (op_of_atWord h), himm, apply_ite (Option.getD · on)]
      rfl
  · intro s n q w f o ld
    have loads (h : AtWord s n q 0x14) {size : Nat} (hsize : mwImm w / 1024 % 4 = size) :=
      exec_mwLdp h (congrArg (ldpValue s.blk f o) hsize)
    exact ⟨fun h hsize => (loads h hsize).trans rfl, fun h hsize => (loads h hsize).trans rfl, fun h hsize => (loads h hsize).trans rfl,
      fun h hsize => (loads h hsize).trans rfl, fun h => act_of_eq (microStep_of h _)⟩

/-- Settles O6: every queued microword by the one rule, with the entry that it posts. -/
theorem queuedMicrowords : Obligations.QueuedMicrowords := by
  intro s n q b w a f posts
  exact ⟨postStep_of, postStep_of, postStep_of, postStep_of, postStep_of, postStep_of, postStep_of, postStep_of, postStep_of,
    postStep_of, postStep_of, postStep_of⟩

/-! Faulty microwords and the ends of TMASK regions (R323, R327, R328). -/

section Halts

variable {s : State} {b : Block} {n op : Nat} {q : Seq}

theorem microStep_faults (hseq : (lane b n).seq = some q) (hruns : laneRuns b n = true) (hop : mwOp (q.word b n) = op)
    (hbad : microFault b n q ≠ 0) (f : Seq → BitVec 33 → Block → Block) :
    microStep n op f b = machineFault n (microFault b n q) b := by
  simp [microStep, hseq, seqRuns, hruns, hop, hbad]

/-- A synchronous microword that is faulty is not ready. -/
theorem syncReady_faulty (hseq : (lane b n).seq = some q) (hbad : microFault b n q ≠ 0) (op : Nat) : syncReady b n op = false := by
  simp [syncReady, hseq, hbad]

theorem machineCheck_faulty (hseq : (lane b n).seq = some q) (hruns : laneRuns b n = true) (hbad : microFault b n q ≠ 0) :
    machineCheck n b = machineFault n (microFault b n q) b := by
  simp [machineCheck, hseq, seqRuns, hruns, hbad]

theorem watchdog_halts (hseq : (lane b n).seq = some q) (hruns : laneRuns b n = true) : watchdog n b = machineFault n 5 b := by
  simp [watchdog, hseq, seqRuns, hruns]

/-- The commands that step the microword at the pc at once, each with the OP of its operation (R316). -/
def plainMicrowords (n : Nat) (params : Word) : List (Instr × Nat) :=
  [(.mwNop n, 0x00), (.mwEnd n, 0x01), (.mwJmp n, 0x02), (.mwJz n, 0x03), (.mwJnz n, 0x04), (.mwCall n, 0x05), (.mwRet n, 0x06),
    (.mwLoop n, 0x07), (.mwMovi n, 0x08), (.mwMovh n, 0x09), (.mwMov n, 0x0A), (.mwAdd n, 0x0B), (.mwSub n, 0x0C), (.mwAnd n, 0x0D),
    (.mwOr n, 0x0E), (.mwXor n, 0x0F), (.mwShl n, 0x10), (.mwShr n, 0x11), (.mwAddi n, 0x12), (.mwTst n, 0x13), (.mwLdp n, 0x14),
    (.mwTmask n, 0x15), (.mwCe n, 0x20), (.mwCeoff n, 0x21), (.mwCmd n, 0x22), (.mwConf n, 0x23), (.mwAdr n, 0x24), (.mwAdrc n, 0x25),
    (.mwAdrr n, 0x26), (.mwTw n, 0x27), (.mwDly n, 0x28), (.mwDin n, 0x29), (.mwDout n, 0x2A), (.mwPin n, 0x2B), (.mwPout n params, 0x2C)]

/-- The commands of STAT and WRB, which confirm the first cycle of a RAW before they step (R194). -/
def confirmingMicrowords (n : Nat) (status : Byte) (expired : Bool) : List (Instr × Nat) :=
  [(.mwStat n status, 0x2D), (.mwWrb n expired, 0x2E)]

variable {params : Word} {status : Byte} {expired : Bool} {x : Instr × Nat}

theorem exec_plainMicroword (h : x ∈ plainMicrowords n params) (s : State) : ∃ f, exec x.1 s = s.act (microStep n x.2 f) := by
  unfold plainMicrowords at h
  fin_cases h <;> exact ⟨_, rfl⟩

theorem exec_confirmingMicroword (h : x ∈ confirmingMicrowords n status expired) (s : State) :
    ∃ g, exec x.1 s = s.act (fun b => syncStep n x.2 g (if syncReady b n x.2 then rawConfirm n b else b)) := by
  unfold confirmingMicrowords at h
  fin_cases h <;> exact ⟨_, rfl⟩

/-- Every command halts its lane at a faulty microword of its operation. -/
theorem exec_faultyMicroword (h : x ∈ plainMicrowords n params ++ confirmingMicrowords n status expired)
    (hseq : (lane s.blk n).seq = some q) (hruns : laneRuns s.blk n = true) (hop : mwOp (q.word s.blk n) = x.2)
    (hbad : microFault s.blk n q ≠ 0) : exec x.1 s = .next (after s (machineFault n (microFault s.blk n q) s.blk)) := by
  rcases List.mem_append.mp h with h | h
  · obtain ⟨f, hexec⟩ := exec_plainMicroword h s
    exact hexec.trans (act_of_eq (microStep_faults hseq hruns hop hbad f))
  · obtain ⟨g, hexec⟩ := exec_confirmingMicroword h s
    rw [hexec, act_eq, if_neg (ne_true_of_eq_false (syncReady_faulty hseq hbad _))]
    exact act_of_eq (microStep_faults hseq hruns hop hbad _)

/-- A machine check on the microword at the pc: a parity error is noted first, and the lane halts (R327, R328). -/
theorem machineFault_of_seq (hseq : (lane b n).seq = some q) (cause : Nat) :
    machineFault n cause b = machineHalt n cause q.pc (if cause = 1 then noteParity n q.pc b else b) := by
  simp [machineFault, hseq]

/-- A region that has closed in a wait: within 24 cycles by itself, later by force, which is counted (R323). -/
theorem tmaskForced_open (hseq : (lane b n).seq = some q) (hruns : laneRuns b n = true) (hopen : q.tmask ≠ 0) :
    tmaskForced n b =
      let closed := putSeq n { q with tmask := 0, tmaskAge := 0 } b
      if q.tmask + q.tmaskAge ≤ 24 then closed else rinc closed (laneReg n 0x310) 23 16 1 := by
  simp [tmaskForced, hseq, seqRuns, hruns, hopen]

theorem tmaskForced_closed (hseq : (lane b n).seq = some q) (hclosed : q.tmask = 0) : tmaskForced n b = b := by
  simp [tmaskForced, hseq, hclosed]

/-- The sequencer's state is stored, a region that has not outlasted 24 cycles with it (R323). -/
theorem putSeq_kept (h : q.tmaskAge < 24 ∨ q.tmaskAge = 24 ∧ q.tmask = 0) :
    putSeq n q b = tickTaken n (updLane b n (fun l => { l with seq := some q })) := by
  have hforced : ((decide (q.tmask ≠ 0) && decide (24 ≤ q.tmaskAge)) || decide (24 < q.tmaskAge)) = false := by
    rcases h with h | ⟨hage, hmask⟩
    · simp [Nat.not_le.mpr h, Nat.lt_asymm h]
    · simp [hage, hmask]
  simp only [putSeq, hforced]
  rfl

/-- A region still open after 24 cycles is closed and counted as the state is stored (R323). -/
theorem putSeq_forced (h : 24 < q.tmaskAge ∨ q.tmaskAge = 24 ∧ q.tmask ≠ 0) :
    putSeq n q b = tickTaken n (updLane (rinc b (laneReg n 0x310) 23 16 1) n
      (fun l => { l with seq := some { q with tmask := 0, tmaskAge := 0 } })) := by
  have hforced : ((decide (q.tmask ≠ 0) && decide (24 ≤ q.tmaskAge)) || decide (24 < q.tmaskAge)) = true := by
    rcases h with h | ⟨hage, hmask⟩
    · simp [h]
    · simp [hage, hmask]
  simp only [putSeq, hforced]
  rfl

end Halts

/-! The cause of a fault, word by word (R315 to R317, R327). -/

section Causes

variable {b : Block} {n : Nat} {q : Seq}

/-- A CALL on a full micro-stack, or a RET on an empty one (R317). -/
def StackFault (q : Seq) (w : BitVec 33) : Prop := mwOp w = 0x05 ∧ 8 ≤ q.stack.length ∨ mwOp w = 0x06 ∧ q.stack = []

theorem not_stackFault_call {w : BitVec 33} (hop : mwOp w = 0x05) (hroom : q.stack.length < 8) : ¬ StackFault q w := by
  simp [StackFault, hop, hroom]

theorem not_stackFault_ret {w : BitVec 33} (hop : mwOp w = 0x06) (hs : q.stack ≠ []) : ¬ StackFault q w := by
  simp [StackFault, hop, hs]

theorem not_stackFault_other {w : BitVec 33} (hop : mwOp w ≠ 0x05 ∧ mwOp w ≠ 0x06) : ¬ StackFault q w := by
  simp [StackFault, hop]

section Legal

variable (h : LegalWord b n q)
include h

theorem microFault_stack (hs : StackFault q (q.word b n)) : microFault b n q = 3 := by
  obtain ⟨hparity, hlegal⟩ := h
  simp only [microFault, hparity, hlegal]
  exact if_pos hs

section StackGood

variable (hs : ¬ StackFault q (q.word b n))
include hs

theorem microFault_target {t : Nat} (ht : jumpTarget q (q.word b n) = some t) :
    ((lane b n).words ≤ t → microFault b n q = 4) ∧ (t < (lane b n).words → microFault b n q = 0) := by
  obtain ⟨hparity, hlegal⟩ := h
  have hfault : microFault b n q = if (lane b n).words ≤ t then 4 else 0 := by
    simp only [microFault, hparity, hlegal, ht]
    exact if_neg hs
  rw [hfault]
  exact ⟨fun hfar => if_pos hfar, fun hnear => if_neg (Nat.not_le.mpr hnear)⟩

theorem microFault_noTarget (ht : jumpTarget q (q.word b n) = none) : microFault b n q = 0 := by
  obtain ⟨hparity, hlegal⟩ := h
  simp only [microFault, hparity, hlegal, ht]
  exact if_neg hs

end StackGood

/-- A jump that is taken, other than a CALL or a RET. -/
theorem microFault_jumps (hj : mwOp (q.word b n) = 0x02 ∨ mwOp (q.word b n) = 0x03 ∧ q.z = true ∨
      mwOp (q.word b n) = 0x04 ∧ q.z = false ∨ mwOp (q.word b n) = 0x07 ∧ q.reg (mwA (q.word b n)) ≠ 1) :
    ((lane b n).words ≤ mwImm (q.word b n) → microFault b n q = 4) ∧
      (mwImm (q.word b n) < (lane b n).words → microFault b n q = 0) :=
  microFault_target h (not_stackFault_other (by omega)) (jumpTarget_taken h.2 (Or.inr hj))

/-- A jump that is not taken (log entry 41, DEDUCED). -/
theorem microFault_stays (hj : mwOp (q.word b n) = 0x03 ∧ q.z = false ∨ mwOp (q.word b n) = 0x04 ∧ q.z = true ∨
      mwOp (q.word b n) = 0x07 ∧ q.reg (mwA (q.word b n)) = 1) : microFault b n q = 0 :=
  microFault_noTarget h (not_stackFault_other (by omega)) (jumpTarget_untaken hj)

theorem microFault_others (hop : mwOp (q.word b n) ∉ [0x02, 0x03, 0x04, 0x05, 0x06, 0x07]) : microFault b n q = 0 :=
  microFault_noTarget h (not_stackFault_other ⟨fun h5 => hop (by simp [h5]), fun h6 => hop (by simp [h6])⟩) (jumpTarget_none hop)

end Legal

/-- The words that are illegal (R315, R316). -/
theorem microIllegal_iff (native : Bool) (w : BitVec 33) : microIllegal native w = true ↔
    0x16 ≤ mwOp w ∧ mwOp w < 0x20 ∨ 0x2F ≤ mwOp w ∨
      mwA w ≠ 0 ∧ mwOp w ∈ [0x00, 0x01, 0x02, 0x03, 0x04, 0x05, 0x06, 0x15, 0x21, 0x22, 0x23, 0x24, 0x27, 0x28, 0x2E] ∨
      mwB w ≠ 0 ∧ mwOp w ∉ [0x0A, 0x0B, 0x0C, 0x0D, 0x0E, 0x0F, 0x29, 0x2A] ∨
      ImmUnused (mwOp w) (mwImm w) ∨
      mwCyc w ≠ 0 ∧ (native = false ∨ mwOp w = 0x01 ∨ 0x20 ≤ mwOp w) ∨ native = false ∧ (mwOp w = 0x14 ∨ mwOp w = 0x15) := by
  cases ho : microOp (mwOp w) with
  | none =>
    have hunknown := (microOp_eq_none_iff _ (mwOp_lt w)).mp ho
    rw [microIllegal_of_unknown ho, ← or_assoc]
    exact iff_of_true rfl (Or.inl hunknown)
  | some o =>
    have hknown := (microOp_eq_none_iff _ (mwOp_lt w)).not.mp (ho.symm ▸ Option.some_ne_none o)
    obtain ⟨ha, hb, hcls, hnative⟩ := microOp_columns _ (mwOp_lt w) o ho
    rw [microIllegal_iff_of_known ho, immUnused_iff (mwOp_lt w) (mwImm_lt w) ho, ha, hb, hcls, hnative, ← or_assoc (b := 0x2F ≤ _),
      or_iff_right hknown]

end Causes

/-- Settles O8: each command at a faulty word, the causes in their order, and a TMASK region at its 24 cycles. -/
theorem faultyMicrowordsHaltTheLane : Obligations.FaultyMicrowordsHaltTheLane := by
  refine ⟨fun s n q params status expired c op hseq hruns hbad => ?commands,
    fun s n q hseq hruns => act_of_eq (watchdog_halts hseq hruns), fun b n cause q hseq => machineFault_of_seq hseq cause,
    fun b n q => ?causes, fun native w => ?illegal, fun s n q hseq hruns => ?region, fun b n q => ⟨putSeq_kept, putSeq_forced⟩⟩
  case commands =>
    exact ⟨act_of_eq (machineCheck_faulty hseq hruns hbad), fun h hop => exec_faultyMicroword h hseq hruns hop hbad⟩
  case causes =>
    intro w op words legal goes
    refine ⟨decide_eq_true_iff, microFault_parity, microFault_illegal, fun hlegal hop => ⟨fun hfull => ?full, fun hroom => ?call⟩,
      fun hlegal hop => ⟨fun hempty => ?empty, fun t rest hstack => ?ret⟩, fun hlegal hjump => ?jumps, fun hlegal hstay => ?stays,
      fun hlegal hop => ?others⟩
    case full => exact microFault_stack hlegal (Or.inl ⟨hop, hfull⟩)
    case call =>
      exact microFault_target hlegal (not_stackFault_call hop hroom) (jumpTarget_taken hlegal.2 (Or.inl hop))
    case empty => exact microFault_stack hlegal (Or.inr ⟨hop, hempty⟩)
    case ret =>
      exact microFault_target hlegal (not_stackFault_ret hop (hstack ▸ List.cons_ne_nil t rest))
        (by rw [jumpTarget_ret hop, hstack, List.head?_cons])
    case jumps => exact microFault_jumps hlegal hjump
    case stays => exact microFault_stays hlegal hstay
    case others => exact microFault_others hlegal hop
  case illegal =>
    intro op
    rw [microIllegal_iff, ImmUnused]
    simp only [or_assoc]
    rfl
  case region =>
    intro closed
    exact ⟨fun hopen hlong => act_of_eq ((tmaskForced_open hseq hruns hopen).trans (if_neg (by omega))),
      fun hopen hshort => act_of_eq ((tmaskForced_open hseq hruns hopen).trans (if_pos hshort)),
      fun hclosed => act_of_eq (tmaskForced_closed hseq hclosed)⟩

/-! Synchronous microwords (R194, R313, R316, R318, R326). -/

section Synchronous

variable {s : State} {n op : Nat} {q : Seq} {g : Block → Seq → BitVec 33 → Seq}

/-- The confirm of a RAW's first cycle reaches the work entries alone (R194). -/
theorem rawConfirm_eq (n : Nat) (b : Block) : ∃ t, rawConfirm n b = { b with entries := t } := by
  unfold rawConfirm
  split
  · split
    · exact ⟨_, rfl⟩
    · exact ⟨_, rfl⟩
  · exact ⟨_, rfl⟩

theorem atWord_rawConfirm (h : AtWord s n q op) : AtWord { s with blk := rawConfirm n s.blk } n q op := by
  obtain ⟨t, ht⟩ := rawConfirm_eq n s.blk
  rw [AtWord, ht]
  exact h

theorem word_rawConfirm (q : Seq) (n : Nat) (b : Block) : q.word (rawConfirm n b) n = q.word b n := by
  obtain ⟨t, ht⟩ := rawConfirm_eq n b
  rw [ht]
  rfl

/-- A synchronous microword waits for the queue to drain, and then has its effect. -/
theorem syncStep_of (h : AtWord s n q op) : syncStep n op g s.blk =
    if q.queue = [] then putSeq n ((g s.blk q (q.word s.blk n)).next 24) s.blk else s.blk := by
  simp only [syncStep, microStep_of h, List.isEmpty_iff]

theorem syncReady_of (h : AtWord s n q op) : syncReady s.blk n op = q.queue.isEmpty := by
  obtain ⟨hseq, hruns, hop, hgood⟩ := h
  simp [syncReady, hseq, seqRuns, hruns, hop, hgood]

/-- POUT: once the queue has drained the microword has its effect. -/
theorem act_syncStep (h : AtWord s n q op) : s.act (syncStep n op g) = .next (if q.queue = [] then
    after s (putSeq n ((g s.blk q (q.word s.blk n)).next 24) s.blk) else after s s.blk) := by
  rw [act_eq, syncStep_of h, apply_ite (after s)]

/-- STAT and WRB: once the queue has drained the first cycle of a RAW is confirmed, and the microword has its effect. -/
theorem act_confirmStep (h : AtWord s n q op) :
    s.act (fun b => syncStep n op g (if syncReady b n op then rawConfirm n b else b)) = .next (if q.queue = [] then
      after s (putSeq n ((g (rawConfirm n s.blk) q (q.word s.blk n)).next 24) (rawConfirm n s.blk)) else after s s.blk) := by
  by_cases hq : q.queue = []
  · have hready : syncReady s.blk n op = true := by rw [syncReady_of h, hq, List.isEmpty_nil]
    have hstep := (syncStep_of (g := g) (atWord_rawConfirm h)).trans (if_pos hq)
    rw [act_eq, if_pos hready, if_pos hq, hstep, word_rawConfirm]
  · have hready : syncReady s.blk n op ≠ true := by simpa [syncReady_of h] using hq
    rw [act_eq, if_neg hready, if_neg hq, syncStep_of h, if_neg hq]

/-- END waits for the queue to drain, and then ends its entry. -/
theorem exec_mwEnd (h : AtWord s n q 0x01) :
    exec (.mwEnd n) s = .next (after s (if q.queue = [] then endEntry n q s.blk else s.blk)) :=
  act_of_eq ((microStep_of h _).trans (by simp only [List.isEmpty_iff]))

end Synchronous

section RoutineEnds

variable {b : Block} {n : Nat} {q : Seq}

/-- The cycles that a routine has spent at its END, its chip enable released (R313). -/
def spentAtEnd (b : Block) (n : Nat) (q : Seq) : Nat := q.spent + (if q.ce.isSome then dieTime b n q.routine.die 1 else 0)

theorem endEntry_last (h : q.routine.feats = []) : endEntry n q b =
    afterRoutine n q.routine (spentAtEnd b n q)
      (routineEnd n { q with spent := spentAtEnd b n q } (updLane b n (fun l => { l with seq := none }))) := by
  simp only [endEntry, h]
  rfl

section EntriesAhead

variable {x : Nat × Word} {rest : List (Nat × Word)} (h : q.routine.feats = x :: rest)
include h

/-- A lane that samples at boundaries first takes what its arbiter holds (R326). -/
theorem endEntry_holds (hholds : holdsEvents b n = true) : endEntry n q b =
    tickTaken n (updLane b n (fun l => { l with
      seq := none, frame := { q.routine with feats := rest, spent := spentAtEnd b n q } :: l.frame })) := by
  simp only [endEntry, h, hholds]
  rfl

/-- The next entry of the routine starts (R318). -/
theorem endEntry_nextEntry {q' : Seq} (hholds : holdsEvents b n = false)
    (henter : enterSeq b n { q.routine with feats := rest, spent := spentAtEnd b n q } (spentAtEnd b n q) = some q') :
    endEntry n q b = putSeq n q' b := by
  simp only [spentAtEnd] at henter
  simp only [endEntry, h, hholds, henter]
  rfl

end EntriesAhead

end RoutineEnds

/-- Settles O7: POUT, STAT and WRB by the rule of the synchronous microwords, END by what its routine has ahead of it. -/
theorem synchronousMicrowords : Obligations.SynchronousMicrowords := by
  intro s n q b w on spent
  refine ⟨fun params h => ?pout, fun status h => ?stat, fun expired h => ?wrb, fun h hfeats hq => ?ends,
    fun h hq x rest hfeats => ⟨fun hholds q' henter => ?next, fun hholds => ?holds⟩, fun h hq => ?waits, fun r k => ?free⟩
  case pout => exact act_syncStep h
  case stat | wrb => exact act_confirmStep h
  case ends => rw [exec_mwEnd h, if_pos hq, endEntry_last hfeats]; rfl
  case next => rw [exec_mwEnd h, if_pos hq, endEntry_nextEntry hfeats hholds henter]
  case holds => rw [exec_mwEnd h, if_pos hq, endEntry_holds hfeats hholds]; rfl
  case waits => rw [exec_mwEnd h, if_neg hq]
  case free => exact lane_updLane_same b n _

end Sys2Proof.Laws

/-! What a lane does around its microwords: the PHY takes the entries of the cycle queue, micro-routines start, and control stores are
loaded (R280, R281, R306, R312 to R331, R405, R429, R455). -/

namespace Sys2Proof.Laws

open Sys2Proof Sys2Proof.Machine

/-! The PHY at the head of the cycle queue (R231, R236, R280, R281, R313, R316, R322, R429). -/

section Phy

variable {b : Block} {n : Nat} {q : Seq} {rest : List CycEntry} (din : List Byte)

theorem dieTime_rawConfirm (n m d i : Nat) (b : Block) : dieTime (rawConfirm n b) m d i = dieTime b m d i := by
  obtain ⟨t, ht⟩ := rawConfirm_eq n b
  rw [ht]
  rfl

/-- What an entry that issues no cycle leaves of the block: a RAW's wait for ready is confirmed by it (R190, R194). -/
def silentBlock (n : Nat) (r : Routine) (b : Block) : Block := if r.isRawWait b = true then rawConfirm n b else b

theorem silentBlock_eq (n : Nat) (r : Routine) (b : Block) :
    (if (!r.isRawWait b) = true then b else rawConfirm n b) = silentBlock n r b := by
  unfold silentBlock
  cases r.isRawWait b <;> rfl

theorem onBus_confirmed (b : Block) (n : Nat) (q : Seq) (l : List Byte) : (onBus b n q l).confirmed = q.confirmed := by
  unfold onBus
  split <;> rfl

variable (hseq : (lane b n).seq = some q) (hruns : laneRuns b n = true)
include hseq hruns

theorem phyEntry_ce {k l : Nat} (hq : q.queue = .ce k l :: rest) : phyEntry n din b =
    putSeq n { q with queue := rest, ce := some (k, l), spent := q.spent + dieTime b n q.routine.die 0 } (silentBlock n q.routine b) := by
  simp only [phyEntry, hseq, hq, seqRuns, hruns, CycEntry.silent, Bool.true_and, silentBlock_eq]
  rfl

theorem phyEntry_ceOff (hq : q.queue = .ceOff :: rest) : phyEntry n din b =
    putSeq n { q with queue := rest, ce := none, spent := q.spent + dieTime b n q.routine.die 1 } (silentBlock n q.routine b) := by
  simp only [phyEntry, hseq, hq, seqRuns, hruns, CycEntry.silent, Bool.true_and, silentBlock_eq]
  rfl

theorem phyEntry_adr {l : List Byte} (hq : q.queue = .adr l :: rest) : phyEntry n din b =
    putSeq n { onBus (rawConfirm n b) n { q with queue := rest } l with
      spent := q.spent + l.length * dieTime (rawConfirm n b) n q.routine.die 2 } (rawConfirm n b) := by
  simp only [phyEntry, hseq, hq, seqRuns, hruns, CycEntry.silent, dieTime_rawConfirm]
  rfl

theorem phyEntry_wait {k : Nat} (hq : q.queue = .wait k :: rest) : phyEntry n din b =
    putSeq n { q with queue := rest, spent := q.spent + k } (rawConfirm n b) := by
  simp only [phyEntry, hseq, hq, seqRuns, hruns, CycEntry.silent]
  rfl

theorem phyEntry_pin {w : Word} (hq : q.queue = .pin w :: rest) : phyEntry n din b =
    putSeq n { q with
      queue := rest, sent := pinBytes (rawConfirm n b) n w
      spent := q.spent + byteCycles (rawConfirm n b) n (featBytes (rawConfirm n b) n) } (rawConfirm n b) := by
  simp only [phyEntry, hseq, hq, seqRuns, hruns, CycEntry.silent]
  rfl

/-- A command cycle that is no confirm goes out (R316). -/
theorem phyEntry_command {y : Byte} (hq : q.queue = .cmd y false :: rest) :
    let c := rawConfirm n b
    phyEntry n din b = putSeq n
      { onBus c n { q with queue := rest } [y] with
        spent := q.spent + dieTime c n q.routine.die 2
        pageLoad := q.pageLoad || loadsPage c (dieFamily c n q.routine.die) q.routine y }
      (if q.routine.feats = [] ∨ q.routine.isFeatSet = true then firstCommand n q.routine c else c) := by
  intro c
  simp only [phyEntry, hseq, hq, seqRuns, hruns, CycEntry.silent, c, dieTime_rawConfirm, onBus_confirmed, Bool.or_false,
    Bool.or_eq_true, List.isEmpty_iff]
  rfl

/-- A confirm that a supply warning holds back is not taken (R429). -/
theorem phyEntry_heldConfirm {y : Byte} (hq : q.queue = .cmd y true :: rest) (hwarn : warnStops (rawConfirm n b) q.routine = true) :
    phyEntry n din b = rawConfirm n b := by
  simp only [phyEntry, hseq, hq, seqRuns, hruns, CycEntry.silent]
  exact if_pos hwarn

/-- A confirm goes out, and its operation starts (R322). -/
theorem phyEntry_confirm {y : Byte} (hq : q.queue = .cmd y true :: rest) (hwarn : warnStops (rawConfirm n b) q.routine ≠ true) :
    let c := rawConfirm n b
    phyEntry n din b = putSeq n
      { onBus c n { q with queue := rest } [y] with
        spent := q.spent + dieTime c n q.routine.die 2, confirmed := true, pageLoad := false }
      (if q.routine.feats = [] ∨ q.routine.isFeatSet = true then firstCommand n q.routine (confirmTaken n q.routine c) else c) := by
  intro c
  simp only [phyEntry, hseq, hq, seqRuns, hruns, CycEntry.silent, c, dieTime_rawConfirm, Bool.or_eq_true, List.isEmpty_iff]
  refine (if_neg hwarn).trans ?_
  rw [Bool.or_true]
  rfl

/-- A data-in of a pass whose codeword is not in its frame waits (R281). -/
theorem phyEntry_dinWaits {k a : Nat} (hq : q.queue = .din k a :: rest) (hnone : dinBytes n q.routine k a (rawConfirm n b) = none) :
    phyEntry n din b = rawConfirm n b := by
  simp [phyEntry, hseq, hq, seqRuns, hruns, CycEntry.silent, hnone]

theorem phyEntry_din {k a : Nat} {l : List Byte} {b' : Block} (hq : q.queue = .din k a :: rest)
    (hbytes : dinBytes n q.routine k a (rawConfirm n b) = some (l, b')) : phyEntry n din b =
      framesFreed n (putSeq n { q with queue := rest, sent := l, spent := q.spent + byteCycles b' n k } b') := by
  simp [phyEntry, hseq, hq, seqRuns, hruns, CycEntry.silent, hbytes]

/-- A data-out for which the die has not sent the bytes waits. -/
theorem phyEntry_doutUnsent {k a : Nat} (hq : q.queue = .dout k a :: rest) (hlen : din.length ≠ k) :
    phyEntry n din b = rawConfirm n b := by
  simp only [phyEntry, hseq, hq, seqRuns, hruns, CycEntry.silent]
  exact if_pos hlen

/-- A data-out lands in its frames, or waits for them (R280). -/
theorem phyEntry_dout {k a : Nat} (hq : q.queue = .dout k a :: rest) (hlen : din.length = k) :
    let b' := releaseHeld n (framesWanted (rawConfirm n b) q) (rawConfirm n b)
    let y := putBytes b' q.dataIn (a * cwLen b' (dieFamily b' n q.routine.die)) din
    phyEntry n din b =
      if framesFree b' n < framesWanted b' q then b'
      else putSeq n { q with queue := rest, dataIn := y.1, spent := q.spent + byteCycles y.2 n k } (takeFrames y.2 q) := by
  intro b' y
  simp only [phyEntry, hseq, hq, seqRuns, hruns, CycEntry.silent]
  exact if_neg (not_not_intro hlen)

end Phy

/-- Settles O9: the entry at the head of the queue by its kind. -/
theorem cycleQueueEntriesExecute : Obligations.CycleQueueEntriesExecute := by
  intro s n q x rest din hseq hruns hqueue b c r t p bus a
  have hq {y : CycEntry} (hx : x = y) : q.queue = y :: rest := hx ▸ hqueue
  refine ⟨fun k l hx => act_of_eq (phyEntry_ce din hseq hruns (hq hx)),
    fun hx => act_of_eq (phyEntry_ceOff (q := q) din hseq hruns (hq hx)),
    fun l hx => act_of_eq (phyEntry_adr din hseq hruns (hq hx)), fun k hx => act_of_eq (phyEntry_wait din hseq hruns (hq hx)),
    fun w hx => act_of_eq (phyEntry_pin din hseq hruns (hq hx)), fun y hx => act_of_eq (phyEntry_command din hseq hruns (hq hx)),
    fun y hx => ?confirm, fun k a hx => ⟨fun hnone => act_of_eq (phyEntry_dinWaits din hseq hruns (hq hx) hnone),
      fun l b' hbytes => act_of_eq (phyEntry_din din hseq hruns (hq hx) hbytes)⟩,
    fun k a hx hlen => act_of_eq (phyEntry_doutUnsent din hseq hruns (hq hx) hlen), fun k a hx hlen => ?dout⟩
  case confirm =>
    split
    case isTrue hwarn => exact act_of_eq (phyEntry_heldConfirm din hseq hruns (hq hx) hwarn)
    case isFalse hwarn => exact act_of_eq (phyEntry_confirm din hseq hruns (hq hx) hwarn)
  case dout =>
    refine (act_of_eq (phyEntry_dout din hseq hruns (hq hx) hlen)).trans ?_
    rw [apply_ite (after s), apply_ite Host.Outcome.next]

/-! The start of a micro-routine (R306, R312, R314, R318, R326, R455). -/

section RoutineStart

variable {b c : Block} {n : Nat} {r : Routine}

/-- Lane n has nothing before routine r, its frame's next: no routine runs, the arbiter holds nothing that must come first, no reload is
due, and the routine's entry is loaded (R312, R326). -/
structure MayStart (b : Block) (n : Nat) (r : Routine) : Prop where
  runs : laneRuns b n = true
  idle : (lane b n).seq = none
  events : holdsEvents b n = false
  awake : (lane b n).ps1 = false
  loaded : rbit b (laneReg n 0x304) 3 = false
  next : nextRoutine b n = some r
  entry : (entryWord b n r.entryOf.kind).isSome = true

/-- The sequencer has entered routine x, which was placed in the frame as r. -/
def routineEntered (n : Nat) (r x : Routine) (b : Block) : Block :=
  updLane b n (fun l => { l with frame := l.frame.erase r, seq := enterSeq b n x r.spent })

theorem laneReads_of_none (hruns : laneRuns b n = true) (h : ∀ x ∈ b.planted, x.ofLane n = false) : laneReads n b = (true, b) := by
  obtain ⟨-, hhalted⟩ := Bool.and_eq_true_iff.mp hruns
  rw [laneReads, readPlanted_of_none h, hhalted]

theorem microRoutineStart_faults (h : MayStart b n r) (hreads : laneReads n b = (false, c)) : microRoutineStart n b = c := by
  obtain ⟨hruns, hidle, hevents, hawake, hloaded, hnext, hentry⟩ := h
  obtain ⟨w, hw⟩ := Option.isSome_iff_exists.mp hentry
  simp [microRoutineStart, seqRuns, hruns, hidle, hevents, hawake, hloaded, hnext, hw, hreads]

/-- What the start of routine r brings besides: the first cycle of a RAW holds its die, and the codewords of a pass go to their frames
(R281). -/
def purposeStarted (n : Nat) (r : Routine) (b : Block) : Block :=
  match r.purpose with
  | .rawCycle .. => updDie b n r.die (fun x => { x with raw := true })
  | .pass .. => if r.spent = 0 then loadPass n r b else b
  | _ => b

/-- A routine that has spent nothing is issued as it starts (R306). -/
theorem microRoutineStart_starts (h : MayStart b n r) (hreads : laneReads n b = (true, c)) :
    microRoutineStart n b =
      let y := if r.spent = 0 then issuePass c n r else (r, c)
      purposeStarted n r (routineEntered n r y.1 y.2) := by
  obtain ⟨hruns, hidle, hevents, hawake, hloaded, hnext, hentry⟩ := h
  have hknown : (entryWord b n r.entryOf.kind).isNone = false := by rw [← Option.not_isSome, hentry]; rfl
  simp only [microRoutineStart, seqRuns, hruns, hidle, hevents, hawake, hloaded, hnext, hknown, hreads]
  rfl

theorem issuePass_other (h : ∀ e i u wl k, r.purpose ≠ .pass e i u wl k) : issuePass b n r = (r, b) := by
  unfold issuePass
  split
  · next e i u wl k hp => exact absurd hp (h e i u wl k)
  · rfl

section Purposes

variable (h : MayStart b n r) (hreads : laneReads n b = (true, c))
include h hreads

/-- A routine that is no pass is issued as it was placed. -/
theorem microRoutineStart_asPlaced (hp : ∀ e i u wl k, r.purpose ≠ .pass e i u wl k) :
    microRoutineStart n b = purposeStarted n r (routineEntered n r r c) := by
  rw [microRoutineStart_starts h hreads, issuePass_other hp, ite_self]

theorem microRoutineStart_raw (hp : ∃ e i k, r.purpose = .rawCycle e i k) :
    microRoutineStart n b = updDie (routineEntered n r r c) n r.die (fun x => { x with raw := true }) := by
  obtain ⟨e, i, k, hp⟩ := hp
  rw [microRoutineStart_asPlaced h hreads (by simp [hp])]
  simp only [purposeStarted, hp]

theorem microRoutineStart_firstPass (hp : ∃ e i u wl k, r.purpose = .pass e i u wl k) (hs : r.spent = 0) :
    microRoutineStart n b = loadPass n r (routineEntered n r (issuePass c n r).1 (issuePass c n r).2) := by
  obtain ⟨e, i, u, wl, k, hp⟩ := hp
  rw [microRoutineStart_starts h hreads, if_pos hs]
  simp only [purposeStarted, hp, if_pos hs]

/-- A pass that had begun goes on as it was issued. -/
theorem microRoutineStart_resumedPass (hp : ∃ e i u wl k, r.purpose = .pass e i u wl k) (hs : r.spent ≠ 0) :
    microRoutineStart n b = routineEntered n r r c := by
  obtain ⟨e, i, u, wl, k, hp⟩ := hp
  rw [microRoutineStart_starts h hreads, if_neg hs]
  simp only [purposeStarted, hp, if_neg hs]

theorem microRoutineStart_other (hraw : ∀ e i k, r.purpose ≠ .rawCycle e i k) (hpass : ∀ e i u wl k, r.purpose ≠ .pass e i u wl k) :
    microRoutineStart n b = routineEntered n r r c := by
  rw [microRoutineStart_asPlaced h hreads hpass]
  unfold purposeStarted
  split
  · next e i k hp => exact absurd hp (hraw e i k)
  · next e i u wl k hp => exact absurd hp (hpass e i u wl k)
  · rfl

end Purposes

end RoutineStart

/-! The registers at the entry of a routine (R314). -/

section EntryRegisters

/-- Leaving out the pairs of the value that an unlisted key reads as changes no reading, where no key is listed twice. -/
theorem tget_filter_ne {α : Type} [DecidableEq α] (d : α) (i : Nat) :
    ∀ {t : Tab α}, (t.map Prod.fst).Nodup → tget d (t.filter (fun x => decide (x.2 ≠ d))) i = tget d t i
  | [], _ => rfl
  | p :: t, h => by
    obtain ⟨hp, ht⟩ := List.nodup_cons.mp h
    have ih := tget_filter_ne d i ht
    by_cases hd : p.2 = d
    · rw [List.filter_cons_of_neg (by simp [hd]), ih, tget]
      split
      · next hi =>
        have hno : NoKey t i := fun x hx hxi => hp (List.mem_map.mpr ⟨x, hx, hxi.trans hi.symm⟩)
        rw [tget_of_noKey d t i hno, hd]
      · rfl
    · rw [List.filter_cons_of_pos (by simp [hd]), tget, tget, ih]

/-- The micro-registers that R314 names, each with its value at the entry. -/
theorem tget_entryRegs (b : Block) (n : Nat) (r : Routine) (i : Nat) : tget 0 (entryRegs b n r) i =
    tget 0 [(8, r.row), (9, r.col), (10, BitVec.ofNat 32 r.mask), (11, r.bytes), (12, BitVec.ofNat 32 r.ncw),
      (13, BitVec.ofNat 32 (dieCe b n r.die + dieLun b n r.die * 16 + ofBool (decide (1 < lunsPerCe b (dieFamily b n r.die))) * 256)),
      (14, r.m14), (15, BitVec.ofNat 32 r.kind)] i :=
  tget_filter_ne 0 i (by decide : ([8, 9, 10, 11, 12, 13, 14, 15] : List Nat).Nodup)

theorem dieSelect_eq (ce lun : Nat) (several : Prop) [Decidable several] :
    ce + lun * 16 + ofBool (decide several) * 256 = ce + 16 * lun + (if several then 256 else 0) := by
  by_cases h : several <;> simp [h, ofBool, Nat.mul_comm]

end EntryRegisters

/-- Settles O10: a start by the purpose of its routine, and the registers and the words that it enters with. -/
theorem microRoutineStarts : Obligations.MicroRoutineStarts := by
  refine ⟨fun s n r c hruns hidle hevents hawake hloaded hnext hentry => ?starts, fun b n r k w hw => ?enters,
    fun b n r => ?registers, fun b n d => ⟨bitsOf_lt _ 3 0, bitsOf_lt _ 5 4⟩⟩
  case starts =>
    have h : MayStart s.blk n r := ⟨hruns, hidle, hevents, hawake, hloaded, hnext, hentry⟩
    exact ⟨laneReads_of_none hruns, fun hreads => act_of_eq (microRoutineStart_faults h hreads),
      fun hreads hp => act_of_eq (microRoutineStart_raw h hreads hp),
      fun hreads hp hs => act_of_eq (microRoutineStart_firstPass h hreads hp hs),
      fun hreads hp hs => act_of_eq (microRoutineStart_resumedPass h hreads hp hs),
      fun hreads hraw hpass => act_of_eq (microRoutineStart_other h hreads hraw hpass)⟩
  case enters => rw [enterSeq, hw, Option.map_some]
  case registers =>
    have hv := tget_entryRegs b n r
    refine ⟨hv 8, hv 9, hv 10, hv 11, hv 12, ?die, hv 14, hv 15, fun i hi => (hv i).trans ?low⟩
    case die =>
      rw [← dieSelect_eq]
      exact hv 13
    case low =>
      refine tget_of_noKey 0 _ i ?_
      simp only [NoKey, List.forall_mem_cons]
      refine ⟨?_, ?_, ?_, ?_, ?_, ?_, ?_, ?_, nofun⟩ <;> omega

/-! The loads and reloads of the control stores (R330, R331, R405). -/

section ControlStores

variable {nv : NonVol} {errs : List ReadErr} {b b' : Block} {n r : Nat}

theorem controlStoreLoad_loads (hcan : canLoad b = true) (hn : n < b.build.lanes) (hpend : (lane b n).loadPend = true)
    (hcheck : imageCheck nv errs (imageOf b n) b = (r, b')) : controlStoreLoad nv n errs b =
      each ((laneNums b).filter (fun m => (lane b m).loadPend && decide (imageOf b m = imageOf b n)))
        (laneLoad nv (imageOf b n) r) b' := by
  simp only [controlStoreLoad, hcan, hpend, hcheck, decide_eq_false (Nat.not_le.mpr hn)]
  rfl

theorem controlStoreLoad_notAsked (hpend : (lane b n).loadPend = false) : controlStoreLoad nv n errs b = b := by
  simp [controlStoreLoad, hpend]

/-- A reload, once the slot that the lane last loaded has been checked (R331). -/
theorem controlStoreReload_reloads (hcan : canLoad b = true) (hn : n < b.build.lanes)
    (hdue : rbit b (laneReg n 0x304) 3 = true) (hruns : laneHalted b n = false) (hidle : (lane b n).seq = none)
    (hpend : (lane b n).loadPend = false) (hcheck : imageCheck nv errs (lane b n).slot b = (r, b')) :
    controlStoreReload nv n errs b =
      let c := rputB (laneLoad nv (lane b n).slot r (rinc b' (laneReg n 0x310) 31 24 1) n) (laneReg n 0x300) 2
        (rbit b' (laneReg n 0x300) 2)
      if r = 1 then rclr1 c (laneReg n 0x304) 3
      else machineHalt n 1 (Config.freeVal 13 c.free).toNat { c with free := c.free + 1 } := by
  simp only [controlStoreReload, hcan, hdue, hruns, hidle, hpend, hcheck, decide_eq_false (Nat.not_le.mpr hn)]
  rfl

end ControlStores

/-! Registers and lanes are apart. -/

section Apart

variable (b : Block) (n a : Nat)

theorem lane_rput (w : Word) : lane (rput b a w) n = lane b n := rfl
theorem lane_rset1 (i : Nat) : lane (rset1 b a i) n = lane b n := rfl
theorem lane_rclr1 (i : Nat) : lane (rclr1 b a i) n = lane b n := rfl
theorem lane_rputF (hi lo v : Nat) : lane (rputF b a hi lo v) n = lane b n := rfl
theorem lane_rputB (i : Nat) (v : Bool) : lane (rputB b a i v) n = lane b n := by
  cases v <;> rfl
theorem rfld_updLane (f : Lane → Lane) (hi lo : Nat) : rfld (updLane b n f) a hi lo = rfld b a hi lo := rfl
theorem rfld_rput_other {c : Nat} (h : c ≠ a) (w : Word) (hi lo : Nat) : rfld (rput b a w) c hi lo = rfld b c hi lo :=
  rfld_congr (rget_rput_other _ _ _ _ h) hi lo
theorem rfld_rclr1_other {c : Nat} (h : c ≠ a) (i hi lo : Nat) : rfld (rclr1 b a i) c hi lo = rfld b c hi lo :=
  rfld_rput_other b a h _ hi lo

end Apart

/-! What a lane takes of a load's outcome (R330). -/

section LaneLoad

variable (nv : NonVol) (i : Nat) (b : Block) (n : Nat)

theorem lane_laneLoad_good : lane (laneLoad nv i 1 b n) n = { lane b n with
    cs := imageCode nv i (container nv i).words, words := (container nv i).words
    ent := (List.range (container nv i).nentry).map (fun k => (k, imageEntry nv i k)), loadPend := false, slot := i } := by
  unfold laneLoad
  rw [if_pos rfl, lane_rput, lane_rputB, lane_rset1, lane_updLane_same, lane_rclr1, lane_rputF]

variable {r : Nat} (h : r ≠ 1)
include h

/-- A load that fails leaves the lane's control store as it was, and shows none loaded (R330, R405). -/
theorem laneLoad_bad : laneLoad nv i r b n =
    rput (rclr1 (rclr1 (updLane (rclr1 (rputF b (laneReg n 0x304) 11 8 (loadErrOf r)) (laneReg n 0x300) 2) n
      (fun l => { l with loadPend := false, slot := i })) (laneReg n 0x304) 0) (laneReg n 0x304) 1) (laneReg n 0x308) 0 := by
  unfold laneLoad
  rw [if_neg h]

theorem lane_laneLoad_bad : lane (laneLoad nv i r b n) n = { lane b n with loadPend := false, slot := i } := by
  rw [laneLoad_bad nv i b n h, lane_rput, lane_rclr1, lane_rclr1, lane_updLane_same, lane_rclr1, lane_rputF]

/-- LOAD_ERR after a load that failed (R405). -/
theorem rfld_laneLoad_bad : rfld (laneLoad nv i r b n) (laneReg n 0x304) 11 8 = loadErrOf r := by
  have hversion : laneReg n 0x304 ≠ laneReg n 0x308 := by unfold laneReg; omega
  have hcfg : laneReg n 0x304 ≠ laneReg n 0x300 := by unfold laneReg; omega
  have hcode : loadErrOf r < 16 := by unfold loadErrOf; split_ifs <;> decide
  rw [laneLoad_bad nv i b n h, rfld_rput_other _ _ hversion, rfld_rclr1_field _ _ (by decide), rfld_rclr1_field _ _ (by decide),
    rfld_updLane, rfld_rclr1_other _ _ hcfg, rfld_rputF_same _ _ (by decide) hcode]

end LaneLoad

/-- Settles O57: a load by the lanes that wait for its slot, a reload, and what a lane takes of each result. -/
theorem controlStoresLoad : Obligations.ControlStoresLoad := by
  intro s n r errs b' hcan hn b i a
  refine ⟨fun hpend hcheck => act_of_eq (controlStoreLoad_loads hcan hn hpend hcheck),
    fun hpend => act_of_eq (controlStoreLoad_notAsked hpend),
    fun hdue hruns hidle hpend hcheck => act_of_eq (controlStoreReload_reloads hcan hn hdue hruns hidle hpend hcheck),
    fun b => ?taken⟩
  case taken =>
    rw [lane_laneLoad_good]
    refine ⟨rfl, rfl, rfl, fun hr => ?bad⟩
    case bad =>
      rw [lane_laneLoad_bad s.nv i b n hr]
      exact ⟨rfl, rfl, fun _ => (rfld_laneLoad_bad s.nv i b n hr).trans (if_neg hr)⟩

end Sys2Proof.Laws

/-! What a command can do to the machine beyond the block: CFLASH and the queue of waiting commands (R416, R420), what a block reset leaves
(R444), and the step that takes the first waiting command. -/

namespace Sys2Proof.Laws

open Sys2Proof Sys2Proof.Machine

/-! CFLASH and the queue along a command. -/

/-- Machine t has the CFLASH and the queue of machine s: at most the block is another. -/
def SameBeyondBlock (s t : State) : Prop := t.nv = s.nv ∧ t.pending = s.pending

section BeyondBlock

variable {s t : State}

theorem after_sameBeyond {b : Block} (h : Host.Outcome.next (after s b) = (.next t : Host.Outcome State Fault Refusal)) :
    SameBeyondBlock s t := by
  cases h
  exact ⟨rfl, rfl⟩

theorem settled_sameBeyond {u : State} (hu : SameBeyondBlock s u) (h : u.settled = .next t) : SameBeyondBlock s t := by
  cases h
  exact hu

theorem regWrite4_sameBeyond {a : Nat} {sec : Bool} {f : Block → Block} (h : (regWrite4 s a sec f).settled = .next t) :
    SameBeyondBlock s t :=
  settled_sameBeyond ⟨regWrite4_nv s a sec f, regWrite4_pending s a sec f⟩ h

/-- A write at the port whose effect stays within the block does so as a whole. -/
theorem portWrite_sameBeyond {a : Nat} {m : BitVec 8} {sec : Bool} {f : State → State}
    (h : (portWrite s a m sec f).settled = .next t) (hf : ∀ u, SameBeyondBlock u (f u)) : SameBeyondBlock s t :=
  settled_sameBeyond ⟨portWrite_nv s a m sec f fun u => (hf u).1, portWrite_pending s a m sec f fun u => (hf u).2⟩ h

theorem portReadA_sameBeyond {a : Nat} {size8 sec : Bool} {f : State → Answer × State}
    (h : (portReadA s a size8 sec f).settled = .next t) (hf : ∀ u, SameBeyondBlock u (f u).2) : SameBeyondBlock s t :=
  settled_sameBeyond ⟨portReadA_nv s a size8 sec f fun u => (hf u).1, portReadA_pending s a size8 sec f fun u => (hf u).2⟩ h

theorem cfAccess_sameBeyond (off : Nat) (m : BitVec 8) (v : Word64) (sec : Bool) (u : State) :
    SameBeyondBlock u (cfAccess off m v sec u) := by
  unfold cfAccess
  split
  · exact ⟨rfl, rfl⟩
  · exact ⟨rfl, rfl⟩

theorem windowAccess_sameBeyond (x : WindowRead) (u : State) : SameBeyondBlock u (windowAccess x u).2 := by
  unfold windowAccess
  split
  · exact ⟨rfl, rfl⟩
  · exact ⟨rfl, rfl⟩

theorem registerWrite_sameBeyond (a : Nat) (m : BitVec 8) (v : Word64) (sec : Bool) (u : State) :
    SameBeyondBlock u (registerWrite a m v sec u) := by
  unfold registerWrite
  split
  · exact cfAccess_sameBeyond _ m v sec u
  · split
    · exact ⟨rfl, rfl⟩
    · split
      · exact ⟨rfl, rfl⟩
      · exact ⟨rfl, rfl⟩

theorem readWord_sameBeyond (a : Nat) (u : State) : SameBeyondBlock u (readWord a u).2 := by
  unfold readWord
  dsimp only
  split
  · exact ⟨rfl, rfl⟩
  · split
    · exact ⟨rfl, rfl⟩
    · split
      · exact ⟨rfl, rfl⟩
      · exact ⟨rfl, rfl⟩

theorem SameBeyondBlock.trans {u : State} (h : SameBeyondBlock s t) (k : SameBeyondBlock t u) : SameBeyondBlock s u :=
  ⟨k.1.trans h.1, k.2.trans h.2⟩

theorem registerRead_sameBeyond (a : Nat) (size8 : Bool) (u : State) : SameBeyondBlock u (registerRead a size8 u).2 := by
  unfold registerRead
  dsimp only
  split
  · exact windowAccess_sameBeyond _ u
  · split
    · exact ⟨rfl, rfl⟩
    · split
      · exact (readWord_sameBeyond a u).trans (readWord_sameBeyond (a + 4) _)
      · exact readWord_sameBeyond a u

/-- Every command but the end of a CFLASH command and the three resets is an effect on the block or an access of the slave port, and leaves
CFLASH and the queue as they are. -/
theorem exec_sameBeyond {c : Instr} (hend : ∀ ok, c ≠ .cfCommandEnd ok)
    (hreset : ∀ ns, c ≠ .powerOnReset ns ∧ c ≠ .blockReset ns ∧ c ≠ .brownOutReset ns) (h : exec c s = .next t) :
    SameBeyondBlock s t := by
  cases c
  case cfCommandEnd ok => exact absurd rfl (hend ok)
  case powerOnReset ns => exact absurd rfl (hreset ns).1
  case blockReset ns => exact absurd rfl (hreset ns).2.1
  case brownOutReset ns => exact absurd rfl (hreset ns).2.2
  case epochWrite | boardTempWrite | tickCtrlWrite | sqDoorbell | cqDoorbell | waymarkWrite | laneReset | pvCfgWrite | pvReset |
      pvAdmEnable | pvAdmDisable | pvAdmResume | cwLoad | cwDisable | cwDisableClear | cwEventWrite | icComplete | vlogPop | keyArm |
      keyZeroise | wrapKeyLoad | wrapKeyClear | rngReseed | rngRestart | attStart | cfProtClose | pmReqPs2 | pmReqPs3 | pmReqCancel |
      pmWake | atriskRelease | atriskLaneRelease | mpTestArm | mpTestGo | pvSrcTgtWrite => exact regWrite4_sameBeyond h
  case sysStageWrite | sysUrecWrite | familyTableWrite | cwProgramWrite | icSrcCfgWrite =>
    exact portWrite_sameBeyond h (fun _ => ⟨rfl, rfl⟩)
  case cfSequenceStep | wordProg | sectorErase | rowProg | protProg | protErase | protLock | protUnlock =>
    exact portWrite_sameBeyond h (cfAccess_sameBeyond _ _ _ _)
  case registerWrite a m v sec => exact portWrite_sameBeyond h (registerWrite_sameBeyond a m v sec)
  case milepostLoRead | pvErrRead | icClaim | rngDataRead => exact portReadA_sameBeyond h (fun _ => ⟨rfl, rfl⟩)
  case cfWindowRead => exact portReadA_sameBeyond h (windowAccess_sameBeyond _)
  case rcRegisterRead a size8 sec => exact portReadA_sameBeyond h (registerRead_sameBeyond a size8)
  all_goals exact after_sameBeyond h

theorem resetPulse_next {ns : Nat} {u : State} (h : resetPulse ns s u = .next t) : t = s ∨ t = u := by
  unfold resetPulse at h
  split at h
  · cases h; exact .inl rfl
  · split at h
    · cases h
    · cases h; exact .inr rfl

theorem brownOut_cases (ns : Nat) (s : State) : brownOut ns s = s ∨ SameBeyondBlock (cfAbandon s) (brownOut ns s) := by
  unfold brownOut
  split
  · exact .inl rfl
  · exact .inr ⟨rfl, rfl⟩

/-- What CFLASH and the queue can be after a command: those before it, those that the end of a CFLASH command leaves (R416), or those that
a reset leaves, which abandons a running one (R420). -/
theorem exec_beyondBlock {c : Instr} (h : exec c s = .next t) :
    SameBeyondBlock s t ∨ (∃ ok, c = .cfCommandEnd ok ∧ SameBeyondBlock (cfCommandEnd ok s) t) ∨
      ((∃ ns, c = .powerOnReset ns ∨ c = .blockReset ns ∨ c = .brownOutReset ns) ∧ SameBeyondBlock (cfAbandon s) t) := by
  by_cases hend : ∃ ok, c = .cfCommandEnd ok
  · obtain ⟨ok, rfl⟩ := hend
    exact .inr (.inl ⟨ok, rfl, settled_sameBeyond ⟨rfl, rfl⟩ h⟩)
  by_cases hreset : ∃ ns, c = .powerOnReset ns ∨ c = .blockReset ns ∨ c = .brownOutReset ns
  · obtain ⟨ns, hc⟩ := hreset
    have hsplit : t = s ∨ SameBeyondBlock (cfAbandon s) t := by
      rcases hc with rfl | rfl | rfl
      · exact (resetPulse_next h).imp_right (by rintro rfl; exact ⟨rfl, rfl⟩)
      · exact (resetPulse_next h).imp_right (by rintro rfl; exact ⟨rfl, rfl⟩)
      · cases h
        exact brownOut_cases ns s
    rcases hsplit with rfl | hsame
    · exact .inl ⟨rfl, rfl⟩
    · exact .inr (.inr ⟨⟨ns, hc⟩, hsame⟩)
  · refine .inl (exec_sameBeyond (fun ok e => hend ⟨ok, e⟩) (fun ns => ?_) h)
    have hns := not_exists.mp hreset ns
    tauto

end BeyondBlock

/-! The two operations that reach CFLASH. -/

theorem cfAbandon_idle {s : State} (h : s.blk.cf.busy = false) : cfAbandon s = s := by simp [cfAbandon, h]

theorem cfAbandon_pending (s : State) : (cfAbandon s).pending = s.pending := by
  unfold cfAbandon
  split
  · rfl
  · rfl

theorem cfCommandEnd_idle {s : State} (ok : Bool) (h : s.blk.cf.busy = false) : cfCommandEnd ok s = s := by simp [cfCommandEnd, h]

theorem cfCommandEnd_pending (ok : Bool) (s : State) : (cfCommandEnd ok s).pending = s.pending := by
  unfold cfCommandEnd
  dsimp only
  split
  · rfl
  · split
    · rfl
    · rfl

/-- The end of a CFLASH command, its check passed or not, keeps the canonical form (R416, R417). -/
theorem cfCommandEnd_wf {s : State} (ok : Bool) (h : s.nv.wf = true) : (cfCommandEnd ok s).nv.wf = true := by
  unfold cfCommandEnd
  dsimp only
  split
  · exact h
  · split
    · exact cfDone_wf s.nv _ _ _ h
    · exact cfBroken_wf s.nv _ _ _ h

/-- Settles O53: each thing that a command can leave of CFLASH has the canonical form. -/
theorem cflashStaysCanonical : Obligations.CflashStaysCanonical := by
  intro c s t hwf h
  rcases exec_beyondBlock h with hsame | ⟨ok, -, hsame⟩ | ⟨-, hsame⟩ <;> rw [hsame.1]
  · exact hwf
  · exact cfCommandEnd_wf ok hwf
  · exact cfAbandon_wf s hwf

/-- Settles O54: without a CFLASH command that runs, its end and a reset leave CFLASH alone too. -/
theorem onlyCflashCommandsChangeCflash : Obligations.OnlyCflashCommandsChangeCflash := by
  intro c s t h hnv
  rcases exec_beyondBlock h with hsame | ⟨ok, rfl, hsame⟩ | ⟨hreset, hsame⟩
  · exact absurd hsame.1 hnv
  · refine ⟨by_contra fun hidle => hnv ?_, .inl ⟨ok, rfl⟩⟩
    rw [hsame.1, cfCommandEnd_idle ok (Bool.eq_false_of_not_eq_true hidle)]
  · refine ⟨by_contra fun hidle => hnv ?_, .inr hreset⟩
    rw [hsame.1, cfAbandon_idle (Bool.eq_false_of_not_eq_true hidle)]

/-- Settles O2: neither an effect on the block nor what reaches CFLASH reaches the queue. -/
theorem execLeavesTheQueue : Obligations.ExecLeavesTheQueue := by
  intro c s t h
  rcases exec_beyondBlock h with hsame | ⟨ok, -, hsame⟩ | ⟨-, hsame⟩ <;> rw [hsame.2]
  · exact cfCommandEnd_pending ok s
  · exact cfAbandon_pending s

/-! One step, and what a block reset leaves. -/

theorem step_cons (c : Instr) (s : State) (rest : List Instr) : step { s with pending := c :: rest } = exec c { s with pending := rest } := rfl

theorem step_nil {s : State} (h : s.pending = []) : step s = .next s := by simp only [step, h]

/-- Settles O1: a step with a command at the front of the queue, and one with none. -/
theorem stepTakesTheFirstCommand : Obligations.StepTakesTheFirstCommand :=
  ⟨fun c s => step_cons c s s.pending, fun _ h => step_nil h⟩

theorem tget_filter_key {α : Type} (d : α) (p : Nat → Bool) (t : Tab α) (i : Nat) :
    tget d (t.filter fun x => p x.1) i = if p i then tget d t i else d := by
  induction t with
  | nil => simp [tget]
  | cons x r ih =>
    by_cases hx : p x.1 = true
    · rw [List.filter_cons_of_pos (p := fun y : Nat × α => p y.1) hx, tget, tget, ih]
      by_cases hi : x.1 = i
      · simp [hi, hi ▸ hx]
      · simp [hi]
    · rw [List.filter_cons_of_neg (p := fun y : Nat × α => p y.1) hx, ih, tget]
      by_cases hi : x.1 = i
      · simp [← hi, hx]
      · simp [hi]

/-- A block reset keeps the always-on registers, and puts every other at its reset value (R444). -/
theorem rget_coldBlock (b : Block) (a : Nat) : rget (coldBlock b) a = if a ∈ aonRegs then rget b a else resetWord a := by
  simp only [← List.contains_iff_mem]
  exact tget_filter_key (resetWord a) (fun k => aonRegs.contains k) b.regs a

/-- Settles O34: the fields of a block in reset, and its registers by their domain. -/
theorem blockResetState : Obligations.BlockResetState :=
  fun b => ⟨rfl, rfl, rfl, rfl, rfl, rfl, rfl, rfl, rfl, rfl, rfl, rfl, rfl, rfl, rfl, rfl,
    fun a ha => (rget_coldBlock b a).trans (if_pos ha), fun a ha => (rget_coldBlock b a).trans (if_neg ha)⟩

end Sys2Proof.Laws

/-! The general channels of Causeway (R336 to R354): the instructions of their programs, the jobs of a lane's channels, and the writes of
their registers. -/

namespace Sys2Proof.Laws

open Sys2Proof Sys2Proof.Machine

/-! The instructions of a channel's program (R340 to R347): the channel `x` stands at the word `w`. -/

section ChannelProgram

variable {b : Block} {j g w : Nat} {x : Chan} (hx : chan b j g = x) (hw : progWord b j g x.pc = w) (hr : engineRuns b = true)
include hx hw hr

section Move

variable (hrun : x.run = 1) (hop : cwOp w = 1) (htrip : tripped b = false)
include hrun hop htrip

theorem cwMove_malformed (hok : moveOk w = false) : cwMove j (16 + g) b = chanError b j g 1 x.pc := by
  simp [cwMove, hx, hw, hr, hrun, hop, htrip, hok]

theorem cwMove_pastSpace (hok : moveOk w = true) (hfar : 2 ^ 48 ≤ x.src ∨ 2 ^ 48 ≤ x.dst) :
    cwMove j (16 + g) b = chanError b j g 4 x.pc := by
  have hgo : ¬ (16 + g < 16 ∨ x.run ≠ 1 ∨ cwOp w ≠ 1 ∨ (!engineRuns b) = true ∨ tripped b = true) := by simp [hr, hrun, hop, htrip]
  simp only [cwMove, Nat.add_sub_cancel_left, hx, hw, if_neg hgo, hok, if_pos hfar, Bool.not_true, Bool.false_eq_true, if_false]

/-- A MOVE that is good issues what it can, and ends at count zero (R341, R348). -/
theorem cwMove_issues (hok : moveOk w = true) (hsrc : x.src < 2 ^ 48) (hdst : x.dst < 2 ^ 48) :
    cwMove j (16 + g) b =
      let b1 := if x.moving then b else updChan b j g (fun y =>
        { y with moving := true, ser := y.ser + 1, count := if w.testBit 57 then y.defCount else bitsOf w 23 0 })
      let b2 := moveIssue 16 j g w (loopPass b1 j g) (movesGoOn j (chanPrio b1 j g + 1) b1)
      if (chan b2 j g).count = 0 then nextPc b2 j g else b2 := by
  have hgo : ¬ (16 + g < 16 ∨ x.run ≠ 1 ∨ cwOp w ≠ 1 ∨ (!engineRuns b) = true ∨ tripped b = true) := by simp [hr, hrun, hop, htrip]
  have hfar : ¬ (2 ^ 48 ≤ x.src ∨ 2 ^ 48 ≤ x.dst) := by omega
  simp only [cwMove, Nat.add_sub_cancel_left, hx, hw, if_neg hgo, hok, if_neg hfar, Bool.not_true, Bool.false_eq_true, if_false]

end Move

section Loop

variable (hrun : x.run = 1) (hop : cwOp w = 2)
include hrun hop

/-- A LOOP past its checks of form, target and nesting, by what is left of its passes. -/
theorem cwLoop_eq : cwLoop j (16 + g) b =
    if bitsOf w 59 24 ≠ 0 ∨ bitsOf w 15 5 ≠ 0 ∨ bitsOf w 23 16 < 2 then chanError b j g 1 x.pc
    else if x.pc ≤ bitsOf w 4 0 ∨ (x.left ≠ 0 ∧ x.loopAt ≠ x.pc) then chanError b j g 2 x.pc
    else if x.left = 0 then
      enterPc (updChan b j g (fun y => { y with left := bitsOf w 23 16 - 1, loopAt := x.pc })) j g (bitsOf w 4 0)
    else if x.left = 1 then nextPc (updChan b j g (fun y => { y with left := 0 })) j g
    else enterPc (updChan b j g (fun y => { y with left := y.left - 1 })) j g (bitsOf w 4 0) := by
  have hgo : ¬ (16 + g < 16 ∨ x.run ≠ 1 ∨ cwOp w ≠ 2 ∨ (!engineRuns b) = true) := by simp [hr, hrun, hop]
  simp only [cwLoop, Nat.add_sub_cancel_left, hx, hw, if_neg hgo]

theorem cwLoop_malformed (h : bitsOf w 59 24 ≠ 0 ∨ bitsOf w 15 5 ≠ 0 ∨ bitsOf w 23 16 < 2) :
    cwLoop j (16 + g) b = chanError b j g 1 x.pc := by
  rw [cwLoop_eq hx hw hr hrun hop, if_pos h]

variable (hhigh : bitsOf w 59 24 = 0) (hmid : bitsOf w 15 5 = 0) (hn : 2 ≤ bitsOf w 23 16)
include hhigh hmid hn

theorem cwLoop_forwards (h : x.pc ≤ bitsOf w 4 0 ∨ x.left ≠ 0 ∧ x.loopAt ≠ x.pc) :
    cwLoop j (16 + g) b = chanError b j g 2 x.pc := by
  rw [cwLoop_eq hx hw hr hrun hop, if_neg (by omega), if_pos h]

variable (ht : bitsOf w 4 0 < x.pc)
include ht

theorem cwLoop_first (hl : x.left = 0) : cwLoop j (16 + g) b =
    enterPc (updChan b j g (fun y => { y with left := bitsOf w 23 16 - 1, loopAt := x.pc })) j g (bitsOf w 4 0) := by
  rw [cwLoop_eq hx hw hr hrun hop, if_neg (by omega), if_neg (by omega), if_pos hl]

theorem cwLoop_last (hl : x.left = 1) (ha : x.loopAt = x.pc) :
    cwLoop j (16 + g) b = nextPc (updChan b j g (fun y => { y with left := 0 })) j g := by
  rw [cwLoop_eq hx hw hr hrun hop, if_neg (by omega), if_neg (by omega), if_neg (by omega), if_pos hl]

theorem cwLoop_again (hl : 2 ≤ x.left) (ha : x.loopAt = x.pc) :
    cwLoop j (16 + g) b = enterPc (updChan b j g (fun y => { y with left := y.left - 1 })) j g (bitsOf w 4 0) := by
  rw [cwLoop_eq hx hw hr hrun hop, if_neg (by omega), if_neg (by omega), if_neg (by omega), if_neg (by omega)]

end Loop

/-- A WAIT by its form, and by its drain and its flag (R343, R344). -/
theorem cwWait_eq (hrun : x.run = 1 ∨ x.run = 2) (hop : cwOp w = 3) : cwWait j (16 + g) b =
    if ¬ (bitsOf w 59 16 = 0 ∧ bitsOf w 14 9 = 0 ∧ bitsOf w 7 4 = 0 ∧ (w.testBit 15 = true ∨ w.testBit 8 = true)) then
      chanError b j g 1 x.pc
    else if (w.testBit 15 = true → chanDrained b j g = true) ∧ (w.testBit 8 = true →
        rbit b (juncReg j 0x1004) (bitsOf w 3 0) = true ∧ earlierWaiter b j g (bitsOf w 3 0) = false) then
      nextPc (if w.testBit 8 then rclr1 b (juncReg j 0x1004) (bitsOf w 3 0) else b) j g
    else updChan b j g (fun y => { y with run := 2 }) := by
  have hgo : ¬ (16 + g < 16 ∨ (x.run ≠ 1 ∧ x.run ≠ 2) ∨ cwOp w ≠ 3 ∨ (!engineRuns b) = true) := by simp [hr, hop]; omega
  have hform : (bitsOf w 59 16 ≠ 0 ∨ bitsOf w 14 9 ≠ 0 ∨ bitsOf w 7 4 ≠ 0 ∨ ((!w.testBit 15) = true ∧ (!w.testBit 8) = true)) ↔
      ¬ (bitsOf w 59 16 = 0 ∧ bitsOf w 14 9 = 0 ∧ bitsOf w 7 4 = 0 ∧ (w.testBit 15 = true ∨ w.testBit 8 = true)) := by
    simp only [not_and_or, not_or, ne_eq, Bool.not_eq_true, Bool.not_eq_true']
  have hmet : ((w.testBit 15 && !chanDrained b j g) ||
      (w.testBit 8 && (!rbit b (juncReg j 0x1004) (bitsOf w 3 0) || earlierWaiter b j g (bitsOf w 3 0)))) = true ↔
      ¬ ((w.testBit 15 = true → chanDrained b j g = true) ∧ (w.testBit 8 = true →
        rbit b (juncReg j 0x1004) (bitsOf w 3 0) = true ∧ earlierWaiter b j g (bitsOf w 3 0) = false)) := by
    generalize w.testBit 15 = drain, chanDrained b j g = drained, w.testBit 8 = flag, rbit b _ _ = up, earlierWaiter b j g _ = before
    decide +revert
  simp only [cwWait, Nat.add_sub_cancel_left, hx, hw, if_neg hgo, hform, hmet, ite_not]

/-- A SIGNAL sets what it names (R343). -/
theorem cwSignal_eq (hrun : x.run = 1) (hop : cwOp w = 4) : cwSignal j (16 + g) b =
    if ¬ (bitsOf w 59 10 = 0 ∧ bitsOf w 7 4 = 0 ∧ (w.testBit 9 = true ∨ w.testBit 8 = true)) then chanError b j g 1 x.pc
    else
      let b1 := if w.testBit 9 then rset1 b (juncReg j 0x100C) g else b
      nextPc (if w.testBit 8 then rset1 b1 (juncReg j 0x1004) (bitsOf w 3 0) else b1) j g := by
  have hgo : ¬ (16 + g < 16 ∨ x.run ≠ 1 ∨ cwOp w ≠ 4 ∨ (!engineRuns b) = true) := by simp [hr, hrun, hop]
  have hform : (bitsOf w 59 10 ≠ 0 ∨ bitsOf w 7 4 ≠ 0 ∨ ((!w.testBit 9) = true ∧ (!w.testBit 8) = true)) ↔
      ¬ (bitsOf w 59 10 = 0 ∧ bitsOf w 7 4 = 0 ∧ (w.testBit 9 = true ∨ w.testBit 8 = true)) := by
    simp only [not_and_or, not_or, ne_eq, Bool.not_eq_true, Bool.not_eq_true']
  simp only [cwSignal, Nat.add_sub_cancel_left, hx, hw, if_neg hgo, hform]

theorem cwEnd_eq (hrun : x.run = 1) (hop : cwOp w = 0) : cwEnd j (16 + g) b =
    if w ≠ 0 then chanError b j g 1 x.pc else updChan b j g (fun y => { y with run := 3 }) := by
  have hgo : ¬ (16 + g < 16 ∨ x.run ≠ 1 ∨ cwOp w ≠ 0 ∨ (!engineRuns b) = true) := by simp [hr, hrun, hop]
  simp only [cwEnd, Nat.add_sub_cancel_left, hx, hw, if_neg hgo]

end ChannelProgram

/-- The end of a drain by LOAD (R347). -/
theorem cwDrainComplete_eq {b : Block} {j g : Nat} (hr : engineRuns b = true) (hrun : (chan b j g).run = 3)
    (hd : chanDrained b j g = true) : cwDrainComplete j (16 + g) b =
      if rbit b (chCtrl j g) 0 then handover b j g
      else rset1 (updChan b j g (fun y => { y with run := 0 })) (chStatus j g) 16 := by
  have hgo : ¬ (16 + g < 16 ∨ (chan b j g).run ≠ 3 ∨ (!chanDrained b j g) = true ∨ (!engineRuns b) = true) := by simp [hr, hrun, hd]
  simp only [cwDrainComplete, Nat.add_sub_cancel_left, if_neg hgo]

/-! The jobs of a lane's channels (R336, R337): `c` even is the inbound channel. -/

section Jobs

variable {b : Block} {j c : Nat} {x : Job} {rest : List Job} (hc : c < 16) (hr : engineRuns b = true) (hs : x.started = true)
  (hl : x.left = 0)
include hc hr hs hl

theorem cwJobFinish_inbound (hin : c % 2 = 0) (hj : (lane b (8 * j + c / 2)).inJobs = x :: rest) :
    cwJobFinish j c b = framesFreed (8 * j + c / 2) (startJob (jobEnded (8 * j + c / 2) x
      (noteDone j c true rest.isEmpty x (updLane b (8 * j + c / 2) (fun l => { l with inJobs := rest })))) (8 * j + c / 2) true) := by
  simp [cwJobFinish, hin, hj, hs, hl, hr, Nat.not_le.mpr hc]

theorem cwJobFinish_outbound (hout : c % 2 = 1) (hj : (lane b (8 * j + c / 2)).outJobs = x :: rest) :
    cwJobFinish j c b = framesFreed (8 * j + c / 2) (startJob (jobEnded (8 * j + c / 2) x
      (noteDone j c false rest.isEmpty x (updLane b (8 * j + c / 2) (fun l => { l with outJobs := rest })))) (8 * j + c / 2) false) := by
  simp [cwJobFinish, hout, hj, hs, hl, hr, Nat.not_le.mpr hc]

end Jobs

/-- Settles O48: each instruction of a channel's program by its checks, the end of a drain by LOAD, and the end of a job by its channel's
direction. -/
theorem channelInstructions : Obligations.ChannelInstructions := by
  refine ⟨fun s j g hr => ⟨?move, ?loop, ?wait, ?signal, ?halt, ?idle, ?reload⟩, fun s j c x rest hc hr hs hl => ⟨?inbound, ?outbound⟩⟩
  case move =>
    exact fun hrun hop htrip =>
      ⟨fun hok hsrc hdst => act_of_eq (cwMove_issues rfl rfl hr hrun hop htrip hok hsrc hdst),
        fun hok => act_of_eq (cwMove_malformed rfl rfl hr hrun hop htrip hok),
        fun hok hfar => act_of_eq (cwMove_pastSpace rfl rfl hr hrun hop htrip hok hfar)⟩
  case loop =>
    exact fun hrun hop =>
      ⟨fun hbad => act_of_eq (cwLoop_malformed rfl rfl hr hrun hop hbad), fun hh hm hn =>
        ⟨fun hf => act_of_eq (cwLoop_forwards rfl rfl hr hrun hop hh hm hn hf),
          fun ht hl => act_of_eq (cwLoop_first rfl rfl hr hrun hop hh hm hn ht hl),
          fun ht hl ha => act_of_eq (cwLoop_last rfl rfl hr hrun hop hh hm hn ht hl ha),
          fun ht hl ha => act_of_eq (cwLoop_again rfl rfl hr hrun hop hh hm hn ht hl ha)⟩⟩
  case wait =>
    intro hrun hop
    have hwait := cwWait_eq (b := s.blk) (j := j) (g := g) rfl rfl hr hrun hop
    exact ⟨fun hbad => act_of_eq (hwait.trans (if_pos hbad)),
      fun hgood hmet => act_of_eq (hwait.trans ((if_neg (not_not.mpr hgood)).trans (if_pos hmet))),
      fun hgood hmet => act_of_eq (hwait.trans ((if_neg (not_not.mpr hgood)).trans (if_neg hmet)))⟩
  case signal =>
    intro hrun hop
    have hsignal := cwSignal_eq (b := s.blk) (j := j) (g := g) rfl rfl hr hrun hop
    exact ⟨fun hbad => act_of_eq (hsignal.trans (if_pos hbad)), fun hgood => act_of_eq (hsignal.trans (if_neg (not_not.mpr hgood)))⟩
  case halt =>
    intro hrun hop
    have hend := cwEnd_eq (b := s.blk) (j := j) (g := g) rfl rfl hr hrun hop
    exact ⟨fun h0 => act_of_eq (hend.trans (if_neg (not_not.mpr h0))), fun h0 => act_of_eq (hend.trans (if_pos h0))⟩
  case idle => exact fun hrun hd hload => act_of_eq ((cwDrainComplete_eq hr hrun hd).trans (if_neg (by rw [hload]; decide)))
  case reload => exact fun hrun hd hload => act_of_eq ((cwDrainComplete_eq hr hrun hd).trans (if_pos hload))
  case inbound => exact fun hin hj => act_of_eq (cwJobFinish_inbound hc hr hs hl hin hj)
  case outbound => exact fun hout hj => act_of_eq (cwJobFinish_outbound hc hr hs hl hout hj)

/-! The registers of a channel (R336, R339, R344, R346, R353, R354). -/

theorem chan_updChan_same (b : Block) (j g : Nat) (f : Chan → Chan) : chan (updChan b j g f) j g = f (chan b j g) :=
  tget_tupd_same _ _ _ _

theorem chan_plainWrite (b : Block) (a : Nat) (m v : Word) (j g : Nat) : chan (plainWrite b a m v) j g = chan b j g := by
  cases hd : regDesc a with
  | none => rw [plainWrite_of_none hd]
  | some r => rw [plainWrite_of_some hd]; rfl

theorem chanReg_aligned (j c : Nat) {o : Nat} (ho : o % 4 = 0) : chanReg j c o % 4 = 0 := by
  unfold chanReg juncReg; omega

theorem juncReg_aligned (j : Nat) {o : Nat} (ho : o % 4 = 0) : juncReg j o % 4 = 0 := by
  unfold juncReg; omega

/-- Two runs whose effects agree, wherever a fact holds that the second keeps, come to the same. -/
theorem each_congr {α : Type} (P : Block → Prop) {f f' : Block → α → Block} :
    ∀ (l : List α) (b : Block), (∀ b, P b → ∀ x ∈ l, f b x = f' b x ∧ P (f' b x)) → P b → each l f b = each l f' b
  | [], _, _, _ => rfl
  | x :: l, b, h, hb => by
    obtain ⟨heq, hkeep⟩ := h b hb x List.mem_cons_self
    simp only [each, List.foldl_cons, heq]
    exact each_congr P l (f' b x) (fun b hb y hy => h b hb y (List.mem_cons_of_mem x hy)) hkeep

section ChannelControl

variable {b : Block} {j g : Nat} {v : Word}

/-- The word of CW_CH_CTRL after a write, before what the write asks for: LOAD is set by a 1 (R346). -/
def ctrlSet (j g : Nat) (v : Word) (b : Block) : Block :=
  if v.getLsbD 0 then rset1 (plainWrite b (chCtrl j g) 0xFFFFFFFF v) (chCtrl j g) 0 else plainWrite b (chCtrl j g) 0xFFFFFFFF v

theorem chan_ctrlSet (j g : Nat) (v : Word) (b : Block) : chan (ctrlSet j g v b) j g = chan b j g := by
  unfold ctrlSet
  split
  · exact chan_plainWrite b _ _ v j g
  · exact chan_plainWrite b _ _ v j g

theorem rbit_ctrlSet_load (h : v.getLsbD 0 = true) : rbit (ctrlSet j g v b) (chCtrl j g) 0 = true := by
  rw [ctrlSet, if_pos h, rbit_rset1_same _ _ (by decide)]

theorem run_disableChan (b : Block) (j g : Nat) : (chan (disableChan b j g) j g).run = 5 := by
  simp only [disableChan, chan_updChan_same]

/-- A channel at rest takes its handover, in PS2 once the clocks go on (R346). -/
def chanStarts (j g : Nat) (b : Block) : Block :=
  if engineRuns b then startChan b j g else updChan b j g (fun c => { c with loadWait := true })

/-- A write of CW_CH_CTRL: LOAD, DISABLE and its clearing, and then the handover of a channel at rest (R346, R353). -/
theorem ctrlWrite_eq (j g : Nat) (v : Word) (b : Block) : ctrlWrite j g 0xFFFFFFFF v b =
    let was := (chan b j g).run
    let d := if v.getLsbD 1 = true ∧ was ≠ 5 then disableChan (ctrlSet j g v b) j g
      else if v.getLsbD 1 = false ∧ was = 5 then updChan (ctrlSet j g v b) j g (fun c => { c with run := 0 })
      else ctrlSet j g v b
    if ((chan d j g).run = 0 ∨ (chan d j g).run = 4) ∧ rbit d (chCtrl j g) 0 = true ∧ (v.getLsbD 0 = true ∨ was = 5) then
      chanStarts j g d else d := by
  have hmask : v &&& 0xFFFFFFFF = v := BitVec.and_allOnes
  have hbit : (0xFFFFFFFF : Word).getLsbD 1 = true := by decide
  simp only [ctrlWrite, hmask, hbit, Bool.true_and, Bool.and_eq_true, Bool.not_eq_true', decide_eq_true_eq]
  rfl

theorem ctrlWrite_disables (h1 : v.getLsbD 1 = true) (hw : (chan b j g).run ≠ 5) :
    ctrlWrite j g 0xFFFFFFFF v b = disableChan (ctrlSet j g v b) j g := by
  simp only [ctrlWrite_eq, h1, hw, ne_eq, not_false_eq_true, and_self, if_true, run_disableChan]
  exact if_neg (by omega)

/-- Where a write neither disables a channel nor clears its DISABLE, only LOAD of one at rest has an effect beyond the word. -/
theorem ctrlWrite_keepsRun (h : ¬ (v.getLsbD 1 = true ∧ (chan b j g).run ≠ 5)) (h' : ¬ (v.getLsbD 1 = false ∧ (chan b j g).run = 5)) :
    ctrlWrite j g 0xFFFFFFFF v b =
      if ((chan b j g).run = 0 ∨ (chan b j g).run = 4) ∧ v.getLsbD 0 = true then chanStarts j g (ctrlSet j g v b)
      else ctrlSet j g v b := by
  simp only [ctrlWrite_eq, if_neg h, if_neg h', chan_ctrlSet]
  refine if_congr ?_ rfl rfl
  constructor
  · rintro ⟨hrest, -, hload | h5⟩
    · exact ⟨hrest, hload⟩
    · omega
  · exact fun ⟨hrest, hload⟩ => ⟨hrest, rbit_ctrlSet_load hload, .inl hload⟩

theorem ctrlWrite_disabled (h1 : v.getLsbD 1 = true) (hw : (chan b j g).run = 5) :
    ctrlWrite j g 0xFFFFFFFF v b = ctrlSet j g v b := by
  rw [ctrlWrite_keepsRun (by simp [hw]) (by simp [h1]), if_neg (by omega)]

/-- DISABLE cleared leaves the channel IDLE, to start where LOAD is set (R353, R354). -/
theorem ctrlWrite_enables (h1 : v.getLsbD 1 = false) (hw : (chan b j g).run = 5) :
    ctrlWrite j g 0xFFFFFFFF v b =
      let idle := updChan (ctrlSet j g v b) j g (fun c => { c with run := 0 })
      if rbit idle (chCtrl j g) 0 then chanStarts j g idle else idle := by
  simp only [ctrlWrite_eq, h1, hw, chan_updChan_same, Bool.false_eq_true, false_and, if_false, and_self, if_true, true_or, or_true,
    true_and, and_true]

theorem ctrlWrite_loads (h1 : v.getLsbD 1 = false) (hw : (chan b j g).run = 0 ∨ (chan b j g).run = 4) (h0 : v.getLsbD 0 = true) :
    ctrlWrite j g 0xFFFFFFFF v b = chanStarts j g (ctrlSet j g v b) := by
  rw [ctrlWrite_keepsRun (by rw [h1]; exact fun h => Bool.false_ne_true h.1) (by omega), if_pos ⟨hw, h0⟩]

theorem ctrlWrite_atRest (h1 : v.getLsbD 1 = false) (hw : (chan b j g).run = 0 ∨ (chan b j g).run = 4) (h0 : v.getLsbD 0 = false) :
    ctrlWrite j g 0xFFFFFFFF v b = ctrlSet j g v b := by
  rw [ctrlWrite_keepsRun (by rw [h1]; exact fun h => Bool.false_ne_true h.1) (by omega), if_neg (by rw [h0]; exact fun h => Bool.false_ne_true h.2)]

theorem ctrlWrite_running (h1 : v.getLsbD 1 = false)
    (hw : (chan b j g).run = 1 ∨ (chan b j g).run = 2 ∨ (chan b j g).run = 3) :
    ctrlWrite j g 0xFFFFFFFF v b = ctrlSet j g v b := by
  rw [ctrlWrite_keepsRun (by rw [h1]; exact fun h => Bool.false_ne_true h.1) (by omega), if_neg (by omega)]

theorem chanCtrlWrite_general (j g : Nat) (m v : Word) (b : Block) : chanCtrlWrite j (16 + g) m v b = ctrlWrite j g m v b := by
  rw [chanCtrlWrite, if_neg (by omega), Nat.add_sub_cancel_left]

/-- The three commands that write CW_CH_CTRL are the same write (R336). -/
theorem exec_chanCtrl {c : Instr} {s : State} {k : Nat} {h : Block → Block}
    (hc : c ∈ [Instr.cwLoad j k v true, .cwDisable j k v true, .cwDisableClear j k v true]) (hp : PortTakes s (chanReg j k 4))
    (heq : chanCtrlWrite j k 0xFFFFFFFF v s.blk = h s.blk) : exec c s = .next (afterWrite s h) := by
  have hwrite := regWrite4_of_eq hp (chanReg_aligned j k (by decide)) heq
  simp only [List.mem_cons, List.not_mem_nil, or_false] at hc
  rcases hc with rfl | rfl | rfl
  · exact hwrite
  · exact hwrite
  · exact hwrite

end ChannelControl

/-! The program area of a channel (R339), and its shadow set while LOAD is set (R346). -/

section ProgramArea

variable {j g i a : Nat} {m : BitVec 8} {w : Word64}

/-- The words of an access that covers part of instruction i (R27). -/
theorem mem_maskWords {x : Nat × Word × Word} (hx : x ∈ maskWords a m w) :
    x.2.1 = 0xFFFFFFFF ∧ (x.1 = a ∨ m = 0xFF ∧ x.1 = a + 4) := by
  unfold maskWords at hx
  split at hx
  case isTrue hm =>
    simp only [List.mem_cons, List.not_mem_nil, or_false] at hx
    rcases hx with rfl | rfl
    · exact ⟨rfl, .inl rfl⟩
    · exact ⟨rfl, .inr ⟨hm, rfl⟩⟩
  case isFalse =>
    obtain rfl := List.mem_singleton.mp hx
    exact ⟨rfl, .inl rfl⟩

/-- The byte address of the first word of an access to instruction i (R339). -/
def progAt (j g i : Nat) (m : BitVec 8) : Nat := juncReg j (0x2000 + 0x100 * g + 8 * i) + (if m = 0xF0 then 4 else 0)

theorem instr_of_progAt {x : Nat × Word × Word} (hx : x ∈ maskWords (progAt j g i m) m w) :
    (x.1 - juncReg j (0x2000 + 0x100 * g)) / 8 = i := by
  have hplace : x.1 = progAt j g i m ∨ m = 0xFF ∧ x.1 = progAt j g i m + 4 := (mem_maskWords hx).2
  have hhalf : m = 0xFF → m ≠ 0xF0 := by rintro rfl; decide
  unfold progAt juncReg at hplace
  unfold juncReg
  split at hplace
  case isTrue hm =>
    rcases hplace with h | ⟨h8, h⟩
    · omega
    · exact absurd hm (hhalf h8)
  case isFalse => rcases hplace with h | ⟨-, h⟩ <;> omega

variable (b : Block)

theorem progWrites_stopped (hr : (chan b j g).run = 0 ∨ (chan b j g).run = 4 ∨ (chan b j g).run = 5) :
    each (maskWords (progAt j g i m) m w) (fun b x => progWrite j g x b) b =
      each (maskWords (progAt j g i m) m w) (fun b x => replaceProg j g i (plainWrite b x.1 0xFFFFFFFF x.2.2)) b := by
  refine each_congr (fun c => chan c j g = chan b j g) _ b (fun c hc x hx => ⟨?_, ?_⟩) rfl
  · simp only [progWrite, hc, if_pos hr, (mem_maskWords hx).1, instr_of_progAt hx]
  · exact (chan_plainWrite c _ _ _ j g).trans hc

theorem progWrites_running (hr : (chan b j g).run = 1 ∨ (chan b j g).run = 2 ∨ (chan b j g).run = 3) :
    each (maskWords a m w) (fun b x => progWrite j g x b) b = each (maskWords a m w) (fun b _ => rset1 b (chCtrl j g) 3) b := by
  have hrest : ¬ ((chan b j g).run = 0 ∨ (chan b j g).run = 4 ∨ (chan b j g).run = 5) := by omega
  refine each_congr (fun c => chan c j g = chan b j g) _ b (fun c hc x _ => ⟨?_, hc⟩) rfl
  simp only [progWrite, hc, if_neg hrest]

end ProgramArea

theorem exec_cwEventWrite {s : State} {j : Nat} {set : Bool} {v : Word} {h : Block → Block}
    (hp : PortTakes s (juncReg j (if set then 0x1008 else 0x1004))) (heq : eventWrite j set v s.blk = h s.blk) :
    exec (.cwEventWrite j set v true) s = .next (afterWrite s h) :=
  regWrite4_of_eq hp (juncReg_aligned j (by cases set <;> decide)) heq

/-- The shadow set is locked while LOAD is set (R346). -/
theorem writeWord_shadow_locked {b : Block} {j g f : Nat} (hg : g < 8) (hj : j < 8) (hf : f ∈ [0x10, 0x14, 0x18, 0x1C, 0x20])
    (hl : rbit b (chanReg j (16 + g) 4) 0 = true) (v : Word) (sec : Bool) :
    writeWord (chanReg j (16 + g) f) v sec b = rset1 b (chanReg j (16 + g) 4) 2 := by
  have hbound : f % 4 = 0 ∧ 0x10 ≤ f ∧ f < 0x24 := by
    simp only [List.mem_cons, List.not_mem_nil, or_false] at hf
    omega
  have ha : chanReg j (16 + g) f = 0x80000 + 0x8000 * j + (0x1100 + 0x40 * (16 + g) + f) := rfl
  have hpage : writeWord (chanReg j (16 + g) f) v sec b = junctionWrite (chanReg j (16 + g) f) v sec b := by
    simp (disch := omega) only [writeWord, if_neg, if_pos]
  have hjunc : (chanReg j (16 + g) f - 0x80000) / 0x8000 = j := by omega
  have hoff : (chanReg j (16 + g) f - 0x80000) % 0x8000 = 0x1100 + 0x40 * (16 + g) + f := by omega
  have hplace : (chanReg j (16 + g) f - 0x80000) % 0x8000 - 0x1100 = 0x40 * (16 + g) + f := by omega
  have hchan : (0x40 * (16 + g) + f) / 0x40 = 16 + g := by omega
  have hfield : (0x40 * (16 + g) + f) % 0x40 = f := by omega
  have hwrite : junctionWrite (chanReg j (16 + g) f) v sec b = chanWrite (chanReg j (16 + g) f) 0xFFFFFFFF v sec b := by
    simp only [junctionWrite, hoff]
    rw [if_neg (by omega), if_pos (by omega)]
  rw [hpage, hwrite]
  simp only [chanWrite, hjunc, hplace, hchan, hfield]
  rw [if_neg (by omega), if_neg (by omega), if_neg (by omega), if_pos ⟨by omega, hbound.2.1, hbound.2.2, hl⟩]

/-- Settles O46: a write of CW_CH_CTRL by what it sets and how the channel stands, and the writes of the program area, the flags and the
shadow set. -/
theorem channelCommands : Obligations.ChannelCommands := by
  intro s j g i v w m hg
  refine ⟨fun c hc hp => ⟨?disables, ?disabled, ?enables, ?loads, ?atRest, ?running⟩, ?laneBound, ?taken, ?refused,
    fun hp => exec_cwEventWrite hp (if_neg Bool.false_ne_true), fun hp => exec_cwEventWrite hp (if_pos rfl),
    fun f hf sec hj hl => writeWord_shadow_locked hg hj hf hl v sec⟩
  case disables =>
    exact fun h1 hw => exec_chanCtrl hc hp ((chanCtrlWrite_general j g _ v _).trans (ctrlWrite_disables h1 hw))
  case disabled =>
    exact fun h1 hw => exec_chanCtrl hc hp ((chanCtrlWrite_general j g _ v _).trans (ctrlWrite_disabled h1 hw))
  case enables =>
    exact fun h1 hw => exec_chanCtrl hc hp ((chanCtrlWrite_general j g _ v _).trans (ctrlWrite_enables h1 hw))
  case loads =>
    exact fun h1 hw h0 => exec_chanCtrl hc hp ((chanCtrlWrite_general j g _ v _).trans (ctrlWrite_loads h1 hw h0))
  case atRest =>
    exact fun h1 hw h0 => exec_chanCtrl hc hp ((chanCtrlWrite_general j g _ v _).trans (ctrlWrite_atRest h1 hw h0))
  case running =>
    exact fun h1 hw => exec_chanCtrl hc hp ((chanCtrlWrite_general j g _ v _).trans (ctrlWrite_running h1 hw))
  case laneBound => exact fun k hk c hc hp => exec_chanCtrl hc hp (if_pos hk)
  case taken =>
    exact fun hp hm hr _ => portWrite_admitted hp hm (slaveGate_fst _ _ _ _)
      (f := each _ fun b x => progWrite j g x b) (progWrites_stopped s.blk hr)
  case refused =>
    exact fun hp hm hr => portWrite_admitted hp hm (slaveGate_fst _ _ _ _)
      (f := each _ fun b x => progWrite j g x b) (progWrites_running s.blk hr)

end Sys2Proof.Laws

/-! The interrupt sources' state table (R379), Gatehouse's commands (R393, R399 to R408), thermal trips and a lost reference clock (R374,
R375, R438), and the power states with the at-risk list (R426, R432, R433, R446 to R449). -/

namespace Sys2Proof.Laws

open Sys2Proof Sys2Proof.Machine

/-! What a source becomes as its level is sensed (R379), by its state. -/

section Sources

variable {b : Block} {n : Nat} {x : Src}

theorem senseSrc_idle (hs : x.st = .idle) : senseSrc b n x =
    if (srcLevel b n && srcEnabled b n) = true then
      if srcMcount b n = 1 ∨ targetIdle b (srcTarget b n) = true then { x with level := true, st := .pending, count := 1 }
      else { x with level := true, st := .accum, count := 1, limit := srcMcount b n, due := now b + srcMtime b n }
    else { x with level := false } := by
  simp only [senseSrc, hs]

theorem senseSrc_accum (hs : x.st = .accum) : senseSrc b n x =
    if (srcLevel b n && srcEnabled b n) = false then { x with level := false, st := .idle, count := 0 }
    else if targetIdle b (srcTarget b n) = true ∨ x.limit ≤ x.count then { x with level := true, st := .pending }
    else { x with level := true } := by
  simp only [senseSrc, hs, Bool.not_eq_true']

theorem senseSrc_pending (hs : x.st = .pending) : senseSrc b n x =
    if (srcLevel b n && srcEnabled b n) = true then { x with level := true }
    else { x with level := false, st := .idle, count := 0 } := by
  simp only [senseSrc, hs]

theorem senseSrc_active (hs : x.st = .active) : senseSrc b n x = { x with level := srcLevel b n && srcEnabled b n } := by
  simp only [senseSrc, hs]

/-- A source keeps the level it has sensed. -/
theorem senseSrc_level (b : Block) (n : Nat) (x : Src) : (senseSrc b n x).level = (srcLevel b n && srcEnabled b n) := by
  cases hs : x.st
  case idle =>
    rw [senseSrc_idle hs]
    split_ifs with hup
    · exact hup.symm
    · exact hup.symm
    · exact (Bool.eq_false_of_not_eq_true hup).symm
  case accum =>
    rw [senseSrc_accum hs]
    split_ifs with hlow
    · exact hlow.symm
    · exact (Bool.eq_true_of_not_eq_false hlow).symm
    · exact (Bool.eq_true_of_not_eq_false hlow).symm
  case pending =>
    rw [senseSrc_pending hs]
    split_ifs with hup
    · exact hup.symm
    · exact (Bool.eq_false_of_not_eq_true hup).symm
  case active => rw [senseSrc_active hs]

end Sources

/-- Settles O49: each state of a source by the level that it senses. -/
theorem sourcesFollowTheirTable : Obligations.SourcesFollowTheirTable := by
  intro b n x
  refine ⟨senseSrc_level b n x, ?idleLow, ?idleHigh, ?idleAccum, ?accumLow, ?accumDue, ?accumStays, ?pendingLow, ?pendingHigh, ?active⟩
  case idleLow =>
    intro hs hlow
    rw [senseSrc_idle hs, if_neg (by rw [hlow]; decide)]
    exact hs
  case idleHigh =>
    intro hs hup hnow
    rw [senseSrc_idle hs, if_pos hup, if_pos hnow]
    exact ⟨rfl, rfl⟩
  case idleAccum =>
    intro hs hup hcount hidle
    have hlater : ¬ (srcMcount b n = 1 ∨ targetIdle b (srcTarget b n) = true) := by simp [hcount, hidle]
    rw [senseSrc_idle hs, if_pos hup, if_neg hlater]
    exact ⟨rfl, rfl, rfl, rfl⟩
  case accumLow =>
    intro hs hlow
    rw [senseSrc_accum hs, if_pos hlow]
    exact ⟨rfl, rfl⟩
  case accumDue =>
    intro hs hup hdue
    rw [senseSrc_accum hs, if_neg (by rw [hup]; decide), if_pos hdue]
  case accumStays =>
    intro hs hup hidle hcount
    have hearly : ¬ (targetIdle b (srcTarget b n) = true ∨ x.limit ≤ x.count) := by simp [hidle, hcount]
    rw [senseSrc_accum hs, if_neg (by rw [hup]; decide), if_neg hearly]
  case pendingLow =>
    intro hs hlow
    rw [senseSrc_pending hs, if_neg (by rw [hlow]; decide)]
    exact ⟨rfl, rfl⟩
  case pendingHigh =>
    intro hs hup
    rw [senseSrc_pending hs, if_pos hup]
    exact hs
  case active =>
    intro hs
    rw [senseSrc_active hs]
    exact ⟨hs, rfl⟩

/-! Gatehouse's registers (R393, R399 to R408). -/

section Gatehouse

variable {b : Block} {v : Word}

theorem keyCtrlWrite_arms (h1 : v.getLsbD 1 = false) : keyCtrlWrite v b = rputB b 0x10400 0 (v.getLsbD 0) :=
  if_neg (by rw [h1]; decide)

/-- ZEROISE by the ARM that an earlier write has set (R402). -/
theorem keyCtrlWrite_zeroise (h1 : v.getLsbD 1 = true) :
    keyCtrlWrite v b = if rbit b 0x10400 0 then zeroiseAll (rclr1 b 0x10400 0) else rclr1 b 0x10400 0 := if_pos h1

/-- KEY_ARM and KEY_ZEROISE are the same write. -/
theorem exec_keyCtrl {s : State} {c : Instr} {h : Block → Block} (hc : c ∈ [Instr.keyArm v true, .keyZeroise v true])
    (hp : PortTakes s 0x10400) (heq : keyCtrlWrite v s.blk = h s.blk) : exec c s = .next (afterWrite s h) := by
  have hwrite := regWrite4_of_eq hp (by decide) heq
  simp only [List.mem_cons, List.not_mem_nil, or_false] at hc
  rcases hc with rfl | rfl
  · exact hwrite
  · exact hwrite

/-- RNG_RESEED and RNG_RESTART are the same write. -/
theorem exec_rngCtrl {s : State} {c : Instr} (hc : c ∈ [Instr.rngReseed v true, .rngRestart v true])
    (hp : PortTakes s 0x10500) : exec c s = .next (afterWrite s (rngCtrlWrite v)) := by
  have hwrite := regWrite4_settled hp (by decide) (rngCtrlWrite v)
  simp only [List.mem_cons, List.not_mem_nil, or_false] at hc
  rcases hc with rfl | rfl
  · exact hwrite
  · exact hwrite

theorem rngHealthFail_running (h : b.inReset = false) : rngHealthFail b = rclr1 (rset1 b 0x10504 1) 0x10500 1 :=
  if_neg (by rw [h]; decide)

/-- The DRBG is instantiated while it is not, and where it has failed only behind a RESTART (R403, R404). -/
theorem drbgInstantiated_starts (hi : b.inReset = false) (hd : rbit b 0x10504 0 = false)
    (hf : rbit b 0x10504 1 = false ∨ rbit b 0x10500 1 = true) :
    drbgInstantiated b = rset1 (rclr1 (rclr1 { b with gens := 0 } 0x10504 1) 0x10500 1) 0x10504 0 := by
  refine if_neg ?_
  rw [hi, hd]
  rcases hf with hf | hf <;> simp [hf]

theorem drbgInstantiated_stays (h : rbit b 0x10504 0 = true ∨ rbit b 0x10504 1 = true ∧ rbit b 0x10500 1 = false) :
    drbgInstantiated b = b := by
  refine if_pos ?_
  rcases h with h | ⟨hf, hr⟩
  · simp [h]
  · simp [hf, hr]

theorem rngRead_ready {s : State} (h : rngReady s.blk = true) : rngRead s =
    (laneOfWord 0x10508 (Config.freeVal 32 s.blk.free), { s with blk :=
      { s.blk with free := s.blk.free + 1, gens := if s.blk.gens + 1 = 4096 then 0 else s.blk.gens + 1 } }) := by
  simp only [rngRead, rngData, if_pos h]
  rfl

theorem rngRead_empty {s : State} (h : rngReady s.blk = false) : rngRead s = (0, { s with blk := rset1 s.blk 0x10504 2 }) := by
  have hlane : laneOfWord 0x10508 0 = 0 := laneOfWord_zero _
  simp only [rngRead, rngData, h, Bool.false_eq_true, if_false, hlane]

/-- A read of GH_RNG_DATA answers what the DRBG gives. -/
theorem exec_rngDataRead {s : State} (h : PortTakes s 0x10508) : exec (.rngDataRead true) s =
    .next (after (rngRead s).2 (answer (rngRead s).2.blk ⟨true, (rngRead s).1, stDone, none⟩)) := portRead_settled h rngRead

/-- A write of GH_ATT_CTRL: its W1C bits, and START by what runs and by the DRBG (R407). -/
theorem attWrite_eq (v : Word) (b : Block) : attWrite v b =
    let w := plainWrite b 0x10600 0xFFFFFFFF v
    if v.getLsbD 0 = false then w
    else if w.att.isSome = true then rset1 w 0x10600 3
    else if rngReady w = false then rputF w 0x10600 5 4 3
    else
      let send (b : Block) (i : Nat) : Block :=
        (issue b (mkWrite 0 40 3 (.att i) ((rget64 w 0x10608).toNat % 2 ^ 48 / 512 * 512 + 256 * i)
          (toBeats (((attReport w).1.drop (256 * i)).take 256)) (List.replicate 4 (maskFirst 64)) true)).2
      send (send (rset1 { (attReport w).2 with att := some ⟨2, false⟩ } 0x10600 1) 0) 1 := by
  simp only [attWrite, Bool.not_eq_true', each, List.foldl_cons, List.foldl_nil]

theorem exec_attStart {s : State} {h : Block → Block} (hp : PortTakes s 0x10600) (heq : attWrite v s.blk = h s.blk) :
    exec (.attStart v true) s = .next (afterWrite s h) := regWrite4_of_eq hp (by decide) heq

end Gatehouse

/-- Settles O50: each write and read of Gatehouse's registers by its cases. -/
theorem gatehouseCommands : Obligations.GatehouseCommands := by
  intro s v
  refine ⟨fun hp => regWrite4_settled hp (by decide) _, ?keys, fun hp => regWrite4_settled hp (by decide) _,
    fun hp => regWrite4_settled hp (by decide) _, fun hp c hc => exec_rngCtrl hc hp, fun hi => act_of_eq (rngHealthFail_running hi),
    fun hi hd hf => act_of_eq (drbgInstantiated_starts hi hd hf), fun h => act_of_eq (drbgInstantiated_stays h), ?ready, ?empty, ?report⟩
  case keys =>
    exact fun hp c hc => ⟨fun h1 => exec_keyCtrl hc hp (keyCtrlWrite_arms h1),
      fun h1 harm => exec_keyCtrl hc hp ((keyCtrlWrite_zeroise h1).trans (if_pos harm)),
      fun h1 harm => exec_keyCtrl hc hp ((keyCtrlWrite_zeroise h1).trans (if_neg (by rw [harm]; decide)))⟩
  case ready =>
    intro hp hr
    rw [exec_rngDataRead hp, rngRead_ready hr]
    rfl
  case empty =>
    intro hp hr
    rw [exec_rngDataRead hp, rngRead_empty hr]
    rfl
  case report =>
    intro hp w
    have hwrite : attWrite v s.blk = _ := attWrite_eq v s.blk
    have hstart (h0 : v.getLsbD 0 = true) : ¬ v.getLsbD 0 = false := by rw [h0]; decide
    have hnone (ha : (w s.blk).att = none) : ¬ (w s.blk).att.isSome = true := by rw [ha]; decide
    have hready (hr : rngReady (w s.blk) = true) : ¬ rngReady (w s.blk) = false := by rw [hr]; decide
    refine ⟨fun h0 => exec_attStart hp (hwrite.trans (if_pos h0)),
      fun h0 ha => exec_attStart hp (hwrite.trans ((if_neg (hstart h0)).trans (if_pos ha))),
      fun h0 ha hr => exec_attStart hp (hwrite.trans ((if_neg (hstart h0)).trans ((if_neg (hnone ha)).trans (if_pos hr)))),
      fun h0 ha hr => exec_attStart hp (hwrite.trans ((if_neg (hstart h0)).trans ((if_neg (hnone ha)).trans (if_neg (hready hr)))))⟩

/-! Shutdown by heat, and a lost clock (R374, R375, R438). -/

section Thermal

variable {b : Block} {k j : Nat}

theorem thermalTrip_shutsDown (hi : b.inReset = false) (h3 : powerState b ≠ 3) (hv : (b.sensors.getD k none).isSome = true) :
    thermalTrip k b =
      let b1 := rinc (rset1 (rset1 b 0x30008 4) 0x300C0 0) 0x300C0 15 8 1
      let b2 := each (laneNums b1) (fun b n => abandonSeq n b) b1
      noteCooling (emptyBuckets { b2 with toll := { b2.toll with u := 0, uNext := none } }) :=
  if_neg (by rw [hi, Option.isNone_eq_false_iff.mpr hv]; simp [h3])

theorem comparatorChange_noted (hi : b.inReset = false) (k : Nat) (high : Bool) :
    comparatorChange k high b = noteCooling { b with comp105 := b.comp105.set k high } := if_neg (by rw [hi]; decide)

theorem thermalRestart_restarts (ht : tripped b = true) (hcool : coolNow b = true) (hi : b.inReset = false) (hf : faulted b = false)
    (h3 : powerState b ≠ 3) : thermalRestart b =
      let b1 := holdAll (rset1 (rset1 (rclr1 (rclr1 b 0x300C0 0) 0x300C0 1) 0x30008 5) 0x38030 3)
      let b2 := discardLanes (laneNums b1) 3 7 0 b1
      let b3 := each (laneNums b2) (fun b n => resetLane false n b) b2
      let b4 := each (juncNums b3) (fun b j => each (List.range 8) (chanRestart j) b) b3
      loopStart (each (juncNums b4) (fun b j => pump j false b) b4) :=
  if_neg (by simp [ht, hcool, hi, hf, h3])

theorem refclkFail_ps3 (h3 : powerState b = 3) (j : Nat) : refclkFail j b = b := if_pos (by simp [h3])

theorem refclkFail_halts (hi : b.inReset = false) (hj : j < b.build.juncs) (hf : faulted b = false) (h3 : powerState b ≠ 3) :
    refclkFail j b = each ((List.range 8).map (fun k => 8 * j + k)) (fun b n => haltLane n 3 b) (rset1 b 0x120 (6 + j)) :=
  if_neg (by simp [hi, hf, h3, hj])

end Thermal

/-- Settles O36: a trip, a comparator, the restart, and a failed clock in PS3 and out of it. -/
theorem tripsAndRestarts : Obligations.TripsAndRestarts :=
  fun _ k j high => ⟨fun hi h3 hv => act_of_eq (thermalTrip_shutsDown hi h3 hv), fun hi => act_of_eq (comparatorChange_noted hi k high),
    fun ht hcool hi hf h3 => act_of_eq (thermalRestart_restarts ht hcool hi hf h3), fun h3 => act_of_eq (refclkFail_ps3 h3 j),
    fun hi hj hf h3 => act_of_eq (refclkFail_halts hi hj hf h3)⟩

/-! The power states (R426, R446 to R449). -/

section Power

variable {b : Block} {v : Word}

theorem pmCtrlWrite_nonSecure (v : Word) (b : Block) : pmCtrlWrite v false b = b := rfl
theorem pmWakeWrite_nonSecure (v : Word) (b : Block) : pmWakeWrite v false b = b := rfl
theorem atriskCtrlWrite_nonSecure (v : Word) (b : Block) : atriskCtrlWrite v false b = b := rfl
theorem atriskHoldWrite_nonSecure (hi : Bool) (v : Word) (b : Block) : atriskHoldWrite hi v false b = b := rfl

theorem exec_pmCtrl_nonSecure {s : State} {c : Instr} (hp : PortTakes s 0x38000)
    (hc : c ∈ [Instr.pmReqPs2 v false, .pmReqPs3 v false, .pmReqCancel v false]) : exec c s = .next (afterIgnored s 0x38000) := by
  have hignored := regWrite4_ignored hp (by decide) (pmCtrlWrite_nonSecure v)
  simp only [List.mem_cons, List.not_mem_nil, or_false] at hc
  rcases hc with rfl | rfl | rfl
  · exact hignored
  · exact hignored
  · exact hignored

theorem ps2Entry_enters (hr : requested b 2 = true) (hq : blockQuiet b = true) : ps2Entry b =
    let b1 := each (laneNums b) (fun b n => each (validDies b n) (fun b d => updDie b n d (fun x => { x with ps2Band := dieBand b n d })) b) b
    rset1 (rclr1 (rputF { b1 with ticking := false } 0x38004 1 0 2) 0x38004 2) 0x38010 0 := if_neg (by simp [hr, hq])

theorem ps2Exit_exits (h2 : powerState b = 2) (hw : rbit b 0x38008 0 = true) : ps2Exit b =
    let b1 := rputF (rclr1 { b with ticking := true } 0x38008 0) 0x38004 1 0 0
    let b2 := each ((laneNums b1).filter (laneStarted b1)) (fun b n => each (validDies b n) (wakeDie n) b) b1
    let b3 := each (juncNums b2) (fun b j => each (List.range 8) (wakeChan j) b) b2
    rset1 (loopStart b3) 0x38010 1 := if_neg (by simp [h2, hw])

theorem ps3Entry_enters (hr : requested b 3 = true) (hq : blockQuiet b = true) (he : blockEmpty b = true) :
    ps3Entry b = rclr1 (rputF (ps3Block b) 0x38004 1 0 3) 0x38004 2 := if_neg (by simp [hr, hq, he])

end Power

/-! The at-risk list (R432, R433). -/

section AtRisk

variable (b : Block) (n : Nat)

theorem laneHeld_releaseLane : laneHeld (releaseLane b n) n = false := rbit_rclr1_same _ _ _

theorem die_releaseLane (d : Nat) : die (releaseLane b n) n d = die b n d := rfl
theorem lane_releaseLane : lane (releaseLane b n) n = lane b n := rfl
theorem wlPages_releaseLane (f : Nat) : wlPages (releaseLane b n) f = wlPages b f := rfl
theorem rget_releaseLane {a : Nat} (h : a ≠ 0x38044 + 4 * (n / 32)) : rget (releaseLane b n) a = rget b a := rget_rput_other _ _ _ _ h

/-- The hold registers lie apart from the die maps. -/
theorem dieMap_releaseLane (d : Nat) : dieMap (releaseLane b n) n d = dieMap b n d := by
  have hapart : laneReg n (0x400 + 4 * d) ≠ 0x38044 + 4 * (n / 32) := by unfold laneReg; omega
  rw [dieMap, rget_releaseLane b n hapart, dieMap]
  rfl

theorem riskProg_releaseLane : riskProg (releaseLane b n) n = riskProg b n := by
  funext d
  simp only [riskProg, die_releaseLane, lane_releaseLane, dieFamily, dieMap_releaseLane, wlPages_releaseLane]

/-- A released lane's bits follow its dies again. -/
theorem progBits_releaseLane : progBits (releaseLane b n) n = dieMask (riskProg b n) := by
  rw [progBits, laneHeld_releaseLane, riskProg_releaseLane, if_neg Bool.false_ne_true]

theorem riskErase_releaseLane : riskErase (releaseLane b n) n = riskErase b n := by
  funext d
  simp only [riskErase, die_releaseLane]

theorem eraseBits_releaseLane : eraseBits (releaseLane b n) n = dieMask (riskErase b n) := by
  rw [eraseBits, laneHeld_releaseLane, riskErase_releaseLane, if_neg Bool.false_ne_true]

end AtRisk

section Holds

variable {b : Block} {n : Nat}

theorem holdLane_held (h : laneHeld b n = true) : holdLane b n = b := if_pos h

theorem holdLane_free (h : laneHeld b n = false) : holdLane b n =
    rset1 { b with atRisk := tset 0 (tset 0 b.atRisk (2 * n) (progBits b n)) (2 * n + 1) (eraseBits b n) } (0x38044 + 4 * (n / 32)) (n % 32) :=
  if_neg (by rw [h]; decide)

theorem laneHeld_holdLane (h : laneHeld b n = false) : laneHeld (holdLane b n) n = true := by
  rw [holdLane_free h]
  exact rbit_rset1_same _ _ (Nat.mod_lt _ (by decide))

variable (b n)

/-- A lane's bits keep their values as it is held. -/
theorem progBits_holdLane : progBits (holdLane b n) n = progBits b n := by
  cases h : laneHeld b n with
  | true => rw [holdLane_held h]
  | false =>
    rw [progBits, if_pos (laneHeld_holdLane h), holdLane_free h]
    exact (tget_tset_other 0 0 _ _ _ _ (by omega)).trans (tget_tset_same _ _ _ _)

theorem eraseBits_holdLane : eraseBits (holdLane b n) n = eraseBits b n := by
  cases h : laneHeld b n with
  | true => rw [holdLane_held h]
  | false =>
    rw [eraseBits, if_pos (laneHeld_holdLane h), holdLane_free h]
    exact tget_tset_same _ _ _ _

end Holds

/-- Settles O37: the requests at the port, the entries and exits, and the releases and holds of the at-risk list. -/
theorem powerStates : Obligations.PowerStates := by
  refine ⟨fun s v => ⟨?request, fun hr hq => act_of_eq (ps2Entry_enters hr hq), fun h2 hw => act_of_eq (ps2Exit_exits h2 hw),
      fun hr hq he => act_of_eq (ps3Entry_enters hr hq he), ?wake⟩, ?release, ?holds,
    fun b n _ => ⟨progBits_releaseLane b n, eraseBits_releaseLane b n⟩, fun b n _ => ⟨progBits_holdLane b n, eraseBits_holdLane b n⟩⟩
  case request =>
    exact fun hp => ⟨regWrite4_settled hp (by decide) _, regWrite4_settled hp (by decide) _, regWrite4_settled hp (by decide) _,
      fun c hc => exec_pmCtrl_nonSecure hp hc⟩
  case wake =>
    exact fun hp => ⟨regWrite4_settled hp (by decide) _, regWrite4_ignored hp (by decide) (pmWakeWrite_nonSecure v)⟩
  case release =>
    exact fun s v hp hv => ⟨regWrite4_of_eq hp (by decide) (if_pos (by rw [hv]; rfl)),
      regWrite4_ignored hp (by decide) (atriskCtrlWrite_nonSecure v)⟩
  case holds =>
    intro s hi v hp
    have haligned : (if hi then 0x38048 else 0x38044) % 4 = 0 := by cases hi <;> rfl
    exact ⟨regWrite4_settled hp haligned _, regWrite4_ignored hp haligned (atriskHoldWrite_nonSecure hi v)⟩

end Sys2Proof.Laws

/-! CFLASH (R409 to R422): the write sequence and its break, the start and the end of a command, and the array window. -/

namespace Sys2Proof.Laws

open Sys2Proof Sys2Proof.Machine

/-! The registers of the sequence at the slave port (R409, R415). -/

section SequencePort

variable {s : State} {a off : Nat} {m : BitVec 8}

/-- A secure write whose effect on the machine is one on the block. -/
theorem portWrite_effect (h : PortTakes s a) (hm : maskFits a m = true) {f : State → State} {g : Block → Block}
    (hf : f s = { s with blk := g s.blk }) : (portWrite s a m true f).settled = .next (afterWrite s g) := by
  rw [portWrite_of_takes h hm, hf]
  rfl

/-- The lower word of a flit, as CF_KEY and CF_ADDR take it. -/
theorem setWidth_lowWord (v : Word64) : (v.setWidth 32).setWidth 64 = (v.extractLsb' 0 32).setWidth 64 := by
  rw [(BitVec.setWidth_eq_extractLsb' (by decide) : v.setWidth 32 = _)]

/-- The upper word of a flit, as CF_CMD takes it. -/
theorem shiftRight_highWord (v : Word64) : v >>> 32 = (v.extractLsb' 32 32).setWidth 64 := by
  refine BitVec.eq_of_getLsbD_eq fun i hi => ?_
  simp only [BitVec.getLsbD_ushiftRight, BitVec.getLsbD_setWidth, BitVec.getLsbD_extractLsb', hi, decide_true, Bool.true_and]
  by_cases h32 : i < 32
  · simp [h32]
  · simp [h32, BitVec.getLsbD_of_ge v (32 + i) (by omega)]

theorem setWidth_wordOf (off : Nat) (v : Word64) (hoff : off % 8 = 0 ∨ off % 8 = 4) :
    (if off % 8 = 4 then v >>> 32 else (v.setWidth 32).setWidth 64) = (wordOf off v).setWidth 64 := by
  rcases hoff with h | h
  · rw [if_neg (by omega), setWidth_lowWord, wordOf, if_pos h]
  · rw [if_pos h, shiftRight_highWord, wordOf, if_neg (by omega)]

/-- Only the five words of the sequence are taken, and CF_DATA by itself (R27). -/
theorem cfAccess_offsets (hoff : off ∈ [0, 4, 8]) :
    (!([0, 4, 8, 0x10, 0x14] : List Nat).contains off) = false ∧ ¬ (off = 0x10 ∨ off = 0x14) ∧ (off % 8 = 0 ∨ off % 8 = 4) := by
  simp only [List.mem_cons, List.not_mem_nil, or_false] at hoff
  rcases hoff with rfl | rfl | rfl <;> decide

theorem cfAccess_word (v : Word64) (hm : m ≠ 0xFF) (hoff : off ∈ [0, 4, 8]) :
    cfAccess off m v true s = { s with blk := cfWrite s.nv off false ((wordOf off v).setWidth 64) true s.blk } := by
  obtain ⟨hlisted, hdata, hword⟩ := cfAccess_offsets hoff
  simp only [cfAccess, hlisted, Bool.false_eq_true, if_false, if_neg hdata, if_neg hm, setWidth_wordOf off v hword]

/-- An 8 B write at CF_KEY is one of CF_KEY and then one of CF_CMD. -/
theorem cfAccess_keyAndCode (v : Word64) : cfAccess 0 0xFF v true s =
    { s with
      blk := cfWrite s.nv 4 false ((v.extractLsb' 32 32).setWidth 64) true
        (cfWrite s.nv 0 false ((v.extractLsb' 0 32).setWidth 64) true s.blk) } := by
  rw [← setWidth_lowWord, ← shiftRight_highWord]
  rfl

theorem cfAccess_addr (v : Word64) : cfAccess 8 0xFF v true s =
    { s with blk := cfWrite s.nv 8 false ((v.extractLsb' 0 32).setWidth 64) true s.blk } := by
  rw [← setWidth_lowWord]
  rfl

theorem cfAccess_data (v : Word64) (hoff : off = 0x10 ∨ off = 0x14) :
    cfAccess off m v true s = { s with blk := cfWrite s.nv 0x10 (decide (m = 0xFF)) v true s.blk } := by
  rcases hoff with rfl | rfl <;> simp [cfAccess, beq_eq_decide]

theorem cfAccess_addrWord (w : Word) : cfAccess 8 0x0F (w.setWidth 64) true s =
    { s with blk := cfWrite s.nv 8 false (w.setWidth 64) true s.blk } := by
  rw [cfAccess_word _ (by decide) (by decide)]
  have hword : wordOf 8 (w.setWidth 64) = w := by
    refine BitVec.eq_of_getLsbD_eq fun i hi => ?_
    simp only [wordOf, Nat.mod_self, if_true, BitVec.getLsbD_extractLsb', BitVec.getLsbD_setWidth, hi, decide_true, Bool.true_and,
      Nat.zero_add, show i < 64 by omega]
  rw [hword]

/-- The commands with data are the same write of CF_DATA (R415). -/
theorem exec_cfData {c : Instr} {v : Word64} (hp : PortTakes s 0x20010)
    (hc : c ∈ [Instr.wordProg v true, .rowProg v true, .protProg v true, .protLock v true, .protUnlock v true]) :
    exec c s = .next (afterWrite s (cfWrite s.nv 0x10 true v true)) := by
  have hwrite : (cfDataWrite v true s).settled = .next (afterWrite s (cfWrite s.nv 0x10 true v true)) :=
    portWrite_effect hp (by decide) (cfAccess_data v (.inl rfl))
  simp only [List.mem_cons, List.not_mem_nil, or_false] at hc
  rcases hc with rfl | rfl | rfl | rfl | rfl
  · exact hwrite
  · exact hwrite
  · exact hwrite
  · exact hwrite
  · exact hwrite

/-- The commands without data are the same write of CF_ADDR (R415). -/
theorem exec_cfAddr {c : Instr} {w : Word} (hp : PortTakes s 0x20008) (hc : c ∈ [Instr.sectorErase w true, .protErase w true]) :
    exec c s = .next (afterWrite s (cfWrite s.nv 8 false (w.setWidth 64) true)) := by
  have hwrite : (cfAddrWrite w true s).settled = .next (afterWrite s (cfWrite s.nv 8 false (w.setWidth 64) true)) :=
    portWrite_effect hp (by decide) (cfAccess_addrWord w)
  simp only [List.mem_cons, List.not_mem_nil, or_false] at hc
  rcases hc with rfl | rfl
  · exact hwrite
  · exact hwrite

end SequencePort

/-! The steps of the sequence (R415 to R417, R422). -/

section Sequence

variable {b c : Block} {nv : NonVol} {off : Nat} {wide : Bool} {v : Word64}

theorem cfTimeout_breaks (hi : b.inReset = false) (hs : b.cf.step ≠ 0) : cfTimeout b = cfBreak b := if_neg (by simp [hi, hs])

theorem cfTimeout_idle (hs : b.cf.step = 0) : cfTimeout b = b := if_pos (by simp [hs])

/-- The block with CF_ADDR as a write at `off` leaves it (log entry 57, DEDUCED). -/
def addrKept (off : Nat) (v : Word64) (b : Block) : Block :=
  if off = 8 then rput b 0x20008 (BitVec.ofNat 32 (v.toNat % 2 ^ 22)) else b

theorem addrKept_cf (off : Nat) (v : Word64) (b : Block) : (addrKept off v b).cf = b.cf := by
  unfold addrKept
  split
  · rfl
  · rfl

theorem cfWrite_secure (nv : NonVol) (off : Nat) (wide : Bool) (v : Word64) (b : Block) : cfWrite nv off wide v true b =
    if b.cf.busy then cfBreak (addrKept off v b) else cfStep nv off wide v (addrKept off v b) := by
  have hcf : (addrKept off v b).cf.busy = b.cf.busy := by rw [addrKept_cf]
  rw [← hcf]
  rfl

theorem cfWrite_nonSecure (nv : NonVol) (off : Nat) (wide : Bool) (v : Word64) (b : Block) : cfWrite nv off wide v false b = b := rfl

theorem cfWrite_idle (h : b.cf.busy = false) : cfWrite nv off wide v true b = cfStep nv off wide v (addrKept off v b) := by
  rw [cfWrite_secure, h, if_neg Bool.false_ne_true]

theorem cfStep_firstKey (hk : c.cf.step = 0) (hw : v.toNat % 2 ^ 32 = 0x5AA5) :
    cfStep nv 0 wide v c = { c with cf := { c.cf with step := 1 } } := if_pos ⟨hk, rfl, hw⟩

theorem cfStep_secondKey (hk : c.cf.step = 1) (hw : v.toNat % 2 ^ 32 = 0xA55A) :
    cfStep nv 0 wide v c = { c with cf := { c.cf with step := 2 } } :=
  (if_neg (by omega)).trans (if_pos ⟨hk, rfl, hw⟩)

theorem cfStep_code (hk : c.cf.step = 2) (hl : 1 ≤ v.toNat % 2 ^ 32 % 16) (hh : v.toNat % 2 ^ 32 % 16 ≤ 7) :
    cfStep nv 4 wide v c = { c with cf := { c.cf with step := 3, cmd := v.toNat % 2 ^ 32 % 16 } } :=
  (if_neg (by omega)).trans ((if_neg (by omega)).trans (if_pos ⟨hk, rfl, hl, hh⟩))

/-- The address starts a command without data, and waits for the data of any other (R415). -/
theorem cfStep_address (hk : c.cf.step = 3) : cfStep nv 8 wide v c =
    if c.cf.cmd = 2 ∨ c.cf.cmd = 5 then cfStart nv (v.toNat % 2 ^ 32 % 2 ^ 22) 0 c else { c with cf := { c.cf with step := 4 } } :=
  (if_neg (by omega)).trans ((if_neg (by omega)).trans ((if_neg (by omega)).trans (if_pos ⟨hk, rfl⟩)))

theorem cfStep_data (hk : c.cf.step = 4) : cfStep nv 0x10 true v c = cfStart nv (rfld c 0x20008 21 0) v c :=
  (if_neg (by omega)).trans ((if_neg (by omega)).trans ((if_neg (by omega)).trans ((if_neg (by omega)).trans (if_pos ⟨hk, rfl, rfl⟩))))

/-- A write that is none of the steps breaks the sequence (R415; log entry 34, DEDUCED). -/
theorem cfStep_breaks (h1 : ¬ (c.cf.step = 0 ∧ off = 0 ∧ v.toNat % 2 ^ 32 = 0x5AA5))
    (h2 : ¬ (c.cf.step = 1 ∧ off = 0 ∧ v.toNat % 2 ^ 32 = 0xA55A))
    (h3 : ¬ (c.cf.step = 2 ∧ off = 4 ∧ 1 ≤ v.toNat % 2 ^ 32 % 16 ∧ v.toNat % 2 ^ 32 % 16 ≤ 7)) (h4 : ¬ (c.cf.step = 3 ∧ off = 8))
    (h5 : ¬ (c.cf.step = 4 ∧ off = 0x10 ∧ wide = true)) : cfStep nv off wide v c = cfBreak c := by
  simp only [cfStep, if_neg h1, if_neg h2, if_neg h3, if_neg h4, if_neg h5]

end Sequence

/-- Settles O51: each access at the port by the registers it writes, and each write by the step that it is or is not. -/
theorem cflashSequences : Obligations.CflashSequences := by
  refine ⟨fun s v a off m c => ⟨fun hp hm h8 hoff => portWrite_effect hp hm (cfAccess_word v h8 hoff),
      fun hp => portWrite_effect hp (by decide) (cfAccess_keyAndCode v), fun hp => portWrite_effect hp (by decide) (cfAccess_addr v),
      fun hp hm hoff => portWrite_effect hp hm (cfAccess_data v hoff), fun hi hs => act_of_eq (cfTimeout_breaks hi hs),
      fun hs => act_of_eq (cfTimeout_idle hs), exec_cfData, exec_cfAddr⟩,
    fun b nv off wide v => ⟨?breaks, ?firstKey, ?secondKey, ?code, ?address, ?data, cfWrite_nonSecure nv off wide v b⟩⟩
  case breaks =>
    rintro (hbusy | hbad)
    · rw [cfWrite_secure, hbusy, if_pos rfl]
      rfl
    · cases hbusy : b.cf.busy with
      | true => rw [cfWrite_secure, hbusy, if_pos rfl]; rfl
      | false =>
        simp only [not_or] at hbad
        obtain ⟨h1, h2, h3, h4, h5⟩ := hbad
        rw [← addrKept_cf off v b] at h1 h2 h3 h4 h5
        exact (cfWrite_idle hbusy).trans (cfStep_breaks h1 h2 h3 h4 h5)
  case firstKey =>
    rintro hbusy hk rfl hw
    exact (cfWrite_idle hbusy).trans (cfStep_firstKey hk hw)
  case secondKey =>
    rintro hbusy hk rfl hw
    exact (cfWrite_idle hbusy).trans (cfStep_secondKey hk hw)
  case code =>
    rintro hbusy hk rfl hl hh
    exact (cfWrite_idle hbusy).trans (cfStep_code hk hl hh)
  case address =>
    rintro hbusy hk rfl
    have hstep := (cfWrite_idle (nv := nv) (wide := wide) (v := v) hbusy).trans (cfStep_address hk)
    exact ⟨fun htwo => hstep.trans (if_neg htwo), fun htwo => hstep.trans (if_pos htwo)⟩
  case data =>
    rintro hbusy hk rfl rfl
    exact (cfWrite_idle hbusy).trans (cfStep_data hk)

/-! The start of a command (R417, R422). -/

section Start

variable (nv : NonVol) (b : Block) (c a : Nat) (v : Word64)

/-- The block as a command starts: the sequence is back at its first step, and a WORD_PROG of all ones has drawn the free value that refuses
it or not (log entry 33, DESIGN CHOICE). -/
def cfArmed (a : Nat) (v : Word64) (b : Block) : Block :=
  { b with
    cf := { b.cf with step := 0, addr := a, data := v }, free := if b.cf.cmd = 1 ∧ v = erasedWord then b.free + 1 else b.free }

/-- The cause that refuses a command at its start, 0 for none. -/
def cfCause (nv : NonVol) (a : Nat) (v : Word64) (b : Block) : Nat :=
  if b.cf.cmd = 1 ∧ v = erasedWord ∧ Config.freeVal 1 b.free = 1 then 2 else cfRefusal nv (cfArmed a v b) b.cf.cmd a v

theorem cfStart_eq : cfStart nv a v b =
    if cfCause nv a v b ≠ 0 then
      cfFail (if cfCause nv a v b = 9 then countTry (cfArmed a v b) else cfArmed a v b) (cfCause nv a v b) a
    else if b.cf.cmd = 7 then rset1 { cfArmed a v b with cf := { (cfArmed a v b).cf with busy := true } } 0x20050 1
    else { cfArmed a v b with cf := { (cfArmed a v b).cf with busy := true } } := by
  by_cases hones : b.cf.cmd = 1 ∧ v = erasedWord
  · simp only [cfStart, cfCause, cfArmed, hones, and_self, if_true, true_and]
    rfl
  · have hnever : ¬ (b.cf.cmd = 1 ∧ v = erasedWord ∧ Config.freeVal 1 b.free = 1) := fun h => hones ⟨h.1, h.2.1⟩
    simp only [cfStart, cfCause, cfArmed, if_neg hones, if_neg hnever]
    rfl

theorem ite_ne_of_ne {p : Prop} [Decidable p] {x y z : Nat} (hx : x ≠ z) (hy : y ≠ z) : (if p then x else y) ≠ z := by
  split
  · exact hx
  · exact hy

theorem cfRefusal_ne_mismatch (hc : c ≠ 7) : cfRefusal nv b c a v ≠ 9 := by
  have hnot : ¬ (decide (c = 7) && decide (protWord nv 16 ≠ v)) = true := by simp [hc]
  unfold cfRefusal
  rw [if_neg hnot]
  iterate 8 refine ite_ne_of_ne (by decide) ?_
  decide

/-- The first cause of a list that holds, 0 for none. -/
def firstCause (l : List (Bool × Nat)) : Nat := ((l.find? (fun x => x.1)).map (fun x => x.2)).getD 0

theorem firstCause_cons (p : Bool) (k : Nat) (l : List (Bool × Nat)) : firstCause ((p, k) :: l) = if p then k else firstCause l := by
  cases p <;> rfl

theorem cfBadOperand_eq : cfBadOperand c a v =
    if c = 1 then decide (a % 8 ≠ 0) else if c = 2 then decide (a % 4096 ≠ 0)
    else if c = 3 then decide (a % 8 ≠ 0 ∨ 0x800 ≤ a ∨ v = erasedWord) else if c = 4 then decide (a % 8 ≠ 0 ∨ 128 ≤ a)
    else if c = 6 then decide (a ≠ 0 ∨ v = erasedWord ∨ v = 0) else decide (a ≠ 0) := by
  simp only [cfBadOperand, Bool.decide_or, Bool.or_assoc]

theorem cfNotErased_eq : cfNotErased nv c a =
    if c = 1 then decide (arrWord nv (a / 8) ≠ erasedWord) else if c = 3 then decide (tget 0 nv.row (a / 8) ≠ 0)
    else if c = 4 then decide (protWord nv (a / 8) ≠ erasedWord)
    else decide (c = 6 ∧ (protWord nv 16 ≠ erasedWord ∨ protWord nv 17 ≠ erasedWord)) := by
  by_cases h6 : c = 6
  · simp [cfNotErased, h6]
  · simp [cfNotErased, rowProgrammed, h6]

/-- The causes in the order of R417. -/
theorem cfRefusal_eq : cfRefusal nv b c a v = firstCause [(cfBadOperand c a v, 2), (rbit b 0x38024 2, 6),
    (decide (4 ≤ c ∧ c ≤ 6) && protLocked nv && !rbit b 0x20050 1, 11),
    (decide (c = 1 ∨ c = 2) && sectorProtected nv b (a / 4096), 3), (decide (c = 3) && !rowPermitted nv b a v, 8),
    (decide (c = 1) && !sealed nv (a / 4096), 5), (cfNotErased nv c a, 4), (decide (c = 7) && rbit b 0x20050 6, 10),
    (decide (c = 7 ∧ protWord nv 16 ≠ v), 9)] := by
  simp only [cfRefusal, protCommand, protHolds, protOpen, protBarred, firstCause_cons, Bool.decide_or, Bool.decide_and, Bool.and_assoc]
  rfl

end Start

/-! The end of a command (R416 to R418). -/

section CommandEnd

variable {s : State}

theorem programsNothing_iff (c : Cf) : c.programsNothing = true ↔ c.cmd = 1 ∧ c.data = erasedWord := by
  simp [Cf.programsNothing]

theorem exec_cfCommandEnd (ok : Bool) (s : State) :
    exec (.cfCommandEnd ok) s = .next (after (cfCommandEnd ok s) (cfCommandEnd ok s).blk) := rfl

theorem cfCommandEnd_done {ok : Bool} (hb : s.blk.cf.busy = true) (hi : s.blk.inReset = false)
    (h : ok = true ∨ s.blk.cf.cmd = 7 ∨ (s.blk.cf.cmd = 1 ∧ s.blk.cf.data = erasedWord)) :
    cfCommandEnd ok s = { s with
      nv := cfDone s.nv s.blk.cf.cmd s.blk.cf.addr s.blk.cf.data
      blk := serveWaiting (cfDone s.nv s.blk.cf.cmd s.blk.cf.addr s.blk.cf.data)
        (rset1 { s.blk with cf := { s.blk.cf with busy := false } } 0x20020 0) } := by
  rw [← programsNothing_iff] at h
  rw [cfCommandEnd, if_neg (by simp [hb, hi]), if_pos h]

/-- The block as the running command ends. -/
def cfEnded (b : Block) : Block := { b with cf := { b.cf with busy := false } }

theorem cfCommandEnd_failed (hb : s.blk.cf.busy = true) (hi : s.blk.inReset = false) (h7 : s.blk.cf.cmd ≠ 7)
    (h1 : ¬ (s.blk.cf.cmd = 1 ∧ s.blk.cf.data = erasedWord)) {nv : NonVol} {b' : Block}
    (hx : cfBroken s.nv s.blk.cf.cmd s.blk.cf.addr (cfEnded s.blk) = (nv, b')) :
    cfCommandEnd false s = { s with nv := nv, blk := serveWaiting nv (cfFail b' 7 s.blk.cf.addr) } := by
  rw [← programsNothing_iff] at h1
  rw [cfCommandEnd, if_neg (by simp [hb, hi]), if_neg (by simp [h7, h1])]
  unfold cfEnded at hx
  simp only [hx]

theorem protClose_nonSecure (v : Word) (b : Block) : protClose v false b = b := rfl

end CommandEnd

/-! The array window (R412 to R414). -/

section ArrayWindow

variable {s : State} {b : Block} {nv : NonVol} {x : WindowRead}

theorem windowWord_array (h : rbit b 0x20028 8 = false) (off : Nat) :
    windowWord nv b off = arrWord nv (rfld b 0x20028 6 0 * 4096 + off / 8) := by
  rw [windowWord, h, if_neg Bool.false_ne_true]

/-- Nothing is counted for an erased word (R410). -/
theorem windowFound_erased (h : rbit b 0x20028 8 = false) (he : windowWord nv b x.off = erasedWord) :
    windowFound nv b x = { x with corr := 0, unc := false } := by
  simp [windowFound, h, he]

theorem wordOf_erased (off : Nat) : wordOf off erasedWord = 0xFFFFFFFF := by
  unfold wordOf
  split
  · decide
  · decide

theorem windowRead_erased (h : rbit b 0x20028 8 = false) (he : windowWord nv b x.off = erasedWord) :
    windowRead nv x b = (if x.size8 then erasedWord else laneOfWord x.off 0xFFFFFFFF,
      noteRead b (rfld b 0x20028 6 0 * 8 + x.off / 4096) 0 false) := by
  simp only [windowRead, windowFound_erased h he, h, he, Bool.false_and, Bool.false_eq_true, if_false, wordOf_erased]

theorem windowAccess_made (h : arrayBusy s.blk = false) : windowAccess x s =
    (⟨true, (windowRead s.nv x s.blk).1, stDone, none⟩, { s with blk := (windowRead s.nv x s.blk).2 }) := by
  simp only [windowAccess, h, Bool.false_eq_true, if_false]

theorem windowAccess_waits (h : arrayBusy s.blk = true) : windowAccess x s = (⟨true, 0, stDone, some x⟩, s) := if_pos h

/-- A secure read whose size fits: what it answers, with its effect. -/
theorem portReadA_sized {a : Nat} {size8 : Bool} (h : PortTakes s a) (hz : size8 = false ∨ a % 8 = 0) (f : State → Answer × State) :
    portReadA s a size8 true f = { (f s).2 with blk := answer (f s).2.blk (f s).1 } := by
  rcases hz with rfl | hz
  · exact portReadA_of_takes h f
  · simp [portReadA, h.1, admitted_of_takes h, hz]

theorem exec_cfWindowRead {off corr : Nat} {size8 unc : Bool} (h : PortTakes s (0x28000 + off)) (hz : size8 = false ∨ off % 8 = 0) :
    exec (.cfWindowRead off size8 true corr unc) s = .next (after (windowAccess ⟨off, size8, corr, unc⟩ s).2
      (answer (windowAccess ⟨off, size8, corr, unc⟩ s).2.blk (windowAccess ⟨off, size8, corr, unc⟩ s).1)) :=
  congrArg State.settled (portReadA_sized h (hz.imp_right fun h8 => by omega) (windowAccess ⟨off, size8, corr, unc⟩))

end ArrayWindow

/-- Settles O52: the start of a command by its cause, the causes in their order, the end by its check, and a window read by what runs. -/
theorem cflashCommands : Obligations.CflashCommands := by
  refine ⟨fun b nv a v => ⟨?starts, ?unlocks, ?refused, ?mismatch, ?ones⟩, fun b nv c a v => ?order,
    fun s v off corr ok unc size8 => ⟨?done, ?failed, ?idle, ?close, ?erased, ?made, ?waits⟩⟩
  case starts =>
    exact fun hk h7 => (cfStart_eq nv b a v).trans ((if_neg (not_not.mpr hk)).trans (if_neg h7))
  case unlocks =>
    exact fun hk h7 => (cfStart_eq nv b a v).trans ((if_neg (not_not.mpr hk)).trans (if_pos h7))
  case refused =>
    intro hk h9
    have hfail : cfStart nv a v b = _ := (cfStart_eq nv b a v).trans (if_pos hk)
    exact hfail.trans (congrArg (fun d => cfFail d _ a) (if_neg h9))
  case mismatch =>
    intro h9
    have h9 : cfCause nv a v b = 9 := h9
    rw [cfStart_eq, if_pos (by rw [h9]; decide), if_pos h9, h9]
    rfl
  case ones =>
    rintro ⟨h1, -⟩ h9
    have h9 : cfCause nv a v b = 9 := h9
    unfold cfCause at h9
    split at h9
    · exact absurd h9 (by decide)
    · exact cfRefusal_ne_mismatch nv _ _ a v (by rw [h1]; decide) h9
  case order =>
    intro operand full
    rw [cfRefusal_eq, cfBadOperand_eq, cfNotErased_eq]
    rfl
  case done =>
    intro hb hi h
    rw [exec_cfCommandEnd, cfCommandEnd_done hb hi h]
    rfl
  case failed =>
    intro hb hi h7 h1
    rcases hx : cfBroken s.nv s.blk.cf.cmd s.blk.cf.addr (cfEnded s.blk) with ⟨nv, b'⟩
    refine ⟨nv, b', hx, ?_⟩
    rw [exec_cfCommandEnd, cfCommandEnd_failed hb hi h7 h1 hx]
    rfl
  case idle =>
    intro hb
    rw [exec_cfCommandEnd, cfCommandEnd, if_pos (by simp only [Bool.or_eq_true, Bool.not_eq_true']; exact .inl hb)]
  case close =>
    exact fun hp => ⟨regWrite4_settled hp (by decide) _, regWrite4_ignored hp (by decide) (protClose_nonSecure v)⟩
  case erased =>
    exact fun hrow he => windowRead_erased (x := ⟨off, size8, corr, unc⟩) hrow ((windowWord_array hrow off).trans he)
  case made =>
    intro hp hbusy hz
    rw [exec_cfWindowRead hp hz, windowAccess_made hbusy]
    rfl
  case waits =>
    intro hp hbusy hz
    rw [exec_cfWindowRead hp hz, windowAccess_waits hbusy]

end Sys2Proof.Laws

/-! The protection of the block's own memories (R451 to R461): the scrubbers' words and laps, the scope actions, and the test mode. -/

namespace Sys2Proof.Laws

open Sys2Proof Sys2Proof.Machine

/-! The scrubbers (R457 to R460). -/

section Scrubbers

variable {b : Block} {who : Option Nat} {f : Finding} {mem index synd k n : Nat} {lapEnd : Bool}

theorem scrubNext_iff (p : ScrubPos) : scrubNext p mem index = true ↔
    (mem = p.mem ∧ index = p.index) ∨ (mem = p.mem + 1 ∧ index = 0 ∧ p.index ≠ 0) := by
  simp [scrubNext]

/-- A scrubber reads the word it has come to, and goes on behind it (R457). -/
theorem scrubWord_reads (hi : b.inReset = false) (ht : b.ticking = true) (hn : who.getD 0 < b.build.lanes) (hlo : 1 ≤ mem)
    (hhi : mem ≤ 8) (hwho : who.isSome = laneMem mem) (hnext : scrubNext (scrubPos b (who.getD 64)) mem index = true) :
    scrubWord who f mem index synd lapEnd b =
      scrubFound (who.getD 0) f mem index synd (scrubOn (who.getD 64) mem index lapEnd b) := by
  refine if_neg ?_
  have hmem : ¬ 8 < mem ∧ mem ≠ 0 := by omega
  simp [hi, ht, hwho, hnext, hn, hmem]

theorem scrubWord_elsewhere (h : ¬ scrubNext (scrubPos b (who.getD 64)) mem index = true) :
    scrubWord who f mem index synd lapEnd b = b := by
  refine if_pos ?_
  simp only [Bool.eq_false_of_not_eq_true h, Bool.not_false, Bool.or_true]

theorem scrubWord_stopped (h : b.ticking = false) : scrubWord who f mem index synd lapEnd b = b := by
  refine if_pos ?_
  simp only [h, Bool.not_false, Bool.or_true, Bool.true_or]

/-- What a word brings, by what the scrubber finds in it (R457 to R459). -/
theorem scrubFound_good {z : Nat} (h : scrubFinding mem n index synd f b = (.good, z)) : scrubFound n f mem index synd b = b := by
  simp only [scrubFound, h]

theorem scrubFound_corrected {z : Nat} {written : Bool} (h : scrubFinding mem n index synd f b = (.correctable written, z)) :
    scrubFound n f mem index synd b = if written then noteCorrected (unplant mem n index b)
      else rinc (noteCorrected (unplant mem n index b)) 0x80C 23 16 1 := by
  simp only [scrubFound, h]

theorem scrubFound_uncorrectable {z : Nat} (h : scrubFinding mem n index synd f b = (.uncorrectable, z)) :
    scrubFound n f mem index synd b = uncorrectable mem n index z true (spoilWord mem n index b) := by
  simp only [scrubFound, h]

theorem scrubOn_planted (k mem index : Nat) (lapEnd : Bool) (b : Block) : (scrubOn k mem index lapEnd b).planted = b.planted := by
  unfold scrubOn
  dsimp only
  split
  · split
    · rfl
    · rfl
  · rfl

/-- Where the test mode has planted nothing, the scrubber finds what stands in the memory (R461). -/
theorem scrubFinding_unplanted (h3 : mem ≠ 3)
    (h : b.planted.find? (fun x => decide (x.mem = mem ∧ x.lane = n ∧ x.index = index)) = none) :
    scrubFinding mem n index synd f b = (f, synd) := by
  rw [scrubFinding, if_neg h3, h]

theorem scrubOn_within (h : lapEnd = false ∨ mem ≠ scrubLast k) : scrubOn k mem index lapEnd b =
    { b with scrub := tput b.scrub k { scrubPos b k with mem := mem, index := index + 1 } } := by
  refine if_neg ?_
  rcases h with h | h
  · simp [h]
  · simp [h]

/-- A lap's end: its length is kept, and LAP_LATE sets above LAP_WARN (R460). -/
theorem scrubOn_lapEnd (he : lapEnd = true) (hm : mem = scrubLast k) : scrubOn k mem index lapEnd b =
    let d := { b with
      lapLen := tset 0 b.lapLen k (min (now b - (scrubPos b k).start) 0xFFFFFFFF)
      scrub := tput b.scrub k ⟨scrubFirst k, 0, now b⟩ }
    if rfld b 0x808 31 16 < now b - (scrubPos b k).start then rset1 d 0x800 2 else d :=
  if_pos (by simp [he, hm])

end Scrubbers

/-! Uncorrectable words and the scope actions of their memories (R451 to R453, R455, R456). -/

section ScopeActions

variable {b : Block} {mem n i y : Nat} {scrub : Bool}

/-- The block with an uncorrectable error in live state recorded, and what the test mode planted there gone: a bad word of a program area
stays (R452, R455). -/
def memHit (mem n i y : Nat) (scrub : Bool) (b : Block) : Block :=
  noteUncorrectable mem n i y scrub (if mem = 8 then b else unplant mem n i b)

/-- Recording an error reaches the registers and the planted words only. -/
theorem memHit_keeps {β : Type} (g : Block → β) (h : ∀ b regs planted, g { b with regs := regs, planted := planted } = g b)
    (mem n i y : Nat) (scrub : Bool) (b : Block) : g (memHit mem n i y scrub b) = g b := by
  have hplain : g (if mem = 8 then b else unplant mem n i b) = g b := by
    split
    · rfl
    · exact h b b.regs _
  have hput (c : Block) (a : Nat) (w : Word) : g (rput c a w) = g c := h c _ c.planted
  have hlatch (c : Block) : g (latchMemErr mem n i y scrub c) = g c := by
    unfold latchMemErr
    split
    · rfl
    · rw [hput, hput]
  rw [← hplain, memHit, noteUncorrectable, hlatch, rset1_eq, hput, rinc_eq, rputF_eq, hput]

theorem rget_latchMemErr {a : Nat} (h0 : a ≠ 0x810) (h4 : a ≠ 0x814) (b : Block) :
    rget (latchMemErr mem n i y scrub b) a = rget b a := by
  unfold latchMemErr
  split
  · rfl
  · rw [rget_rput_other _ _ _ _ h4, rget_rput_other _ _ _ _ h0]

/-- Recording an error halts no block. -/
theorem faulted_memHit : faulted (memHit mem n i y scrub b) = faulted b := by
  have hword : rget (memHit mem n i y scrub b) 0x38034 = rget b 0x38034 := by
    rw [memHit, noteUncorrectable, rget_latchMemErr (by decide) (by decide), rset1_eq, rget_rput_other _ _ _ _ (by decide), rinc_eq,
      rputF_eq, rget_rput_other _ _ _ _ (by decide)]
    split
    · rfl
    · rfl
  rw [faulted, rfld, hword]
  rfl

/-- An uncorrectable word with live state is recorded and takes its scope action, but in a halted block (R451). -/
theorem uncorrectable_live (hl : liveWord mem n i b = (true, b)) (a : Block → Block)
    (ha : faulted b = false → scopeAction mem n i (memHit mem n i y scrub b) = a (memHit mem n i y scrub b)) :
    uncorrectable mem n i y scrub b = if faulted b then memHit mem n i y scrub b else a (memHit mem n i y scrub b) := by
  have hscope : uncorrectable mem n i y scrub b = scopeAction mem n i (memHit mem n i y scrub b) := by
    rw [uncorrectable, hl]
    rfl
  rw [hscope]
  cases hf : faulted b with
  | true => exact if_pos (faulted_memHit.trans hf)
  | false => exact ha hf

/-- One without live state is counted and rewritten with zeros (R452). -/
theorem uncorrectable_idle (hl : liveWord mem n i b = (false, b)) : uncorrectable mem n i y scrub b =
    latchMemErr mem n i y scrub (rinc (zeroWord mem n i (unplant mem n i b)) 0x80C 27 24 1) := by
  rw [uncorrectable, hl]
  rfl

/-- What a memory's scope action is, past the halt of the block. -/
theorem scopeAction_running {c : Block} (hf : faulted c = false) : scopeAction mem n i c =
    if mem = 1 ∨ mem = 2 then haltLane n 4 c
    else if mem = 3 then rset1 c (laneReg n 0x304) 3
    else if mem = 4 then ((contextPav c (Config.memWordOwner mem n i)).map (fun p => pavResetStart p c)).getD c
    else if mem = 5 then loseSlot c (Config.memWordOwner mem n i)
    else if mem = 8 then chanError c (Config.memWordOwner mem n i / 256 % 8) (Config.memWordOwner mem n i / 32 % 8) 1
      (chan c (Config.memWordOwner mem n i / 256 % 8) (Config.memWordOwner mem n i / 32 % 8)).pc
    else blockFault 2 c := by
  have hmatch : (match contextPav c (Config.memWordOwner mem n i) with
      | some p => pavResetStart p c
      | none => c) = ((contextPav c (Config.memWordOwner mem n i)).map (fun p => pavResetStart p c)).getD c := by
    cases contextPav c (Config.memWordOwner mem n i) <;> rfl
  rw [← hmatch]
  exact if_neg (by rw [hf]; exact Bool.false_ne_true)

/-! The words with live state (R452). -/

theorem entryUsed_none (all : Nat) (b : Block) : entryUsed 0 all b = (false, b) := rfl

theorem entryUsed_all {used all : Nat} (h0 : 0 < all) (h : all ≤ used) (b : Block) : entryUsed used all b = (true, b) := by
  rw [entryUsed, if_neg (by omega), if_pos h]

theorem liveWord_lane (h1 : Config.memWordOwner 1 n i ≠ 1) (h2 : Config.memWordOwner 1 n i ≠ 2) : liveWord 1 n i b = (true, b) := by
  simp [liveWord, h1, h2]

theorem liveWord_pool (h : Config.memWordOwner 1 n i = 1) : liveWord 1 n i b = entryUsed (poolCount b n) 256 b := by
  simp [liveWord, h]

theorem liveWord_holding (h : Config.memWordOwner 1 n i = 2) : liveWord 1 n i b = entryUsed (lane b n).holding.length 64 b := by
  simp [liveWord, h]

theorem liveWord_controlStore : liveWord 3 n i b = (decide (i < (lane b n).words), b) := rfl
theorem liveWord_context : liveWord 4 n i b = ((contextPav b (Config.memWordOwner 4 n i)).isSome, b) := rfl
theorem liveWord_key : liveWord 5 n i b =
    (decide (Config.memWordOwner 5 n i = 0) || decide ((keySlot b (Config.memWordOwner 5 n i)).st ≠ .empty), b) := rfl

theorem liveWord_program : liveWord 8 n i b =
    (!([0, 4, 5].contains (chan b (Config.memWordOwner 8 n i / 256 % 8) (Config.memWordOwner 8 n i / 32 % 8)).run), b) := rfl

end ScopeActions

/-! The test mode (R461). -/

section TestMode

variable {b : Block} {v : Word}

theorem testCtrlWrite_nonSecure (v : Word) (b : Block) : testCtrlWrite v false b = b := rfl

theorem testCtrlWrite_arms (h1 : v.getLsbD 1 = false) : testCtrlWrite v true b = rputB b 0x828 0 (v.getLsbD 0) := by
  simp only [testCtrlWrite, h1, Bool.not_true, Bool.false_eq_true, if_false]

/-- GO by the ARM that an earlier write has set. -/
theorem testCtrlWrite_go (h1 : v.getLsbD 1 = true) :
    testCtrlWrite v true b = if rbit b 0x828 0 then plantWord (rclr1 b 0x828 0) else b := if_pos h1

/-- MP_TEST_ARM and MP_TEST_GO are the same write. -/
theorem exec_testCtrl {s : State} {c : Instr} {sec : Bool} (hc : c ∈ [Instr.mpTestArm v sec, .mpTestGo v sec]) :
    exec c s = (regWrite4 s 0x828 sec (testCtrlWrite v sec)).settled := by
  simp only [List.mem_cons, List.not_mem_nil, or_false] at hc
  rcases hc with rfl | rfl
  · rfl
  · rfl

end TestMode

/-- Settles O56: a scrubbed word by where the scrubber stands and what it finds, an uncorrectable word by its memory and its owner, and a
write of MP_TEST_CTRL. -/
theorem memoryProtection : Obligations.MemoryProtection := by
  refine ⟨fun s who lapEnd f mem index synd => ⟨?reads, fun ht => act_of_eq (scrubWord_stopped ht), ?unplanted,
      scrubOn_within, scrubOn_lapEnd⟩,
    fun b n i y scrub => ⟨?state, ?poolEmpty, ?poolFull, ?holdingEmpty, ?holdingFull, ?buffer, ?store, ?storeIdle, ?context, ?contextIdle,
      ?key, ?keyIdle, ?tables, ?shared, ?program⟩,
    fun s v sec hp c hc => ⟨?arms, ?plants, ?unarmed, ?ignored⟩⟩
  case reads =>
    intro hi ht hn hlo hhi hwho
    refine ⟨fun hnext => act_of_eq ((scrubWord_reads hi ht hn hlo hhi hwho ((scrubNext_iff _).mpr hnext)).trans ?_),
      fun hnext => act_of_eq (scrubWord_elsewhere (mt (scrubNext_iff _).mp hnext))⟩
    rcases hy : scrubFinding mem (who.getD 0) index synd f (scrubOn (who.getD 64) mem index lapEnd s.blk) with ⟨found, z⟩
    cases found with
    | good => exact scrubFound_good hy
    | correctable written =>
      cases written with
      | true => exact (scrubFound_corrected hy).trans (if_pos rfl)
      | false => exact (scrubFound_corrected hy).trans (if_neg Bool.false_ne_true)
    | uncorrectable => exact scrubFound_uncorrectable hy
  case unplanted =>
    intro h3 hnone
    exact scrubFinding_unplanted h3 (by rw [scrubOn_planted]; exact hnone)
  case state => exact fun h1 h2 => uncorrectable_live (liveWord_lane h1 h2) _ fun hf => scopeAction_running (faulted_memHit.trans hf)
  case poolEmpty =>
    intro ho hp
    exact uncorrectable_idle ((liveWord_pool ho).trans (by rw [hp, entryUsed_none]))
  case poolFull =>
    exact fun ho hp => uncorrectable_live ((liveWord_pool ho).trans (entryUsed_all (by decide) hp b)) _
      fun hf => scopeAction_running (faulted_memHit.trans hf)
  case holdingEmpty =>
    intro ho hh
    exact uncorrectable_idle ((liveWord_holding ho).trans (by rw [hh]; rfl))
  case holdingFull =>
    exact fun ho hh => uncorrectable_live ((liveWord_holding ho).trans (entryUsed_all (by decide) hh b)) _
      fun hf => scopeAction_running (faulted_memHit.trans hf)
  case buffer => exact uncorrectable_live rfl _ fun hf => scopeAction_running (faulted_memHit.trans hf)
  case store =>
    intro hw
    exact uncorrectable_live (liveWord_controlStore.trans (by rw [decide_eq_true hw])) (fun c => rset1 c (laneReg n 0x304) 3)
      fun hf => (scopeAction_running (faulted_memHit.trans hf)).trans ((if_neg (by decide)).trans (if_pos rfl))
  case storeIdle =>
    intro hw
    have hidle : liveWord 3 n i b = (false, b) := liveWord_controlStore.trans (by rw [decide_eq_false (Nat.not_lt.mpr hw)])
    exact uncorrectable_idle hidle
  case context =>
    intro p hp
    refine uncorrectable_live (liveWord_context.trans (by rw [hp]; rfl)) _ fun hf => ?_
    have hctx : contextPav (memHit 4 n i y scrub b) (Config.memWordOwner 4 n i) = some p :=
      (memHit_keeps (fun c => contextPav c _) (fun _ _ _ => rfl) 4 n i y scrub b).trans hp
    refine (scopeAction_running (faulted_memHit.trans hf)).trans ?_
    rw [hctx]
    rfl
  case contextIdle =>
    intro hp
    exact uncorrectable_idle (liveWord_context.trans (by rw [hp]; rfl))
  case key =>
    intro hk
    have hlive : liveWord 5 n i b = (true, b) := liveWord_key.trans (by rw [← Bool.decide_or, decide_eq_true hk])
    exact uncorrectable_live hlive (fun c => loseSlot c (Config.memWordOwner 5 n i))
      fun hf => scopeAction_running (faulted_memHit.trans hf)
  case keyIdle =>
    intro h0 hk
    refine uncorrectable_idle (liveWord_key.trans ?_)
    rw [← Bool.decide_or, decide_eq_false (not_or.mpr ⟨h0, not_not.mpr hk⟩)]
  case tables => exact uncorrectable_live rfl _ fun hf => scopeAction_running (faulted_memHit.trans hf)
  case shared => exact uncorrectable_live rfl _ fun hf => scopeAction_running (faulted_memHit.trans hf)
  case program =>
    intro j g
    refine ⟨fun hrun => ?_, fun hrun => ?_⟩
    · have hlive : liveWord 8 n i b = (true, b) := liveWord_program.trans (by rw [List.contains_eq_mem, decide_eq_false hrun]; rfl)
      have hchan : chan (memHit 8 n i y scrub b) j g = chan b j g :=
        memHit_keeps (fun c => chan c j g) (fun _ _ _ => rfl) 8 n i y scrub b
      refine uncorrectable_live hlive (fun c => chanError c j g 1 (chan b j g).pc) fun hf => ?_
      rw [← hchan]
      exact scopeAction_running (faulted_memHit.trans hf)
    · refine uncorrectable_idle (liveWord_program.trans ?_)
      rw [List.contains_eq_mem, decide_eq_true hrun]
      rfl
  case arms =>
    rintro rfl h1
    rw [exec_testCtrl hc]
    exact regWrite4_of_eq hp (by decide) (testCtrlWrite_arms h1)
  case plants =>
    rintro rfl h1 harm
    rw [exec_testCtrl hc]
    exact regWrite4_of_eq hp (by decide) ((testCtrlWrite_go h1).trans (if_pos harm))
  case unarmed =>
    rintro rfl h1 harm
    rw [exec_testCtrl hc]
    exact regWrite4_of_eq hp (by decide) ((testCtrlWrite_go h1).trans (if_neg (by rw [harm]; exact Bool.false_ne_true)))
  case ignored =>
    rintro rfl
    rw [exec_testCtrl hc]
    exact regWrite4_ignored hp (by decide) (testCtrlWrite_nonSecure v)

end Sys2Proof.Laws
